-- ==== Sys2Proof/Word.lean ====
section
/-!
DEFINITION. The plain words of the ACV-9256 model: the widths the manual uses for registers, bytes and addresses.
-/
namespace Sys2Proof

/-- A byte of memory, of a queue entry or of a message. -/
abbrev Byte := BitVec 8
/-- A 32-bit word: a CSR (01 R25), a vector lane (04 R82), an accumulator entry (08 R228). -/
abbrev Word := BitVec 32
/-- A 64-bit word: a scalar register (04 R82), an instruction word (05 R124), an object address (04 R91). -/
abbrev DWord := BitVec 64

end Sys2Proof
end

