-- ==== Sys2Proof/Operand.lean ====
section
/-!
DEFINITION. The operands of the commands: the issuing thread and the fields of its instruction word (05 R124), and the
names of the units and outcomes that the events bring.
-/
namespace Sys2Proof

/-- A thread: gallery 0 to 95 and thread number 0 to 63 on it (00 R5). -/
structure Thr where
  g : Nat
  t : Nat
deriving DecidableEq, Repr

/-- The fields of an instruction word beside OP and CLASS (05 R124). `body` is bits [43:0]. -/
structure Fields where
  gd : BitVec 3
  gn : Bool
  mod : BitVec 4
  body : BitVec 44
deriving DecidableEq, Repr

/-- The instructions of the module's instruction set (05 R129, 06 R166). -/
inductive IsaOp where
  | br | brc | call | ret | yield | halt
  | smov | sadd | ssub | smul | sand | sor | sxor | sshl | sshr | ssra | smin | smax | scmp
  | ld | st | lda | waita | pref
  | sema | semr | bar | fence
  | send | recv | radd | madd
  | pgalloc | pgfree | stepend
  | geom | csrr | csrw
  | tdesc | tload | tswap | topen | tstream | tstreamt | tdrain
  | vop | vquant | vrot | vhist | vscale
  | selt | topk | merge
  | ptab | pscan | pcollect | gwalk
deriving DecidableEq, Repr

/-- The class of an instruction (05 R129, 06 R166). -/
def IsaOp.cls : IsaOp → BitVec 4
  | .br | .brc | .call | .ret | .yield | .halt => 0x0
  | .smov | .sadd | .ssub | .smul | .sand | .sor | .sxor | .sshl | .sshr | .ssra | .smin | .smax | .scmp => 0x1
  | .ld | .st | .lda | .waita | .pref => 0x2
  | .sema | .semr | .bar | .fence => 0x3
  | .send | .recv | .radd | .madd => 0x4
  | .pgalloc | .pgfree | .stepend => 0x5
  | .geom | .csrr | .csrw => 0x6
  | .tdesc | .tload | .tswap | .topen | .tstream | .tstreamt | .tdrain => 0x8
  | .vop | .vquant | .vrot | .vhist | .vscale => 0x9
  | .selt | .topk | .merge => 0xA
  | .ptab | .pscan | .pcollect | .gwalk => 0xB

/-- The opcode of an instruction, unique within its class (05 R129, 06 R166). -/
def IsaOp.op : IsaOp → BitVec 8
  | .br => 0x01 | .brc => 0x02 | .call => 0x03 | .ret => 0x04 | .yield => 0x05 | .halt => 0x06
  | .smov => 0x01 | .sadd => 0x02 | .ssub => 0x03 | .smul => 0x04 | .sand => 0x05 | .sor => 0x06 | .sxor => 0x07
  | .sshl => 0x08 | .sshr => 0x09 | .ssra => 0x0A | .smin => 0x0B | .smax => 0x0C | .scmp => 0x0D
  | .ld => 0x01 | .st => 0x02 | .lda => 0x03 | .waita => 0x04 | .pref => 0x05
  | .sema => 0x01 | .semr => 0x02 | .bar => 0x03 | .fence => 0x04
  | .send => 0x01 | .recv => 0x02 | .radd => 0x03 | .madd => 0x04
  | .pgalloc => 0x01 | .pgfree => 0x02 | .stepend => 0x03
  | .geom => 0x01 | .csrr => 0x02 | .csrw => 0x03
  | .tdesc => 0x01 | .tload => 0x02 | .tswap => 0x03 | .topen => 0x04 | .tstream => 0x05 | .tstreamt => 0x06 | .tdrain => 0x07
  | .vop => 0x01 | .vquant => 0x02 | .vrot => 0x03 | .vhist => 0x04 | .vscale => 0x05
  | .selt => 0x01 | .topk => 0x02 | .merge => 0x03
  | .ptab => 0x01 | .pscan => 0x02 | .pcollect => 0x03 | .gwalk => 0x04

/-- Every instruction, in the order of the encoding tables. -/
def IsaOp.all : List IsaOp :=
  [.br, .brc, .call, .ret, .yield, .halt, .smov, .sadd, .ssub, .smul, .sand, .sor, .sxor, .sshl, .sshr, .ssra, .smin, .smax,
   .scmp, .ld, .st, .lda, .waita, .pref, .sema, .semr, .bar, .fence, .send, .recv, .radd, .madd, .pgalloc, .pgfree, .stepend,
   .geom, .csrr, .csrw, .tdesc, .tload, .tswap, .topen, .tstream, .tstreamt, .tdrain, .vop, .vquant, .vrot, .vhist, .vscale,
   .selt, .topk, .merge, .ptab, .pscan, .pcollect, .gwalk]

/-- The blocks that ask the ledger for grains (02 R43); a gallery asks together with its scale stage. Dies are numbered 0 to 511, channel × 8 + target. -/
inductive Requester where
  | gallery (g : Nat)
  | netBase
  | hlu
  | ffu
  | probe
  | hostPhy
  | flight (f : Nat)
  | landing (l : Nat)
  | serdesCommon
  | flashStanding
  | dieProgram (d : Nat)
  | dieErase (d : Nat)
  | csrWake (addr : Nat)
deriving DecidableEq, Repr

/-- A packet (19 R501): header fields, its body as a little-endian number, the global hops it has taken (R502), the misroutes it has
taken (R505) and the flight it came in on (64 for the module itself), and
since when it waits in this router. -/
structure Packet where
  dest : Nat
  src : Nat
  ty : Nat
  misrouted : Bool := false
  detour : Bool := false
  age : Nat := 0
  tag : Nat := 0
  status : Nat := 0
  peer : Nat := 0
  len : Nat := 0
  body : Nat := 0
  hops : Nat := 0
  misroutes : Nat := 0
  inFlight : Nat := 64
  since : Nat := 0
  /-- The exit chosen for this hall segment (R504): seat and global flight less 32. -/
  exit : Option (Nat × Nat) := none
deriving DecidableEq, Repr

/-- A flit received on a flight (19 R497, R498): whether its CRC, its codewords and its reserved fields are good, its SEQ, IDLE, the
ACK it carries, the class × 4 + channel and flits of the credits it returns, and with its last flit the message. -/
structure FlightFlit where
  good : Bool
  fecBad : Bool := false
  seq : Nat
  idle : Bool := false
  ack : Option Nat := none
  crSel : Nat := 0
  crCount : Nat := 0
  msg : Option Packet := none
deriving DecidableEq, Repr

/-- A flit received on a landing link (14 R368): whether its CRC is good, its SEQ, CLASS, the ACK it carries, the credits it returns. -/
structure LndFlit where
  good : Bool
  seq : Nat
  cls : Nat
  ack : Nat
  crSel : Nat := 0
  crCount : Nat := 0
deriving DecidableEq, Repr

/-- A flit received on the host link (17 R450, R455, R456): codewords corrected in it, whether one was uncorrectable, whether its CRC is good,
whether its reserved fields are 0; its flags, CLASS, SEQ, ACK, the two classes whose credits it returns with their counts, LEN and payload. -/
structure HostFlit where
  corrected : Nat := 0
  fecBad : Bool := false
  good : Bool := true
  zeros : Bool := true
  idle : Bool := false
  cls : Nat := 0
  seq : Nat
  ack : Option Nat := none
  crA : Nat × Nat := (0, 0)
  crB : Nat × Nat := (0, 0)
  len : Nat := 0
  data : Nat := 0
deriving DecidableEq, Repr

end Sys2Proof
end

