-- ==== Sys2Proof/Syntax.lean ====
section
/-!
DEFINITION. The commands and events of the ACV-9256, one constructor per row of spec/opcode_table.json,
with the row's operands. `Thr` names the issuing thread and `Fields` the fields of its 64-bit instruction word (05 R124);
`q slot` name an accepted submission entry (18 R469); every other operand is what the command or the physical event brings.
-/
namespace Sys2Proof

/-- One step of the module (95: each whole and indivisible). -/
inductive Instr where
  /-- R134. Branch relative or to a register target, changing PC and possibly the current code object. -/
  | br (th : Thr) (f : Fields)
  /-- R135. Conditional branch on a scalar comparison or a predicate bit. -/
  | brc (th : Thr) (f : Fields)
  /-- R136. Push the return address on the return stack and branch as BR. -/
  | call (th : Thr) (f : Fields)
  /-- R136. Pop the return stack and continue at that address. -/
  | ret (th : Thr) (f : Fields)
  /-- R86. Return the issuing thread to READY at the back of the round-robin order. -/
  | yield (th : Thr) (f : Fields)
  /-- R138. Drain the thread's LDAs, posted operations and scans, release its semaphores, discard its inbox and halt it. -/
  | halt (th : Thr) (f : Fields)
  /-- R139. Copy a register, load a sign-extended immediate or load the upper bits. -/
  | smov (th : Thr) (f : Fields)
  /-- R139. Scalar 64-bit add, wrapping. -/
  | sadd (th : Thr) (f : Fields)
  /-- R139. Scalar 64-bit subtract, wrapping. -/
  | ssub (th : Thr) (f : Fields)
  /-- R139. Low 64 bits of a scalar multiply. -/
  | smul (th : Thr) (f : Fields)
  /-- R139. Scalar bitwise AND. -/
  | sand (th : Thr) (f : Fields)
  /-- R139. Scalar bitwise OR. -/
  | sor (th : Thr) (f : Fields)
  /-- R139. Scalar bitwise XOR. -/
  | sxor (th : Thr) (f : Fields)
  /-- R139. Scalar shift left. -/
  | sshl (th : Thr) (f : Fields)
  /-- R139. Scalar logical shift right. -/
  | sshr (th : Thr) (f : Fields)
  /-- R139. Scalar arithmetic shift right. -/
  | ssra (th : Thr) (f : Fields)
  /-- R139. Signed scalar minimum. -/
  | smin (th : Thr) (f : Fields)
  /-- R139. Signed scalar maximum. -/
  | smax (th : Thr) (f : Fields)
  /-- R139. Compare scalars and set every lane bit of a predicate to the result. -/
  | scmp (th : Thr) (f : Fields)
  /-- R141. Scalar or vector load from the bay, atrium or work tier, with an optional status predicate. -/
  | ld (th : Thr) (f : Fields)
  /-- R143. Scalar or masked vector store, posted when the target is in the remote tier. -/
  | st (th : Thr) (f : Fields)
  /-- R144. Start the flash read of a volume unit into the landing's read buffer, never faulting. -/
  | pref (th : Thr) (f : Fields)
  /-- R145. Start an asynchronous copy into a bay object and return a ticket, blocking at the outstanding limits. -/
  | lda (th : Thr) (f : Fields)
  /-- R99. An asynchronous load finishes and records its status for WAITA. `seq` is the ticket's sequence number. -/
  | ldaComplete (th : Thr) (seq : Nat)
  /-- R148. Wait for or poll an LDA ticket and retire it with its status. -/
  | waita (th : Thr) (f : Fields)
  /-- R150. Acquire a partition semaphore, try or queue by class. -/
  | sema (th : Thr) (f : Fields)
  /-- R151. Release a semaphore, passing it to the head of its queue. -/
  | semr (th : Thr) (f : Fields)
  /-- R153. Fence, then wait at a gallery, partition or fabric barrier. -/
  | bar (th : Thr) (f : Fields)
  /-- R153. The last participant arrives or halts and every waiter is released. `c` is partition × 4 + context; `g` the gallery of a scope 0 barrier. -/
  | barrierComplete (c scope n g : Nat)
  /-- R155. Block until every earlier posted operation of the thread has completed and report the first failure. -/
  | fence (th : Thr) (f : Fields)
  /-- R103. A posted store, MADD, RADD or SEND completes at its target and frees its slot. -/
  | postedOpComplete (g id : Nat)
  /-- R156. Send a local or remote message from the bay, occupying a posted-operation slot. -/
  | send (th : Thr) (f : Fields)
  /-- R157. A blocked local message enters an inbox once a slot frees. `g id` name the sender's posted operation. -/
  | inboxDelivery (g id : Nat)
  /-- R158. Take the oldest inbox message into the bay, truncating at the limit. -/
  | recv (th : Thr) (f : Fields)
  /-- R159. Posted atomic add into the atrium or work tier. -/
  | madd (th : Thr) (f : Fields)
  /-- R159. Posted atomic add into the remote tier. -/
  | radd (th : Thr) (f : Fields)
  /-- R351. The adder at a slice or channel applies arriving add elements atomically. `g id` name a posted operation of a gallery. -/
  | memorySideAdd (g id : Nat)
  /-- R161. Allocate the lowest free page of the context's pool. -/
  | pgalloc (th : Thr) (f : Fields)
  /-- R161. Move an allocated page into the pending set. -/
  | pgfree (th : Thr) (f : Fields)
  /-- R161. Move every pending page into the free set. -/
  | stepend (th : Thr) (f : Fields)
  /-- R162. Return a geometry item. -/
  | geom (th : Thr) (f : Fields)
  /-- R163. Read a register through a program window. -/
  | csrr (th : Thr) (f : Fields)
  /-- R115. Write the program-writable fields of a SELF-window register. -/
  | csrw (th : Thr) (f : Fields)
  /-- R171. Write or read one quarter of a tile descriptor. -/
  | tdesc (th : Thr) (f : Fields)
  /-- R173. Open an accumulation group, waiting for the array lease. -/
  | topen (th : Thr) (f : Fields)
  /-- R105. A waiting TOPEN receives the lease when the previous group closes or is abandoned. -/
  | arrayLeaseGrant (g : Nat)
  /-- R174. Queue a stall or shadow load of a stationary set. -/
  | tload (th : Thr) (f : Fields)
  /-- R210. A queued stall or shadow load starts once its conditions hold. -/
  | stationaryLoadStart (g : Nat)
  /-- R209. The loader writes the last column line of a stationary load. -/
  | stationaryLoadDone (g : Nat)
  /-- R175. Exchange the active and inactive stationary sets after earlier entries finish. -/
  | tswap (th : Thr) (f : Fields)
  /-- R176. Queue a weight stream that updates accumulator rows. -/
  | tstream (th : Thr) (f : Fields)
  /-- R177. Queue a transposed weight stream under the TRAIN overlay. -/
  | tstreamt (th : Thr) (f : Fields)
  /-- R206. A weight row enters the row port when data and the interlock allow. -/
  | rowEntry (g : Nat)
  /-- R231. A row's column sums land in its accumulator row L cycles after entry. `ecc`: 0 clean, 1 corrected, 2 uncorrectable; `wit`: the witness sum differs. -/
  | accumulatorUpdate (g ecc : Nat) (wit : Bool)
  /-- R216. At a burst boundary the stream controller gives the next burst to a ready convoy. `w` is the wing. -/
  | burstGrant (w : Nat)
  /-- R178. Queue a drain of accumulator rows through the scale stage, closing the group. -/
  | tdrain (th : Thr) (f : Fields)
  /-- R236. The drain starts after the group's last accumulator update. -/
  | drainStart (g : Nat)
  /-- R237. Every drain write is acknowledged, the status word is written and the group closes. -/
  | drainComplete (g ecc : Nat)
  /-- R182. Apply a vector function to lanes under a mask. -/
  | vop (th : Thr) (f : Fields)
  /-- R186. Quantise FP32 lanes to a narrower format and pack them. -/
  | vquant (th : Thr) (f : Fields)
  /-- R188. Apply a blockwise Hadamard rotation with optional signs. -/
  | vrot (th : Thr) (f : Fields)
  /-- R189. Add selected lanes to a bay histogram object. -/
  | vhist (th : Thr) (f : Fields)
  /-- R190. Write pending scale-bank entries and optionally commit the bank. -/
  | vscale (th : Thr) (f : Fields)
  /-- R192. Copy records passing a threshold, in input order, up to a capacity. -/
  | selt (th : Thr) (f : Fields)
  /-- R275. Select the k smallest-key records by threshold refinement. -/
  | topk (th : Thr) (f : Fields)
  /-- R278. Merge ascending lists into the k smallest records, optionally deduplicated. -/
  | merge (th : Thr) (f : Fields)
  /-- R270. A paused selection instruction resumes when its context runs again. -/
  | selectionResume (g : Nat)
  /-- R195. Build a distance table for a query. -/
  | ptab (th : Thr) (f : Fields)
  /-- R196. Hand a scan or append request to the Probe Engine and return a scan ticket. -/
  | pscan (th : Thr) (f : Fields)
  /-- R299. The die side starts a queued scan once contexts and table slots are free on every LPU. -/
  | scanStart
  /-- R301. An LPU scans a list page leaving the dies and queues survivors. `id` is the scan; `page` the number of its page. -/
  | lpuPageScan (id page : Nat)
  /-- R301. The die side converts a survivor, checks tombstones and writes it to the region. `k` is the place of the survivor among those in transit. -/
  | survivorArrival (id k : Nat)
  /-- R302. The keeper's tighter threshold is sent to all LPUs, at most once per TIGHTEN_NS. `q` is the query. -/
  | thresholdSend (id q : Nat)
  /-- R302. An LPU applies a received threshold from its next record. `l` is the landing. -/
  | thresholdApply (id q l : Nat)
  /-- R290. An APPEND ends when its applied entries are durable. -/
  | appendEnd (id : Nat)
  /-- R306. A scan ends for every query and its status becomes final. -/
  | scanEnd (id : Nat)
  /-- R197. Collect survivor progress of a scan, optionally offering a tighter threshold. -/
  | pcollect (th : Thr) (f : Fields)
  /-- R198. Walk the stair index and write the chosen lists or nodes. -/
  | gwalk (th : Thr) (f : Fields)
  /-- R86. Each ACLK cycle the sequencer issues one READY thread of the running context. `g` is the gallery. -/
  | issueSelect (g : Nat)
  /-- R472. Return the identity structure. -/
  | identify (q slot : Nat)
  /-- R474. Return a log from an offset. -/
  | getLog (q slot : Nat)
  /-- R473. Return a feature's value. -/
  | getFeature (q slot : Nat)
  /-- R468. Configure a queue pair. -/
  | queueCreate (q slot : Nat)
  /-- R468. Delete a queue pair and disable its expert functions. -/
  | queueDelete (q slot : Nat)
  /-- R475. Enable or disable expert functions on a queue with the attestation token. -/
  | expert (q slot : Nat)
  /-- R489. Set the mask of suppressed event sources. -/
  | eventMask (q slot : Nat)
  /-- R55. Set or remove the module input power cap. -/
  | powerCap (q slot : Nat)
  /-- R58. Write the sleep enables and idle times. -/
  | sleepPolicy (q slot : Nat)
  /-- R318. Store a partition descriptor after the capacity checks. -/
  | partition (q slot : Nat)
  /-- R336. Reset a partition: stop contexts, self-test, apply descriptor, re-admit and restart. `cmd` is the host's entry when the host asks; of the self-test, `bad` lists failing columns (gallery, physical column), `wit` the galleries whose witness fails, `other` those whose other parts fail. -/
  | partitionReset (p : Nat) (cmd : Option (Nat × Nat)) (bad : List (Nat × Nat)) (wit other : List Nat)
  /-- R399. Create a BLOCK or INDEX volume. -/
  | volumeCreate (q slot : Nat)
  /-- R400. Delete a volume, unmapping all its units. -/
  | volumeDelete (q slot : Nat)
  /-- R443. Empty the selected correctable-error logs. -/
  | errorLogClear (q slot : Nat)
  /-- R533. Verify and store an overlay image in a slot. -/
  | overlayStore (q slot : Nat)
  /-- R533. Empty an overlay slot not in use. -/
  | overlayDelete (q slot : Nat)
  /-- R533. Select the module overlay for the next reset. -/
  | overlaySelect (q slot : Nat)
  /-- R494. Set or unassign the fabric module ID. -/
  | moduleId (q slot : Nat)
  /-- R521. Write a firmware chunk into the inactive slot. -/
  | fwDownload (q slot : Nat)
  /-- R528. Check a slot and write a boot record putting it on trial. -/
  | fwCommit (q slot : Nat)
  /-- R536. Write a signed attestation report, optionally with a new expert token. -/
  | attest (q slot : Nat)
  /-- R426. Refuse data and job commands, cancel jobs and make the sanitize record durable. -/
  | sanitizeStart (q slot : Nat)
  /-- R472. Return MDM_SANITIZE from the AON copy. -/
  | sanitizeStatus (q slot : Nat)
  /-- R25. Expert read of a CSR. -/
  | regRead (q slot : Nat)
  /-- R27. Expert write of a CSR with no behaviour of its own. -/
  | regWrite (q slot : Nat)
  /-- R26. A CSR access to an off domain gets no grains within 10 ms and completes BUSY. `who` is the entry's queue and slot, none the debug port. -/
  | csrWakeTimeout (who : Option (Nat × Nat))
  /-- R482. Try to stop a named command. -/
  | abort (q slot : Nat)
  /-- R478. Read logical blocks of a BLOCK volume to the host. -/
  | read (q slot : Nat)
  /-- R410. Write logical blocks durably through the landing zone. -/
  | write (q slot : Nat)
  /-- R490. Unmap logical blocks in ascending order. -/
  | trim (q slot : Nat)
  /-- R481. Complete once every earlier write and trim has completed and settled. -/
  | flush (q slot : Nat)
  /-- R477. Read bytes of a job's OUTPUT object to the host. -/
  | objectRead (q slot : Nat)
  /-- R477. Write host bytes into a job's INPUT object. -/
  | objectWrite (q slot : Nat)
  /-- R392. Read page bytes through decode tiers 1 and 2. -/
  | rawRead (q slot : Nat)
  /-- R392. Return a page's sectors and check bytes undecoded. -/
  | rawReadRaw (q slot : Nat)
  /-- R392. Raw read with supplied level offsets. -/
  | rawReadLevel (q slot : Nat)
  /-- R388. Program one page of an owned die after the erase-state check. -/
  | rawProgram (q slot : Nat)
  /-- R392. Erase one block of an owned die. -/
  | rawErase (q slot : Nat)
  /-- R392. Write and read back a die's cache register. -/
  | rawCacheLoop (q slot : Nat)
  /-- R392. Read an ONFI feature address. -/
  | rawGetDieFeature (q slot : Nat)
  /-- R392. Write an ONFI feature address of an owned die. -/
  | rawSetDieFeature (q slot : Nat)
  /-- R392. Return READ ID and the parameter page. -/
  | rawReadIdent (q slot : Nat)
  /-- R392. Return a block's erase-state entry and window position. -/
  | rawBlockState (q slot : Nat)
  /-- R396. Return a die's OTP row with the key zeroed. -/
  | rawOtpRead (q slot : Nat)
  /-- R323. Check a manifest and admit the job into a FREE context. -/
  | jobLoad (q slot : Nat)
  /-- R324. Start an incarnation on a LOADED context. -/
  | jobSubmit (q slot : Nat)
  /-- R483. Tear down a context's incarnation, optionally releasing it. -/
  | jobCancel (q slot : Nat)
  /-- R483. Write a context's state, progress and last fault. -/
  | jobStatus (q slot : Nat)
  /-- R325. The Steward chooses the running context and may decide a pre-emption. `p` is the partition. -/
  | schedulingPoint (p : Nat)
  /-- R327. An outgoing group reaches GROUP_LIMIT counted cycles without TDRAIN and is abandoned. -/
  | groupLimitExpiry (g : Nat)
  /-- R327. All outgoing groups closed; the outgoing context becomes PREEMPTED and the incoming one runs. -/
  | preemptionSwitch (p : Nat)
  /-- R330. A waiter blocks on a semaphore of a PREEMPTED owner and the owner's threads on that gallery are lent. `n` is the semaphore. -/
  | lendStart (p n : Nat)
  /-- R331. JST_LEND_LIMIT passes and the waiters leave with SEM_LEND_TIMEOUT. `g t` name the owner thread. -/
  | lendLimitExpiry (p g t : Nat)
  /-- R335. A faulting context is stopped and its resources released. `c` is partition × 4 + context. -/
  | contextTeardown (c : Nat)
  /-- R117. An instruction raises a program fault and its context stops. `g` is the gallery whose issue latch holds the word. -/
  | programFault (g : Nat)
  /-- R43. A block asks the ledger for grains for a new state. `mode` is a gallery's: 0 clock-gated, 1 stall, 2 shadow, 3 power-gated. -/
  | grainRequest (r : Requester) (mode : Nat)
  /-- R45. A block releases grains. -/
  | grainRelease (r : Requester) (mode : Nat)
  /-- R45. Each AON cycle the Warden grants waiting requests in order within the effective ceiling and rise limit. `a` is the account: 0 VCORE, 1 VSERDES, 2 VFLASH. -/
  | ledgerArbitration (a : Nat)
  /-- R47. A head request passes 1 ms of waiting and bypass stops. -/
  | headBlocked (a : Nat)
  /-- R50. A partition request waits 50 µs while lower classes hold grants. -/
  | revocationWaitExpiry
  /-- R37. Revoke wing grants, relock the arithmetic PLL and recompute grants. -/
  | oppointChange
  /-- R38. Gallery requests left waiting for 100 ms lower the operating point. -/
  | autoOppointLower
  /-- R38. No gallery request waits for 1 s and the operating point rises. -/
  | autoOppointRaise
  /-- R55. Every 1 ms input power is measured and the VCORE ceiling adjusted. `p` is the measured input power in 0.1 W. -/
  | powerCapSample (p : Nat)
  /-- R56. Every 10 ms the ceiling is lowered or restored by junction temperature. -/
  | thermalStep
  /-- R56. A junction reaches 115 °C and gallery grants and pulses are withheld. -/
  | thermalTrip
  /-- R56. Every junction reads below 105 °C and the trip ends. -/
  | thermalTripEnd
  /-- R23. A fast PLL locks and held grant requests may proceed. `k`: 0 arithmetic, 1 network, 2 DRAM, 3 + l landing l. -/
  | pllLock (k : Nat)
  /-- R39. A wing idle for 1 µs enters S1. -/
  | s1Entry (w : Nat)
  /-- R39. A wing in S1 for S2_IDLE with no open group enters S2. -/
  | s2Entry (w : Nat)
  /-- R39. The module idle for S3_IDLE enters S3. -/
  | s3Entry
  /-- R39. The module in S3 for S4_IDLE enters S4. -/
  | s4Entry
  /-- R40. A wake trigger starts waking the domains needed. `k` is the wing, or 12 for the module. -/
  | wakeTrigger (k : Nat)
  /-- R39. The woken domains become able to work after the wake latency. `k` is the wing, or 12 for the module. -/
  | domainWakeDone (k : Nat)
  /-- R35. Read the low counter half and latch the upper half. -/
  | wdnAontimeLoRead (q slot : Nat)
  /-- R38. Expert write requesting an operating point with AUTO clear. -/
  | wdnOppointTarget (q slot : Nat)
  /-- R7. Read of a read-clear counter returns and clears it. -/
  | rcRead (q slot : Nat)
  /-- R227. Clear the gallery's four performance counters. -/
  | galPerfClr (q slot : Nat)
  /-- R223. Store a new bypass mask for the next partition reset. -/
  | galBypassWrite (q slot : Nat)
  /-- R222. Mark a wing for retirement at the next partition reset. -/
  | wingRetire (q slot : Nat)
  /-- R223. Mark a retired wing for test and return at the next partition reset. -/
  | wingRestore (q slot : Nat)
  /-- R361. Take a DRAM channel out of service. -/
  | wmcChanRetireGo (q slot : Nat)
  /-- R558. Run a DRAM PHY or reserved-row loop-back. `bad` is the number of bytes that mismatch. -/
  | wmcLoopGo (bad q slot : Nat)
  /-- R452. Start a host link retrain by register. -/
  | hluLinkCtlRetrain (q slot : Nat)
  /-- R498. Declare a flight lost, or clear to start cold training. -/
  | ffuFlDisable (q slot : Nat)
  /-- R556. Route around a flight and enter a flight loop-back. `w` is the entry's queue and slot; none when flight `f` enters its depth. -/
  | ffuFlLoop (w : Option (Nat × Nat)) (f : Nat)
  /-- R557. Put a landing link in loop-back, treating the landing as lost. -/
  | lndLoopLink (q slot : Nat)
  /-- R557. Put an owned flash channel in pad loop-back. `w` is the entry's queue and slot; none when the checker of channel `c` reports. -/
  | lndLoopPad (w : Option (Nat × Nat)) (c : Nat) (sync : Bool) (errs : Nat)
  /-- R391. Take dies into or out of raw ownership. -/
  | lndRawOwnWrite (q slot : Nat)
  /-- R374. A new channel rate or wait-state setting takes effect once transfers end. -/
  | lndChCfgApply (c : Nat)
  /-- R444. Store a test codeword with given check bits. -/
  | diuChkWrite (q slot : Nat)
  /-- R444. Read a test codeword through the decoder and report the syndrome. -/
  | diuChkRead (q slot : Nat)
  /-- R460. Judge up to three submission entries and send verdicts. `lat` is the time to the first send of the verdict in 10 ns. -/
  | doorbell (q count first len lat : Nat) (es : List (BitVec 512))
  /-- R467. Free completion-queue slots up to the new head. -/
  | cqHead (q head : Nat)
  /-- R467. A formed completion entry is written once its ring has room. -/
  | completionPost (q : Nat)
  /-- R489. A pending event is written to queue 0's ring. -/
  | eventPost
  /-- R459. Host memory data for a read request arrives. -/
  | readData (rtag len data : Nat)
  /-- R458. Adapter INIT gives version, width and credits. `credits` lists the adapter's advertisement for ACC, MREQ, MWR and MGT. -/
  | init (credits : List Nat)
  /-- R457. Insufficient adapter credits repeat initialisation every 10 ms. -/
  | initRetry
  /-- R454. A WIDTH message marks the flit boundary of a width change. -/
  | width (w : Nat)
  /-- R462. After a link reset, answer ACC_STATE and resend unacknowledged writes and reads. -/
  | resync
  /-- R555. Adapter LOOP enters or ends an L2 or L3 host loop-back. -/
  | loop (depth echo : Nat)
  /-- R455. A host link flit is received, checked, acknowledged and its credits taken. -/
  | hostFlitReceive (x : HostFlit)
  /-- R455. An unacknowledged flit reaches 2.0 µs and is replayed. -/
  | hostReplayTimeout
  /-- R451. Cold training of the host link. `lanes` has a bit for each lane that passed. -/
  | hostLinkTraining (lanes : Nat)
  /-- R451. Training restarts 100 ms after fewer than 2 lanes pass. -/
  | trainingRetry
  /-- R452. Retrain with stored coefficients keeping replay buffers. -/
  | hostLinkRetrain (lanes : Nat)
  /-- R462. The adapter resets the link, discarding replay buffers. -/
  | adapterLinkReset
  /-- R454. Idle lanes lock and the host link returns to full width. -/
  | linkWideningDone
  /-- R370. A landing link flit is received, checked and acknowledged. `l` is the landing; `up`: the flit comes from it. -/
  | landingFlitReceive (l : Nat) (up : Bool) (x : LndFlit)
  /-- R370. An unacknowledged landing flit reaches 1.0 µs and is replayed. -/
  | landingReplayTimeout (l : Nat) (up : Bool)
  /-- R370. The landing link retrains after repeated replays. `lanes` pass training. -/
  | landingLinkRetrain (l lanes : Nat)
  /-- R371. A landing fails three retrains or reports a fatal error. `fatal`: the landing reports an internal fatal error. -/
  | landingLost (l : Nat) (fatal : Bool)
  /-- R375. The channel controller grants its bus and planes to the next class. `c` is the flash channel. -/
  | channelGrant (c : Nat)
  /-- R375. A class C operation waits 1 ms and is served next. `c` is the flash channel. -/
  | classCWaitExpiry (c : Nat)
  /-- R375. A class D operation waits 10 ms and is served next. -/
  | classDWaitExpiry (c : Nat)
  /-- R376. A program or erase is suspended for waiting reads. `d` is the die, channel × 8 + target; `p` its plane. -/
  | programSuspend (d p : Nat)
  /-- R376. After 500 µs of reads a suspended operation resumes. -/
  | suspendResume (d p : Nat)
  /-- R378. A page read completes and its sectors are moved out and decoded. `errs`: for each codeword of the page, the bits the first tier corrected, none where it fails. -/
  | flashReadDone (d p : Nat) (errs : List (Option Nat))
  /-- R432. A soft-decision re-read of the page completes and decoding is tried. `id` is the flash operation; `left` lists the codewords that still fail. -/
  | tier2Reread (id : Nat) (left : List Nat)
  /-- R433. The MDM reconstructs a codeword from parity or the mirror. `bad` lists the other positions of the row whose codeword fails; `ok`: the result passes the global check. -/
  | tier3Reconstruct (id : Nat) (bad : List Nat) (ok : Bool)
  /-- R388. A program pulse completes or fails and grains are released. -/
  | flashProgramDone (d p : Nat) (ok : Bool)
  /-- R388. An erase completes or fails and grains are released. -/
  | flashEraseDone (d : Nat) (ok : Bool)
  /-- R377. A prefetched unit leaves the read buffer after 2 ms. -/
  | readBufferExpiry (l : Nat)
  /-- R386. A group lacking probe reads for 7 days gets calibration reads. `g` is the calibration group. -/
  | calibrationIdleCheck (d g : Nat)
  /-- R390. At boot, OPEN blocks are scanned for NEXT and torn blocks marked. `fresh` lists (die, block) whose stopped program left the page reading as erased. -/
  | landingBootCheck (l : Nat) (fresh : List (Nat × Nat))
  /-- R380. PERIOD erases on a die name a moving block for the MDM to empty. -/
  | wearWindowAdvance (d : Nat)
  /-- R380. The emptied moving block moves onto the gap and the state is committed. -/
  | wearWindowCommit (d : Nat)
  /-- R395. Program anti-rollback bits in both authoritative OTP rows. `f0` and `f32` are the bits of each row that fail their verify first. -/
  | antirollAdvance (f0 f32 : Nat)
  /-- R410. Both copies of a landing-zone data page are programmed and journal records formed. `id` is the landing-zone page being written. -/
  | lzPageProgrammed (id : Nat)
  /-- R410. One landing-zone copy fails and its units are programmed again elsewhere. -/
  | lzCopyFail (id : Nat)
  /-- R412. A journal page starts programming within 50 µs of its first record. -/
  | journalPageStart
  /-- R410. A journal page is programmed and its units become durable. -/
  | journalPageDurable
  /-- R492. Every tail unit of a completed write is resolved and its record settles. -/
  | tallySettle (q cid : Nat)
  /-- R413. Journal volume or interval triggers a map checkpoint. -/
  | checkpointStart
  /-- R413. The verified checkpoint is named by a new map root. -/
  | mapRootWrite
  /-- R414. Load the checkpoint, replay the journal and close open superblocks. -/
  | mdmRecovery
  /-- R415. A spoiled map piece is reloaded from checkpoint and journal. `p` is the map piece; `ends`: its reload ends, else it begins. -/
  | mapPieceReload (p : Nat) (ends : Bool)
  /-- R409. A nailed span idle for FOLD_S is folded on a reclamation copy. -/
  | nailFold (vol span : Nat)
  /-- R409. The nail budget is exceeded and the least recent span is folded. -/
  | nailBudgetFold
  /-- R407. A list row incomplete for 10 ms is completed with void pages. -/
  | voidPageFill (id sb : Nat)
  /-- R416. Free superblocks fall below START and a victim is chosen. `k` is the die set. -/
  | reclaimStart (k : Nat)
  /-- R416. A full landing-zone superblock is destaged to 4-bit form. `sb` is the superblock. -/
  | lzDestage (sb : Nat)
  /-- R417. A destination row is read back, verified and journalled. `id` is the reclamation, `sb` its destination; `bad` lists the positions whose page does not decode at the first tier. -/
  | reclaimRowVerify (id sb : Nat) (bad : List Nat)
  /-- R417. An empty victim with durable journal is erased and freed. -/
  | victimErase (id : Nat)
  /-- R419. A destination program fails and the member is replaced before a redo. -/
  | rowProgramFail (id sb : Nat)
  /-- R420. A member block is copied to a loose block and the member table changed. `b` is the die's logical block. -/
  | memberSubstitution (d b : Nat)
  /-- R421. A die is lost or owned; its superblocks are marked evict. `lost`: the die has failed. -/
  | dieOutOfService (d : Nat) (lost : Bool)
  /-- R421. Reclaim superblocks with members on a die before it returns. -/
  | dieRebuild (d : Nat)
  /-- R425. Spare is exhausted and the module enters read-only retirement. -/
  | readOnlyEntry
  /-- R427. Erase every pool and non-retained system block. `bad` lists physical blocks whose erase fails. -/
  | sanitizePhase1 (d : Nat) (bad : List Nat)
  /-- R427. Move the retained set and erase its old blocks. -/
  | sanitizePhase2
  /-- R427. Per-die progress is recorded at least once a second. -/
  | sanitizeProgress
  /-- R428. The sanitize ends and commands are accepted again. -/
  | sanitizeEnd
  /-- R429. Each whole hour of AON time advances hour counts. -/
  | powerOnHour
  /-- R440. Vote a triplicated word and repair a single disagreeing copy. `bad` lists the copies that cannot be read. -/
  | criticalWordVote (w : Nat) (bad : List Nat)
  /-- R440. Write copies 0, 1 and 2 in turn with verify. `n` copies are written and verified before a reset can cut the write. -/
  | criticalWordWrite (w n : Nat)
  /-- R441. No two copies agree and the module halts. -/
  | voteSplit (w : Nat)
  /-- R445. An MDM timer scrub-reads flash, working memory or SRAM. -/
  | patrolScrub (store unit row word ecc : Nat)
  /-- R446. A corrected word is written back unless written meanwhile. -/
  | scrubWriteback (newer : Bool)
  /-- R442. A 24-hour window boundary restarts COUNT_24H. -/
  | errorLogWindow
  /-- R437. A failing SRAM row is copied to a spare. -/
  | sramRowRemap (ty addr : Nat)
  /-- R358. A failing DRAM row is copied to a spare row. -/
  | dramRowRemap (c row : Nat)
  /-- R361. A DRAM channel is lost; partitions reset and the map is rebuilt. -/
  | dramChannelLoss (c : Nat)
  /-- R350. A channel serves its next queued request by class and age. `c` is the channel; `ecc`: 0 clean, 1 corrected, 2 uncorrectable. -/
  | dramRequestServe (c ecc : Nat)
  /-- R350. A request waiting 2 µs is served next. -/
  | dramRequestAgeExpiry (c : Nat)
  /-- R496. A flight with its grant trains its lanes. `lanes`: bit n set when lane n passed; `rtt` in 10 ns units. -/
  | flightTraining (f lanes rtt : Nat)
  /-- R495. A flight peer's module ID is checked against the cabling rule. -/
  | hello (f peer : Nat)
  /-- R498. A flight flit is received, checked, acknowledged and credited. -/
  | flightFlitReceive (f : Nat) (x : FlightFlit)
  /-- R498. An unacknowledged flight flit is replayed. -/
  | flightReplayTimeout (f : Nat)
  /-- R498. A flight retrains after 8 replays of one flit. -/
  | flightRetrain (f : Nat) (ok : Bool)
  /-- R515. A flight is lost; traffic reroutes and caught requests get NACK LOST. -/
  | flightLost (f : Nat)
  /-- R504. A hall peer's global-flight states are received. `st`: for each global flight, its load plus 4 when up. -/
  | linkState (seat : Nat) (st : List Nat)
  /-- R504. LINK_STATE is sent every 100 µs without change. -/
  | linkStatePeriodic (loads : List Nat)
  /-- R500. A WAKE burst brings a low-power flight up. -/
  | flightWake (f : Nat)
  /-- R503. A router forwards, detours, misroutes, delivers or drops a packet. -/
  | packetForward
  /-- R510. The owner serves a READ with DATA or a NACK. -/
  | remoteReadServe
  /-- R510. The owner applies a masked WRITE and answers. -/
  | remoteWriteServe
  /-- R510. The owner applies an ADD through its memory-side adders. -/
  | remoteAddServe
  /-- R511. The target delivers a MAIL to a mailbox thread or holds it. -/
  | mailServe
  /-- R512. A held remote message enters an inbox as a slot frees. `c` is partition × 4 + context. -/
  | mailStoreMove (c : Nat)
  /-- R514. The root counts a member's arrival at a fabric barrier. -/
  | arrive
  /-- R514. The root answers every arrived member with NACK and advances the epoch. -/
  | barrierCancel
  /-- R514. A member receives RELEASE and releases its threads. -/
  | barrierRelease
  /-- R510. Response data of a remote read arrives at the issuer. -/
  | remoteData
  /-- R510. An ACK completes a remote operation and frees its credit. -/
  | remoteAck
  /-- R506. A NACK ends or schedules a resend of a remote operation. -/
  | nack
  /-- R506. A dropped or busy request is resent 5 µs later. `tag` is the response-store entry. -/
  | resendTimer (tag : Nat)
  /-- R508. A request gets no final response within REQ_MS. -/
  | requestTimeout (tag : Nat)
  /-- R514. A member's ARRIVE has no RELEASE within BAR_S. `n` is the barrier. -/
  | barrierTimeout (c n : Nat)
  /-- R514. BAR_S passes at the root since the first arrival of an epoch. -/
  | rootBarrierTimeout (c n : Nat)
  /-- R574. The 54 V input comes within limits and boot begins. `v` is the input voltage in 10 mV. -/
  | powerGoodAssert (v : Nat)
  /-- R575. The input falls out of limits and work stops. `v` is the input voltage in 10 mV. -/
  | powerGoodDeassert (v : Nat)
  /-- R523. The Warden boots from ROM to ready. -/
  | boot
  /-- R525. A trial boot passes 30 s without ready and the Warden resets. -/
  | trialReadyTimeout
  /-- R543. A management core gives no sign of life for 100 ms. -/
  | watchdogExpiry
  /-- R544. Restart every non-AON domain as a keeping or losing reset. `cause` is a code of Table: module reset causes. -/
  | moduleReset (cause : Nat)
  /-- R543. Uncorrectable Warden SRAM restarts the Warden from ROM. -/
  | wardenRomRestart
  /-- R582. RESET# held low starts and holds a module reset. -/
  | resetPin (low : Bool)
  /-- R582. TRST# low holds the test access port in reset. -/
  | trstPin (low : Bool)
  /-- R585. EMSTOP# held low starts or ends an emergency stop. -/
  | emstopPin (low : Bool)
  /-- R588. Inlet above 40 °C for 10 s sets COOLANT_HOT. -/
  | coolantHotCheck
  /-- R588. Outlet over inlet by 15 K for 10 s sets COOLANT_DT. -/
  | coolantDtCheck
  /-- R590. A flash sensor above 85 °C withholds pulses until below 80 °C. -/
  | flashHot
  /-- R589. A temperature sensor is sampled. `t` is the reading in 1/16 °C. -/
  | sensorSample (k : Nat) (t : BitVec 16)
  /-- R559. Boundary scan drives pins while in reset. `dev` is 0 for Idhel, 1 + l for landing l; `pins` what the pins carry, `cells` what is shifted in. -/
  | tapExtest (dev pins cells : Nat)
  /-- R559. Shift out a device IDCODE. -/
  | tapIdcode (dev : Nat)
  /-- R559. Sample and preload the boundary register. -/
  | tapSamplePreload (dev pins cells : Nat)
  /-- R559. Select the 1-bit bypass register. -/
  | tapBypass (dev : Nat)
  /-- R560. Compare the serial and open the debug gate. -/
  | dbgUnlock (v : BitVec 128)
  /-- R561. Debug-port CSR read ignoring expert gating. -/
  | dbgCsrRead (a : Word)
  /-- R561. Debug-port CSR write ignoring expert gating. `bad` is the outcome of a DRAM loop-back that it starts. -/
  | dbgCsrWrite (a v : Word) (bad : Nat)
  /-- R561. Debug-port OTP read returning the key unmasked. -/
  | dbgOtpRead (a : Word)
  /-- R561. Debug-port accumulator read under the DEBUG overlay. -/
  | dbgAccRead (a : Word)
  /-- R584. SMBus block read of identity fields. `a` is the 7-bit address of the transaction, `pec` whether its PEC is good. -/
  | smbInventory (a : Nat) (pec : Bool)
  /-- R584. SMBus read of module status bits. -/
  | smbStatus (a : Nat) (pec : Bool)
  /-- R584. SMBus read of input power. -/
  | smbPower (a : Nat) (pec : Bool)
  /-- R584. SMBus read of input voltage. -/
  | smbVoltage (a : Nat) (pec : Bool)
  /-- R584. SMBus read of the hottest junction. -/
  | smbHottest (a : Nat) (pec : Bool)
  /-- R584. SMBus select of a sensor. -/
  | smbSensorSel (a : Nat) (pec : Bool) (v : BitVec 8)
  /-- R584. SMBus read of the selected sensor. -/
  | smbSensor (a : Nat) (pec : Bool)
  /-- R584. SMBus read of DIU_VOTE_STAT. -/
  | smbVoteStat (a : Nat) (pec : Bool)
  /-- R584. SMBus clear of WDN_MGMT alert bits. -/
  | smbAlertClr (a : Nat) (pec : Bool) (v : BitVec 8)
  /-- R585. SMBus set or clear of the emergency stop. -/
  | smbEmstop (a : Nat) (pec : Bool) (v : BitVec 8)
  /-- R584. SMBus start of a module reset. -/
  | smbReset (a : Nat) (pec : Bool) (v : BitVec 8)
  /-- R583. The port answers the Alert Response Address. -/
  | smbAlertResponse
  /-- R131. The value of an LD from the atrium or work tier, or of a CSRR, arrives and the blocked thread becomes READY. -/
  | loadDataArrival (th : Thr)
  /-- R270. The selection engine finishes a SELT, TOPK or MERGE, writes its output and status word, unblocks the thread and takes the next queued instruction. -/
  | selectionComplete (g : Nat)
  /-- R198. The Probe Engine die side finishes a GWALK, writes its records and status word and unblocks the issuing thread. -/
  | walkComplete (th : Thr)
  /-- R500. A flight's CBL_PRES# changes, so the flight starts asking for its grains and trains, or stays off holding none. -/
  | cableDetect (f : Nat) (present : Bool)
  /-- R580. An overload on a flight connector's current-limited 3V3_CBL supply removes that supply from that connector alone. -/
  | cableSupplyOverload (f : Nat)
deriving DecidableEq, Repr

end Sys2Proof
end

