-- ==== Sys2Proof/Decode.lean ====
section
/-!
DEFINITION. Words and commands. The table of commands gives no row any bits, so no word spells a command; the module's own
instruction words (05 R124) are encoded and decoded here.
-/
namespace Sys2Proof

/-- The command that a word of the table's numbering spells: the table gives no row any bits (log 2). -/
def decodeTableWord (_nbits _w : Nat) : Option Instr := none

/-- The instruction word of an instruction and its fields (05 R124): OP [63:56], CLASS [55:52], G [51:49], GN [48],
MOD [47:44], body [43:0]. -/
def encodeWord (o : IsaOp) (f : Fields) : DWord :=
  o.op ++ o.cls ++ f.gd ++ (BitVec.ofBool f.gn) ++ f.mod ++ f.body

/-- The instruction that a class and an opcode name; none for a reserved class or an undefined opcode (05 R126). -/
def decodeOp (cls : BitVec 4) (op : BitVec 8) : Option IsaOp :=
  IsaOp.all.find? (fun o => o.cls == cls && o.op == op)

/-- The fields of an instruction word (05 R124). -/
def fieldsOf (w : DWord) : Fields :=
  { gd := w.extractLsb' 49 3, gn := w.getLsbD 48, mod := w.extractLsb' 44 4, body := w.extractLsb' 0 44 }

/-- An instruction word as its instruction and fields; none is ILLEGAL_OPCODE (05 R126). -/
def decodeWord (w : DWord) : Option (IsaOp × Fields) :=
  (decodeOp (w.extractLsb' 52 4) (w.extractLsb' 56 8)).map (fun o => (o, fieldsOf w))

/-- Fields of the formats of 05 R127 and 06 R165. -/
def Fields.d (f : Fields) : Nat := (f.body.extractLsb' 39 5).toNat
def Fields.a (f : Fields) : Nat := (f.body.extractLsb' 34 5).toNat
def Fields.b (f : Fields) : Nat := (f.body.extractLsb' 29 5).toNat
def Fields.c (f : Fields) : Nat := (f.body.extractLsb' 24 5).toNat
def Fields.e (f : Fields) : Nat := (f.body.extractLsb' 19 5).toNat
/-- PS of format X, bits [18:16]. -/
def Fields.psx (f : Fields) : Nat := (f.body.extractLsb' 16 3).toNat
def Fields.fn (f : Fields) : Nat := (f.body.extractLsb' 10 6).toNat
def Fields.f1 (f : Fields) : Nat := (f.body.extractLsb' 4 4).toNat
def Fields.f2 (f : Fields) : Nat := (f.body.extractLsb' 0 4).toNat
/-- Bits [9:8] of format X, reserved. -/
def Fields.rx (f : Fields) : Nat := (f.body.extractLsb' 8 2).toNat
/-- PS of format M, bits [33:31], and the reserved bits [30:29]. -/
def Fields.psm (f : Fields) : Nat := (f.body.extractLsb' 31 3).toNat
def Fields.rm (f : Fields) : Nat := (f.body.extractLsb' 29 2).toNat
/-- The low 29 bits, raw and as the signed OFF29. -/
def Fields.low29 (f : Fields) : BitVec 29 := f.body.extractLsb' 0 29
def Fields.off29 (f : Fields) : Int := f.low29.toInt
/-- IMM34, raw and sign-extended. -/
def Fields.imm34 (f : Fields) : BitVec 34 := f.body.extractLsb' 0 34
def Fields.imm (f : Fields) : DWord := f.imm34.signExtend 64
/-- OFF44, in words. -/
def Fields.off44 (f : Fields) : Int := f.body.toInt
/-- A bit of MOD. -/
def Fields.m (f : Fields) (i : Nat) : Bool := f.mod.getLsbD i

end Sys2Proof
end

