-- ==== Sys2Proof/Machine/Flags.lean ====
section
/-!
DEFINITION. Status words and status codes: how instructions report (05 R130; 06 R179, R186, R191, R197, R198; 09 R258; 18 R486,
R487) and the causes of faults (04 R117; 18 R485).
-/
namespace Sys2Proof.Machine

/-- A status word from its fields, each a value and the number of its lowest bit (05 R130). -/
def stWord (fs : List (Nat × Nat)) : DWord := BitVec.ofNat 64 (fs.foldl (fun a x => a + x.1 * 2 ^ x.2) 0)

/-- A Bool as a field's value. -/
def bit (b : Bool) : Nat := if b then 1 else 0

/-! Common status codes (18 R486). -/
def stOk : Nat := 0x00
def stPartial : Nat := 0x01
def stAbortCaught : Nat := 0x02
def stAbortMissed : Nat := 0x03
def stInvalidOpcode : Nat := 0x10
def stInvalidField : Nat := 0x11
def stNotPermitted : Nat := 0x12
def stBusy : Nat := 0x13
def stUncorrectable : Nat := 0x20
def stCapacity : Nat := 0x21
def stNotErased : Nat := 0x22
def stSanitize : Nat := 0x23
def stJobFault : Nat := 0x30
def stRefusedAdm : Nat := 0x31
def stLendTimeout : Nat := 0x32
def stHalted : Nat := 0x3F
/-! Command status codes (18 R487). -/
def stFwInvalid : Nat := 0x41
def stFwRollback : Nat := 0x42
def stFwJobs : Nat := 0x43
def stToken : Nat := 0x44
def stNoRecord : Nat := 0x45
def stQueueInUse : Nat := 0x46
def stObjectState : Nat := 0x63
def stContextState : Nat := 0x80
/-! Instruction-level status codes (05 R130). -/
def stPoolEmpty : Nat := 0x90
def stPageNotHeld : Nat := 0x91
def stUnreachable : Nat := 0x92
def stRemoteRefused : Nat := 0x93
def stTruncated : Nat := 0x94
def stSemAbandoned : Nat := 0x95

/-! Causes of program faults (04 R117) and job-level fault causes (18 R485). -/
def cIllegalOpcode : Nat := 0x01
def cIllegalOperand : Nat := 0x02
def cNullHandle : Nat := 0x03
def cBadHandle : Nat := 0x04
def cOutOfBounds : Nat := 0x05
def cAccessDenied : Nat := 0x06
def cIllegalTier : Nat := 0x07
def cMisaligned : Nat := 0x08
def cGroupIllegal : Nat := 0x09
def cCsrDenied : Nat := 0x0A
def cReturnStack : Nat := 0x0B
def cCancelled : Nat := 0x20
def cHostReset : Nat := 0x21
def cPartitionFault : Nat := 0x22
def cUncorrectable : Nat := 0x23
def cModuleReset : Nat := 0x24
def cWorkLost : Nat := 0x25

end Sys2Proof.Machine
end

