-- ==== Sys2Proof/Config.lean ====
section
/-!
DEFINITION. What an implementation fixes and the manual leaves open: uninterpreted constants with no body, so that
nothing can be proved about a value the manual does not state.
-/
namespace Sys2Proof

/-- A value the manual leaves open: `w` bits, fresh for each count `n` of `Hw.free` (log 8). -/
opaque Config.freeBits (w n : Nat) : BitVec w

/-- The contents of a byte the manual calls undefined: it depends on when it became undefined (`epoch`) and where it is
(04 R123, 04 R100; log 9). -/
opaque Config.undefByte (epoch offset : Nat) : Byte

/-- The contents of an undefined accumulator entry (08 R230; log 9). -/
opaque Config.undefWord (epoch row col : Nat) : Word

/-- Which of several results that the manual leaves unordered comes first (10 R275, 06 R194; log 10). -/
opaque Config.freeChoice (n candidates : Nat) : Nat

/-- Whether the ledger, which keeps tenths of a grain, holds the 0.35 grain of a scale stage at 450 MHz as 4 tenths rather
than 3: the manual does not say (02 R43; log 11). -/
opaque Config.scaleRoundsUp : Bool

/-- Whether a page of a wordline senses a read level: the manual names page types and does not tell them (14 R384; log 30). -/
opaque Config.senses (pageOfWordline level : Nat) : Bool

/-- The map piece that an entry of a volume lies in (15 R415; log 31). -/
opaque Config.mapPiece (volume entry : Nat) : Nat

/-- The check bytes of a 4 KiB codeword: 16 local bytes for each of its 16 sectors, then 256 global bytes, little-endian; the manual names
the code's family and rate, not its matrix (16 R431; log 37). -/
opaque Config.ldpcCheck (data : Nat) : Nat

/-- Whether an unprogrammed bit of an OTP row reads 1: the manual does not say (14 R394; log 45). -/
opaque Config.otpOnes : Bool

/-- What the factory wrote into this module: SERIAL, ATTEST_KEY, FW_KEY_HASH (14 R394), its attestation public key and Grithar's
endorsement of it (20 R536). -/
opaque Config.serial : BitVec 128
opaque Config.attestKey : BitVec 528
opaque Config.fwKeyHash : BitVec 512
opaque Config.deviceKey : BitVec 1064
opaque Config.endorsement : BitVec 1056

/-- The firmware the module is shipped with (log 46): SEC_VERSION, FW_VERSION, SIGN_KEY; and 4 KiB pages of a slot that nothing has
written. -/
opaque Config.shippedSec : BitVec 7
opaque Config.shippedVersion : BitVec 128
opaque Config.shippedKey : BitVec 1064
opaque Config.fwPage (slot page : Nat) : Nat

/-- The 8-byte header of a log in the ERRORS log: the manual says what it holds and not where (16 R443; log 49). -/
opaque Config.logHeader (used : Nat) (overflow : Bool) (total : Nat) : BitVec 64

/-- The fraction of a sanitize done, in units of 2⁻¹⁶: the manual does not weigh its phases (15 R430; log 50). -/
opaque Config.sanitizeDone (phase dies total : Nat) : BitVec 16

/-- SHA-512 of `len` bytes, ECDSA over P-521: verifying and signing. The manual names these standards; it does not define them (20 R519;
log 47). -/
opaque Config.sha512 (len data : Nat) : Nat
opaque Config.sigOk (key digest sig : Nat) : Bool
opaque Config.sign (key digest n : Nat) : Nat

/-- The SMBus address straps SMB_ADDR1 and SMB_ADDR0 (24 R583, R593). -/
opaque Config.smbStraps : BitVec 2

/-- Whether a dump or another debug register that the manual names without an address lies at a CSR address (22 R565; log 57). -/
opaque Config.dumpReg (address : Nat) : Bool

/-- The check bits of a SECDED (72,64) codeword: the manual names the code's parameters, not its matrix (16 R436, R444; log 58). -/
opaque Config.secded (data : BitVec 64) : BitVec 8

end Sys2Proof
end

