-- ==== Sys2Proof/Machine/Arith.lean ====
section
/-!
DEFINITION. Number formats and arithmetic rules (chapter 03): exact dyadic values, the one rounding mode (R71),
FP32 operations (R71, R75, R80), the element formats (R60, R61) and narrowing (R76).
-/
namespace Sys2Proof.Machine

/-- A value of a floating-point format: a NaN, a signed infinity, or the exact number ±m × 2^e (zero keeps its sign). -/
inductive FVal where
  | nan
  | inf (neg : Bool)
  | fin (neg : Bool) (m : Nat) (e : Int)
deriving DecidableEq, Repr

/-- `n / d` rounded to the nearest integer, ties to even (R71). -/
def rneDiv (n d : Nat) : Nat :=
  let q := n / d
  let r := n % d
  if 2 * r < d then q else if d < 2 * r then q + 1 else q + q % 2

/-- The exponent of the leading bit of `n / d`, both positive. -/
def qlog2 (n d : Nat) : Int :=
  let l : Int := (Nat.log2 n : Int) - (Nat.log2 d : Int)
  if n * 2 ^ (-l).toNat < d * 2 ^ l.toNat then l - 1 else l

/-- `n / d × 2^e` rounded to `p` significant bits, the last bit no finer than 2^lsb: `(m, q)` stands for m × 2^q (R71). -/
def roundTo (p : Nat) (lsb : Int) (n d : Nat) (e : Int) : Nat × Int :=
  if n = 0 then (0, lsb) else
  let q := max (qlog2 n d + e - ((p : Int) - 1)) lsb
  (rneDiv (n * 2 ^ (e - q).toNat) (d * 2 ^ (q - e).toNat), q)

/-- The FP32 pattern of ±m × 2^q with m at most 2^24 and q at least −149; past the largest finite it is an infinity. -/
def packF32 (neg : Bool) (m : Nat) (q : Int) : Word :=
  let sgn : Nat := if neg then 0x80000000 else 0
  let (m, q) := if 2 ^ 24 ≤ m then (m / 2, q + 1) else (m, q)
  if m < 2 ^ 23 then BitVec.ofNat 32 (sgn + m)
  else
    let b := (q + 150).toNat
    if 255 ≤ b then BitVec.ofNat 32 (sgn + 0x7F800000) else BitVec.ofNat 32 (sgn + b * 2 ^ 23 + (m - 2 ^ 23))

/-- ±n/d × 2^e rounded once to FP32 (R71). -/
def f32Round (neg : Bool) (n d : Nat) (e : Int) : Word :=
  let (m, q) := roundTo 24 (-149) n d e
  packF32 neg m q

/-- The canonical quiet NaN of FP32 (R75). -/
def f32NaN : Word := 0x7FC00000
/-- FP32 infinity of a sign. -/
def f32Inf (neg : Bool) : Word := if neg then 0xFF800000 else 0x7F800000
/-- FP32 1.0 (08 R234). -/
def f32One : Word := 0x3F800000

/-- The value of an FP32 pattern (R60). -/
def f32Val (w : Word) : FVal :=
  let neg := w.msb
  let ex : Nat := (w.toNat / 2 ^ 23) % 256
  let fr : Nat := w.toNat % 2 ^ 23
  if ex = 255 then (if fr = 0 then .inf neg else .nan)
  else if ex = 0 then .fin neg fr (-149) else .fin neg (fr + 2 ^ 23) ((ex : Int) - 150)

/-- A value rounded once to FP32; every NaN is the canonical one (R75). -/
def f32Of : FVal → Word
  | .nan => f32NaN
  | .inf s => f32Inf s
  | .fin s m e => f32Round s m 1 e

def f32IsNaN (w : Word) : Bool := match f32Val w with | .nan => true | _ => false
def f32IsInf (w : Word) : Bool := match f32Val w with | .inf _ => true | _ => false
/-- A zero of either sign (R77). -/
def f32IsZero (w : Word) : Bool := decide (w.toNat % 2 ^ 31 = 0)

/-- The sign of a value. -/
def FVal.neg : FVal → Bool
  | .nan => false
  | .inf s => s
  | .fin s _ _ => s

def FVal.negate : FVal → FVal
  | .nan => .nan
  | .inf s => .inf (!s)
  | .fin s m e => .fin (!s) m e

def FVal.isZero : FVal → Bool
  | .fin _ m _ => decide (m = 0)
  | _ => false

/-- The exact product; an infinity times zero is NaN (R75). -/
def FVal.mul : FVal → FVal → FVal
  | .nan, _ => .nan
  | _, .nan => .nan
  | .inf a, .inf b => .inf (a != b)
  | .inf a, .fin b m _ => if m = 0 then .nan else .inf (a != b)
  | .fin a m _, .inf b => if m = 0 then .nan else .inf (a != b)
  | .fin a m e, .fin b n f => .fin (a != b) (m * n) (e + f)

/-- The exact sum; infinities of opposite sign give NaN (R75). An exact zero sum is −0 only when both terms are −0. -/
def FVal.add : FVal → FVal → FVal
  | .nan, _ => .nan
  | _, .nan => .nan
  | .inf a, .inf b => if a = b then .inf a else .nan
  | .inf a, .fin _ _ _ => .inf a
  | .fin _ _ _, .inf b => .inf b
  | .fin a m e, .fin b n f =>
    let g := min e f
    let x : Int := (if a then -1 else 1) * ((m * 2 ^ (e - g).toNat : Nat) : Int)
    let y : Int := (if b then -1 else 1) * ((n * 2 ^ (f - g).toNat : Nat) : Int)
    let z := x + y
    if z = 0 then .fin (a && b) 0 g else .fin (decide (z < 0)) z.natAbs g

/-- The value times 2^k, exactly. -/
def FVal.scale (k : Int) : FVal → FVal
  | .fin s m e => .fin s m (e + k)
  | v => v

/-- The order of two values, NaN excluded; −0 equals +0 (R77). -/
def FVal.lt (a b : FVal) : Bool :=
  match a, b with
  | .nan, _ => false
  | _, .nan => false
  | .inf true, .inf true => false
  | .inf true, _ => true
  | .inf false, _ => false
  | .fin _ _ _, .inf s => !s
  | .fin a m e, .fin b n f =>
    let g := min e f
    let x : Int := (if a then -1 else 1) * ((m * 2 ^ (e - g).toNat : Nat) : Int)
    let y : Int := (if b then -1 else 1) * ((n * 2 ^ (f - g).toNat : Nat) : Int)
    decide (x < y)

/-- FP32 addition, multiplication and fused multiply-add, each rounded once (R71, R75, R80). -/
def f32Add (a b : Word) : Word := f32Of ((f32Val a).add (f32Val b))
def f32Neg (a : Word) : Word := f32Of (f32Val a).negate
def f32Sub (a b : Word) : Word := f32Of ((f32Val a).add (f32Val b).negate)
def f32Mul (a b : Word) : Word := f32Of ((f32Val a).mul (f32Val b))
def f32Fma (a b c : Word) : Word := f32Of (((f32Val a).mul (f32Val b)).add (f32Val c))

/-- FP32 division, rounded once; x ÷ 0 is an infinity and 0 ÷ 0 and ∞ ÷ ∞ are NaN (R75: IEEE 754). -/
def f32Div (a b : Word) : Word :=
  match f32Val a, f32Val b with
  | .nan, _ => f32NaN
  | _, .nan => f32NaN
  | .inf _, .inf _ => f32NaN
  | .inf s, .fin t _ _ => f32Inf (s != t)
  | .fin s _ _, .inf t => packF32 (s != t) 0 (-149)
  | .fin s m e, .fin t n f =>
    if n = 0 then (if m = 0 then f32NaN else f32Inf (s != t)) else f32Round (s != t) m n (e - f)

/-- `a < b`, `a = b`, `a ≤ b` of FP32 patterns; false with a NaN (R77, R78). -/
def f32Lt (a b : Word) : Bool := (f32Val a).lt (f32Val b)
def f32Eq (a b : Word) : Bool := !f32IsNaN a && !f32IsNaN b && !f32Lt a b && !f32Lt b a
def f32Le (a b : Word) : Bool := f32Lt a b || f32Eq a b

/-- Minimum and maximum under R78: the non-NaN operand, NaN when both are; of two zeros the first. -/
def f32Min (a b : Word) : Word :=
  if f32IsNaN a then (if f32IsNaN b then f32NaN else b) else if f32IsNaN b then a else if f32Lt b a then b else a
def f32Max (a b : Word) : Word :=
  if f32IsNaN a then (if f32IsNaN b then f32NaN else b) else if f32IsNaN b then a else if f32Lt a b then b else a

/-- The larger magnitude pattern with the sign cleared. -/
def f32Abs (a : Word) : Word := if f32IsNaN a then f32NaN else a &&& 0x7FFFFFFF

/-- An integer clamped to the INT32 range (R72, R80). -/
def clamp32 (x : Int) : Word := BitVec.ofInt 32 (max (-2147483648) (min 2147483647 x))
/-- An INT32 converted to FP32 (R71). -/
def f32OfInt (x : Int) : Word := f32Round (decide (x < 0)) x.natAbs 1 0
/-- A finite value rounded to an integer, ties to even (R71). -/
def roundInt (neg : Bool) (n d : Nat) (e : Int) : Int :=
  let r : Int := (rneDiv (n * 2 ^ e.toNat) (d * 2 ^ (-e).toNat) : Nat)
  if neg then -r else r
/-- CVTI (06 R183): FP32 to INT32, rounded, clamped; NaN gives 0. -/
def f32ToInt32 (w : Word) : Word :=
  match f32Val w with
  | .nan => 0
  | .inf s => if s then 0x80000000 else 0x7FFFFFFF
  | .fin s m e => clamp32 (roundInt s m 1 e)

/-- ±n/d × 2^e rounded once to BF16: the pattern, and whether a finite value became an infinity (R71, R76). -/
def bf16Round (neg : Bool) (n d : Nat) (e : Int) : BitVec 16 × Bool :=
  let (m, q) := roundTo 8 (-133) n d e
  let (m, q) := if 2 ^ 8 ≤ m then (m / 2, q + 1) else (m, q)
  let sgn : Nat := if neg then 0x8000 else 0
  if m < 2 ^ 7 then (BitVec.ofNat 16 (sgn + m), false)
  else
    let b := (q + 134).toNat
    if 255 ≤ b then (BitVec.ofNat 16 (sgn + 0x7F80), true) else (BitVec.ofNat 16 (sgn + b * 2 ^ 7 + (m - 2 ^ 7)), false)
/-- BF16 narrowing of an FP32 pattern (R76). -/
def bf16Of (w : Word) : BitVec 16 × Bool :=
  match f32Val w with
  | .nan => (0x7FC0, false)
  | .inf s => ((if s then 0xFF80 else 0x7F80), false)
  | .fin s m e => bf16Round s m 1 e
/-- BF16 widened to FP32, exactly (R60, R80). -/
def bf16Wide (b : BitVec 16) : Word := BitVec.ofNat 32 (b.toNat * 2 ^ 16)

/-- The element formats of R168. -/
inductive Fmt where
  | int8 | uint8 | int4 | mxint8 | e4m3 | e5m2 | e3m2 | e2m3 | e2m1 | bf16 | fp32 | int32
deriving DecidableEq, Repr

/-- Format codes (06 R168); 0xC to 0xF are reserved. -/
def fmtOf : Nat → Option Fmt
  | 0 => some .int8 | 1 => some .uint8 | 2 => some .int4 | 3 => some .mxint8 | 4 => some .e4m3 | 5 => some .e5m2
  | 6 => some .e3m2 | 7 => some .e2m3 | 8 => some .e2m1 | 9 => some .bf16 | 10 => some .fp32 | 11 => some .int32
  | _ => none

/-- Bits of one element in memory (R60, R61, R63). -/
def Fmt.bits : Fmt → Nat
  | .int8 | .uint8 | .mxint8 | .e4m3 | .e5m2 => 8
  | .e3m2 | .e2m3 => 6
  | .int4 | .e2m1 => 4
  | .bf16 => 16
  | .fp32 | .int32 => 32

/-- The MX element formats (R60, R61). -/
def Fmt.isMx : Fmt → Bool
  | .mxint8 | .e4m3 | .e5m2 | .e3m2 | .e2m3 | .e2m1 => true
  | _ => false

/-- Exponent bits, mantissa bits and bias of a small floating-point format (R60). -/
def Fmt.small : Fmt → Option (Nat × Nat × Int)
  | .e4m3 => some (4, 3, 7)
  | .e5m2 => some (5, 2, 15)
  | .e3m2 => some (3, 2, 3)
  | .e2m3 => some (2, 3, 1)
  | .e2m1 => some (2, 1, 1)
  | _ => none

/-- The largest finite element as m × 2^e (09 R248, R60). -/
def Fmt.elemMax : Fmt → Nat × Int
  | .e4m3 => (448, 0)
  | .e5m2 => (57344, 0)
  | .e3m2 => (28, 0)
  | .e2m3 => (15, -1)
  | .e2m1 => (6, 0)
  | .mxint8 => (127, -6)
  | _ => (0, 0)

/-- The value of an element code, before zero point and block scale (R60, R61, R69). -/
def elemVal (f : Fmt) (c : Nat) : FVal :=
  match f with
  | .int8 => let i := (BitVec.ofNat 8 c).toInt; .fin (decide (i < 0)) i.natAbs 0
  | .uint8 => .fin false (c % 256) 0
  | .int4 => let i := (BitVec.ofNat 4 c).toInt; .fin (decide (i < 0)) i.natAbs 0
  | .mxint8 => let i := (BitVec.ofNat 8 c).toInt; .fin (decide (i < 0)) i.natAbs (-6)
  | .bf16 => f32Val (bf16Wide (BitVec.ofNat 16 c))
  | .fp32 => f32Val (BitVec.ofNat 32 c)
  | .int32 => let i := (BitVec.ofNat 32 c).toInt; .fin (decide (i < 0)) i.natAbs 0
  | f =>
    match f.small with
    | none => .nan
    | some (eb, mb, bias) =>
      let fr := c % 2 ^ mb
      let ex := (c / 2 ^ mb) % 2 ^ eb
      let neg := decide ((c / 2 ^ (mb + eb)) % 2 = 1)
      if f = .e4m3 ∧ ex = 15 ∧ fr = 7 then .nan
      else if f = .e5m2 ∧ ex = 31 then (if fr = 0 then .inf neg else .nan)
      else if ex = 0 then .fin neg fr (1 - bias - mb) else .fin neg (fr + 2 ^ mb) ((ex : Int) - bias - mb)

/-- A narrowed element: its code, whether it was clamped, whether a NaN was zeroed (R76). -/
structure Narrow where
  code : Nat
  clamped : Bool := false
  nanZeroed : Bool := false
deriving DecidableEq, Repr

/-- ±m × 2^q as the code of a small float whose finite range holds it. -/
def packSmall (eb mb : Nat) (bias : Int) (neg : Bool) (m : Nat) (q : Int) : Nat :=
  let sgn := if neg then 2 ^ (eb + mb) else 0
  let (m, q) := if 2 ^ (mb + 1) ≤ m then (m / 2, q + 1) else (m, q)
  if m < 2 ^ mb then sgn + m else sgn + (q + bias + mb).toNat * 2 ^ mb + (m - 2 ^ mb)

/-- Clamp an integer to a range: the clamped value and whether the range limited it (R76). -/
def clampInt (lo hi x : Int) : Int × Bool := if x < lo then (lo, true) else if hi < x then (hi, true) else (x, false)

/-- Range of an integer target (R61). -/
def Fmt.intRange : Fmt → Option (Int × Int)
  | .int8 => some (-128, 127)
  | .uint8 => some (0, 255)
  | .int4 => some (-8, 7)
  | .int32 => some (-2147483648, 2147483647)
  | _ => none

/-- The exact value n/d × 2^e (or a special) converted to an element of target `f` (R76). `zp` is the zero point added
after rounding for the integer targets (R186, R233). -/
def narrowQ (f : Fmt) (zp : Int) (neg : Bool) (n d : Nat) (e : Int) : Narrow :=
  match f with
  | .bf16 => let (b, c) := bf16Round neg n d e; { code := b.toNat, clamped := c }
  | .fp32 => { code := (f32Round neg n d e).toNat }
  | .mxint8 =>
    let (r, c) := clampInt (-127) 127 (roundInt neg n d (e + 6))
    { code := (BitVec.ofInt 8 r).toNat, clamped := c }
  | f =>
    match f.intRange with
    | some (lo, hi) =>
      let (r, c) := clampInt lo hi (roundInt neg n d e + zp)
      { code := (BitVec.ofInt f.bits r).toNat, clamped := c }
    | none =>
      match f.small with
      | none => { code := 0 }
      | some (eb, mb, bias) =>
        let lsb : Int := 1 - bias - mb
        let (m, q) := roundTo (mb + 1) lsb n d e
        let (mm, me) := f.elemMax
        if mm * 2 ^ (me - lsb).toNat < m * 2 ^ (q - lsb).toNat then
          let (m', q') := roundTo (mb + 1) lsb mm 1 me
          { code := packSmall eb mb bias neg m' q', clamped := true }
        else { code := packSmall eb mb bias neg m q }

/-- Conversion of a value to a narrower format (R76). `zp` is the code of 0 of the integer targets. -/
def narrow (f : Fmt) (zp : Int) (v : FVal) : Narrow :=
  match v with
  | .fin s m e => narrowQ f zp s m 1 e
  | .nan =>
    match f with
    | .bf16 => { code := 0x7FC0 }
    | .fp32 => { code := 0x7FC00000 }
    | .e4m3 => { code := 0x7F }
    | .e5m2 => { code := 0x7F }
    | .int8 | .uint8 | .int4 => { code := (BitVec.ofInt f.bits zp).toNat, nanZeroed := true }
    | _ => { code := 0, nanZeroed := true }
  | .inf s =>
    match f with
    | .bf16 => { code := if s then 0xFF80 else 0x7F80 }
    | .fp32 => { code := (f32Inf s).toNat }
    | .e5m2 => { code := if s then 0xFC else 0x7C }
    | .mxint8 => { code := if s then 0x81 else 0x7F, clamped := true }
    | f =>
      match f.intRange with
      | some (lo, hi) => { code := (BitVec.ofInt f.bits (if s then lo else hi)).toNat, clamped := true }
      | none =>
        let (mm, me) := f.elemMax
        { narrowQ f 0 s mm 1 me with clamped := true }

/-- The NaN narrowing of E4M3 and E5M2 keeps the sign of the FP32 NaN pattern (R76). -/
def narrowW (f : Fmt) (zp : Int) (k : Int) (w : Word) : Narrow :=
  let r := narrow f zp ((f32Val w).scale (-k))
  if f32IsNaN w && (f = .e4m3 || f = .e5m2) then { r with code := r.code + (if w.msb then 128 else 0) } else r

/-- The exponent k of the MX block scale 2^k of 09 R248 for the FP32 elements of one block. -/
def mxScale (f : Fmt) (ws : List Word) : Int :=
  let vs := (ws.filter (fun w => !f32IsNaN w)).map (fun w => f32Val (f32Abs w))
  let a := vs.foldl (fun m v => if m.lt v then v else m) (.fin false 0 0)
  if a.isZero then -127 else
  let (mm, me) := f.elemMax
  let ok := fun (i : Nat) => !(FVal.fin false mm (me + ((i : Int) - 127))).lt a
  match (List.range 255).find? ok with
  | some i => (i : Int) - 127
  | none => 127

/-- |c − x| ≤ 2u for every x in [lo, hi] (all as multiples of 2^-s): the bound of 06 R184. -/
def within (c u lo hi : Int) : Bool := decide (c - 2 * u ≤ lo) && decide (hi ≤ c + 2 * u)

/-- The exponent of one unit in the last place of a finite FP32 value (06 R184). -/
def f32UlpExp (w : Word) : Int :=
  match f32Val w with
  | .fin _ _ e => e
  | _ => 104

/-- A finite FP32 value as an integer multiple of 2^-s (s at least 149). -/
def f32Fixed (s : Nat) (w : Word) : Int :=
  match f32Val w with
  | .fin n m e => (if n then -1 else 1) * ((m * 2 ^ (e + s).toNat : Nat) : Int)
  | _ => 0

/-- Whether candidate `c` is a finite FP32 value within 2 ulp of every x in [lo, hi] × 2^-s. -/
def ulpOk (s : Nat) (lo hi : Int) (r c : Word) : Bool :=
  match f32Val c with
  | .fin _ _ _ => within (f32Fixed s c) (2 ^ (f32UlpExp r + s).toNat) lo hi
  | _ => decide (c = r)

/-- RCP of 06 R184: within 2 ulp of 1 ÷ a, the value in that bound free. -/
def f32Rcp (a free : Word) : Word :=
  match f32Val a with
  | .nan => f32NaN
  | .inf s => packF32 s 0 (-149)
  | .fin s m e =>
    if m = 0 then f32Inf s else
    let r := f32Round s 1 m (-e)
    let x : Nat := 2 ^ ((300 : Int) - e).toNat
    let lo : Int := (if s then -1 else 1) * ((x / m : Nat) : Int)
    let hi : Int := (if s then -1 else 1) * (((x + m - 1) / m : Nat) : Int)
    if f32IsInf r then r else if ulpOk 300 (min lo hi) (max lo hi) r free then free else r

/-- The integer square root of `x` below 2^1280, by bits from the top. -/
def isqrt (x : Nat) : Nat :=
  (List.range 640).foldl (fun r i => let t := r + 2 ^ (639 - i); if t * t ≤ x then t else r) 0

/-- RSQRT of 06 R184: within 2 ulp of 1 ÷ √a, the value in that bound free. -/
def f32Rsqrt (a free : Word) : Word :=
  match f32Val a with
  | .nan => f32NaN
  | .inf s => if s then f32NaN else 0
  | .fin s m e =>
    if m = 0 then f32Inf s else if s then f32NaN else
    -- 1/√(m 2^e) × 2^300 = √(2^(600 − e) / m)
    let x : Nat := 2 ^ ((600 : Int) - e).toNat / m
    let lo := isqrt x
    let r := f32Round false lo 1 (-300)
    if ulpOk 300 lo (lo + 1) r free then free else r

/-- e^x for x = n × 2^-s in [0, 1), between the two results (scaled by 2^s): the Taylor sum to degree 40 and one tail term. -/
def expTaylor (s n : Nat) : Nat × Nat :=
  let go := (List.range 40).foldl
    (fun (acc : Nat × Nat × Nat × Nat) i =>
      let (lo, hi, tlo, thi) := acc
      let tlo' := tlo * n / 2 ^ s / (i + 1)
      let thi' := (thi * n + 2 ^ s - 1) / 2 ^ s / (i + 1) + 1
      (lo + tlo', hi + thi', tlo', thi'))
    (2 ^ s, 2 ^ s, 2 ^ s, 2 ^ s)
  (go.1, go.2.1 + 2 * go.2.2.2 + 2)

/-- e^(m × 2^e) for m × 2^e below 128, as bounds scaled by 2^300. -/
def expBounds (m : Nat) (e : Int) : Nat × Nat :=
  let n := m * 2 ^ (e + 293).toNat / 2 ^ (-(e + 293)).toNat
  let (lo, _) := expTaylor 300 n
  let (_, hi) := expTaylor 300 (n + 1)
  (List.range 7).foldl (fun (p : Nat × Nat) _ => (p.1 * p.1 / 2 ^ 300, p.2 * p.2 / 2 ^ 300 + 1)) (lo, hi)

/-- EXP of 06 R184: within 2 ulp of e^a, the value in that bound free. -/
def f32Exp (a free : Word) : Word :=
  match f32Val a with
  | .nan => f32NaN
  | .inf s => if s then 0 else f32Inf false
  | .fin s m e =>
    if !(FVal.fin false m e).lt (.fin false 120 0) then (if s then (if ulpOk 300 0 1 0 free then free else 0) else f32Inf false) else
    let (lo, hi) := expBounds m e
    let (lo, hi) := if s then (2 ^ 600 / hi, 2 ^ 600 / lo + 1) else (lo, hi)
    let r := f32Round false lo 1 (-300)
    if f32IsInf r then r else if ulpOk 300 lo hi r free then free else r

end Sys2Proof.Machine
end

