-- ==== Sys2Proof/Machine/Table.lean ====
section
/-!
DEFINITION. Sparse tables: the machine's numbered units (galleries, queues, dies, registers) as sorted lists of
(number, contents); a number that is not listed holds the unit's reset contents.
-/
namespace Sys2Proof.Machine

/-- A table from unit number to contents, its keys strictly rising. -/
abbrev Tbl (α : Type) := List (Nat × α)

/-- The contents listed for number `n`. -/
def tget {α : Type} : Tbl α → Nat → Option α
  | [], _ => none
  | (k, v) :: r, n => if n = k then some v else tget r n

/-- The contents of number `n`, `d` when it is not listed. -/
def tgetD {α : Type} (t : Tbl α) (n : Nat) (d : α) : α := (tget t n).getD d

/-- List `v` for number `n`, keeping the keys strictly rising. -/
def tput {α : Type} : Tbl α → Nat → α → Tbl α
  | [], n, v => [(n, v)]
  | (k, w) :: r, n, v => if n < k then (n, v) :: (k, w) :: r else if n = k then (n, v) :: r else (k, w) :: tput r n v

/-- Take number `n` off the list. -/
def tdel {α : Type} : Tbl α → Nat → Tbl α
  | [], _ => []
  | (k, v) :: r, n => if n = k then r else (k, v) :: tdel r n

/-- Change the contents of number `n` by `f`, starting from `d` when it is not listed. -/
def tmod {α : Type} (t : Tbl α) (n : Nat) (d : α) (f : α → α) : Tbl α := tput t n (f (tgetD t n d))

/-- The keys rise strictly: the canonical form of a table. -/
def tsorted {α : Type} : Tbl α → Bool
  | [] => true
  | [_] => true
  | (a, _) :: (b, v) :: r => decide (a < b) && tsorted ((b, v) :: r)

end Sys2Proof.Machine
end

