-- ==== Sys2Proof/Machine/StateIsa.lean ====
section
/-!
DEFINITION. The state of the galleries, their threads, the contexts and the partitions (chapters 04 to 10, 12, 13).
-/
namespace Sys2Proof.Machine

/-! ## Object contents (04 R91, R123; 13 R355) -/

/-- A range of bytes that became undefined: first offset, length, epoch of its undefined contents (log 9). -/
structure Rng where
  lo : Nat
  len : Nat
  epoch : Nat
deriving DecidableEq, Repr

/-- The destination of an LDA whose ticket is not yet returned (04 R100): which LDA (thread × 65536 + sequence number), its
bytes, the epoch of their undefined contents, and whether a store met them. -/
structure InFlight where
  id : Nat
  lo : Nat
  len : Nat
  epoch : Nat
  spoiled : Bool := false
deriving DecidableEq, Repr

/-- The contents of one object instance. A byte that `cells` does not list reads as `Rng` says when it lies in a range of
`undef`, else 0 in a ZERO object (04 R123), else undefined under `epoch`. `bad` lists the uncorrectable words
(13 R355; 8 bytes in a bay under 16 R436, 64 bytes in atrium and work). `flight` lists the destinations of LDAs whose
tickets are not yet returned (04 R100): the bytes read undefined. -/
structure ObjMem where
  zero : Bool := false
  epoch : Nat := 0
  cells : List Host.Cell := []
  undef : List Rng := []
  flight : List InFlight := []
  bad : List Nat := []
deriving DecidableEq, Repr

/-- An object-table entry (04 R91, R119), with its place in the context's share of its tier (13 R352). -/
structure Obj where
  handle : Nat
  tier : Nat
  r : Bool
  w : Bool
  x : Bool
  zero : Bool
  inp : Bool
  outp : Bool
  size : Nat
  bindId : Nat
  bindOff : Nat
  place : Nat := 0
deriving DecidableEq, Repr

/-! ## Threads (04 R82, R85) -/

/-- What a BLOCKED thread waits on (04 R85). -/
inductive Wait where
  /-- WAITA of a ticket (05 R148): sequence number and D. -/
  | ticket (seq d : Nat)
  /-- SEMA (05 R150): semaphore and D. -/
  | sem (n d : Nat)
  /-- RECV with an empty inbox (05 R158): bay address, byte limit, D. -/
  | recv (addr : DWord) (limit d : Nat)
  /-- BAR, arrived (05 R153): scope, barrier, D and the status of its FENCE (R154). -/
  | barrier (scope n d status : Nat)
  /-- FENCE, or the FENCE of a BAR (05 R154, R155). -/
  | fence (d : Nat) (bar : Option (Nat × Nat))
  /-- LD from the atrium or work tier (05 R131): address, MOD, D, PS. -/
  | load (addr : DWord) (mod d ps : Nat)
  /-- CSRR (05 R131): the value and D. -/
  | csr (value : DWord) (d : Nat)
  /-- TOPEN waiting for the lease (04 R105) or for its context to run (12 R327, R330): formats. -/
  | lease (fw fs : Nat)
  /-- LDA at an outstanding limit (04 R98): the instruction issues again. -/
  | ldaSlot
  /-- A posted operation without a slot (05 R159): the instruction issues again. -/
  | postSlot
  /-- A remote operation without a flight credit (05 R143): the instruction issues again. -/
  | credit
  /-- A local SEND to a full inbox (05 R157): the post it occupies. -/
  | inboxFull (post : Nat)
  /-- A tile instruction with the array queue full (06 R172): the instruction issues again. -/
  | arrayFull
  /-- TDRAIN (06 R201): D. -/
  | drain (d : Nat)
  /-- VSCALE with a committed bank waiting (06 R190): the instruction issues again. -/
  | vscale
  /-- PSCAN with two scans outstanding (06 R196): the instruction issues again. -/
  | scanSlot
  /-- PCOLLECT (06 R197): ticket sequence number and D. -/
  | scan (seq d : Nat)
  /-- SELT, TOPK or MERGE (10 R270). -/
  | select
  /-- GWALK (06 R198). -/
  | walk
  /-- HALT draining (05 R138). -/
  | halt
deriving DecidableEq, Repr

/-- Thread states of 04 R85; HELD is derived from the running context (04 R88). -/
inductive TState where
  | free
  | ready
  | blocked (w : Wait)
  | halted
deriving DecidableEq, Repr

/-- An outstanding LDA (04 R97 to R101): its ticket number, addresses and size; `done` is its status once complete and
`data` its bytes, little-endian; `units` the units of a volume that have arrived, `bad` that one could not be read. -/
structure Lda where
  seq : Nat
  src : DWord
  dst : DWord
  size : Nat
  done : Option Nat := none
  data : Nat := 0
  units : Tbl Nat := []
  bad : Bool := false
deriving DecidableEq, Repr

/-- A message of an inbox (05 R157, R158). -/
structure Msg where
  len : Nat
  data : Nat
  remote : Bool
  sg : Nat
  st : Nat
  srcModule : Nat
deriving DecidableEq, Repr

/-- The architectural registers and the state of one thread (04 R82). Scalars, predicates, vectors and tile registers not
listed hold 0 (04 R122). `branchFrom` is the PC of the branch whose target is not yet fetched (05 R137). -/
structure Thread where
  st : TState := .free
  s : Tbl DWord := []
  p : Tbl (BitVec 128) := []
  v : Tbl (BitVec 4096) := []
  t : Tbl (BitVec 256) := []
  code : Nat := 0
  pc : Nat := 0
  stack : List DWord := []
  branchFrom : Option Nat := none
  notBefore : Nat := 0
  lda : List Lda := []
  ldaSeq : Nat := 0
  scanSeq : Nat := 0
  failure : Option Nat := none
  inbox : List Msg := []
deriving DecidableEq, Repr

/-! ## Galleries (chapters 06 to 10) -/

/-- One column of a stationary set: element codes, MX scale bytes, zero point (06 R174, 07 R204). -/
structure StatCol where
  elems : List Nat
  scales : List Nat
  zp : Int
deriving DecidableEq, Repr

/-- A stationary set by logical column; a column not listed holds operand 0 (06 R174). `fmt` is the format of the last load,
none when the set holds zeros (06 R181); `undef` when its contents are lost (07 R212). -/
structure StatSet where
  fmt : Option Nat := none
  cols : Tbl StatCol := []
  witness : Option (Nat × StatCol) := none
  undef : Bool := false
deriving DecidableEq, Repr

/-- A recorded TLOAD (04 R89): its descriptor and, with ZPV, the zero-point lanes (log 21). -/
structure TloadRec where
  desc : BitVec 256
  zps : Option (List Nat)
deriving DecidableEq, Repr

/-- Tile instructions in the array queue (06 R172). -/
inductive ArrKind where
  | loadStall | loadShadow | swap | stream | streamT | drain
deriving DecidableEq, Repr

/-- An entry of the array queue: the descriptor it was issued with, ZPV lanes, first accumulator row, .add, the .mxs address,
the status register, the next row to enter, whether it is in progress and since which cycle. -/
structure ArrOp where
  kind : ArrKind
  desc : BitVec 256 := 0
  zps : Option (List Nat) := none
  base : Nat := 0
  add : Bool := false
  mxs : Option DWord := none
  d : Nat := 0
  next : Nat := 0
  started : Bool := false
  since : Nat := 0
deriving DecidableEq, Repr

/-- The loader (07 R204, R209): the load it runs, its context and thread, the set it writes, the cycle of its start, its extra setup
cycles (07 R211). A shadow load may outlast its group (07 R208). -/
structure LoadRun where
  op : ArrOp
  ctx : Nat
  thr : Nat
  set : Nat
  since : Nat
  extra : Nat
  stall : Bool
deriving DecidableEq, Repr

/-- A weight row in the pipeline (07 R205): the column sums it forms, where they land, whether a NaN was met, whether an
FP32 sum of finite operands inside a column sum became an infinity (03 R74), the logical column the witness of its set held (07 R219), and
the cycle of its entry (for BF16 the fourth). -/
structure PipeRow where
  accRow : Nat
  sums : BitVec 4096
  add : Bool
  nan : Bool
  inf : Bool := false
  wit : Option Nat := none
  entered : Nat
deriving DecidableEq, Repr

/-- A weight row waiting in the stream FIFO (07 R204): its number in the tile, its elements and scales, whether it was uncorrectable. -/
structure FifoRow where
  row : Nat
  elems : List Nat
  scales : List Nat
  bad : Bool
deriving DecidableEq, Repr

/-- An open accumulation group (04 R105, R108): holder, formats, the registers recorded at TOPEN, its local flags (03 R74). -/
structure Group where
  holder : Nat
  fw : Nat
  fs : Nat
  code : Nat
  pc : Nat
  s : Tbl DWord
  p : Tbl (BitVec 128)
  t : Tbl (BitVec 256)
  stack : List DWord
  v : Tbl (BitVec 4096) := []
  active : Nat
  rec0 : Option TloadRec
  rec1 : Option TloadRec
  sat : Bool := false
  inf : Bool := false
  nan : Bool := false
  drainIssued : Bool := false
deriving DecidableEq, Repr

/-- A scale bank (06 R190): entries not listed hold SCALE 1.0, OFFSET +0, ZERO_POINT 0 (08 R234). -/
structure Bank where
  scale : Tbl Word := []
  off : Tbl Word := []
  zp : Tbl (BitVec 8) := []
  ver : Nat := 0
  slot : Nat := 0
deriving DecidableEq, Repr

/-- Histogram counters in the layout of 09 R251 (a step histogram of 09 R254). -/
structure Hist where
  total : Nat := 0
  nan : Nat := 0
  zero : Nat := 0
  neg : Nat := 0
  under : Nat := 0
  above : Nat := 0
  mn : Word := 0x7F800000
  mx : Word := 0xFF800000
  bins : Tbl Nat := []
  saturated : Bool := false
deriving DecidableEq, Repr

/-- A calibration slot (09 R254, R265). Columns not listed in `m`, `lo`, `hi`, `b` hold their start values. -/
structure Slot where
  cfg : Word := 0x00402220
  ver : Nat := 0
  seeded : Bool := false
  adapts : Nat := 0
  startAdapts : Nat := 0
  hist : Hist := {}
  cmin : Tbl Word := []
  cmax : Tbl Word := []
  observed : Bool := false
  narrowed : Nat := 0
  clamped : Nat := 0
  m : Tbl Word := []
  lo : Tbl Word := []
  hi : Tbl Word := []
  b : Tbl Word := []
  satFrac : Nat := 0
  noobs : Bool := false
  degenerate : Bool := false
  rerun : Bool := false
  degen : BitVec 128 := 0
deriving DecidableEq, Repr

/-- The scale stage's share of one context (06 R190, 09 R254, R265). -/
structure VsuCtx where
  active : Bank := {}
  pend : Bank := {}
  waiting : Bool := false
  sel : Word := 0
  slots : Tbl Slot := []
deriving DecidableEq, Repr

/-- The selection instructions (06 R192 to R194). -/
inductive SelKind where
  | selt | topk | merge
deriving DecidableEq, Repr

/-- A selection instruction in the engine (10 R270): its thread, modifier and operand values; the lists it reads (address and
record count) and whether its list table was uncorrectable; the bytes of its ranges at issue (10 R269); whether it is paused. -/
structure SelJob where
  kind : SelKind
  thr : Nat
  ctx : Nat
  flag : Bool
  param : DWord
  output : DWord
  cap : Nat
  d : Nat
  lists : List (DWord × Nat)
  tableBad : Bool := false
  before : List Nat := []
  paused : Bool := false
deriving DecidableEq, Repr

/-- The effect a posted operation still has to bring about (05 R143, R156, R159). -/
inductive PostKind where
  /-- MADD: context, address, FP32, and (byte offset from the address, addend) of every element. -/
  | madd (ctx : Nat) (addr : DWord) (fp : Bool) (adds : List (Nat × Word))
  /-- A remote operation with its response-store tag (19 R506). -/
  | remote (tag : Nat)
  /-- A local SEND: logical target gallery resolved to a physical one, thread number, message. -/
  | send (g t : Nat) (m : Msg)
deriving DecidableEq, Repr

/-- An occupied posted-operation slot (05 R159): `arrived` when its effect has happened or it was refused or discarded,
`status` its failure. -/
structure Post where
  id : Nat
  thr : Nat
  kind : PostKind
  arrived : Bool := false
  status : Nat := 0
deriving DecidableEq, Repr

/-- One gallery: sequencer, array, scale stage, selection engine and its registers (07 R204, R227; 08 R245; 09 R265). `actOf` is the
active-set designation of each context (06 R174, R180), `recs` its recorded TLOADs (04 R89). -/
structure Gallery where
  cycle : Nat := 0
  last : Nat := 63
  latch : Option (Nat × (Option DWord)) := none
  latchFault : Nat := 0
  thr : Tbl Thread := []
  group : Option Group := none
  leaseWait : List Nat := []
  queue : List ArrOp := []
  loader : Option LoadRun := none
  pipe : List PipeRow := []
  lastEntry : Nat := 0
  lastRead : Tbl Nat := []
  portFree : Nat := 0
  fifo : List FifoRow := []
  set0 : StatSet := {}
  set1 : StatSet := {}
  active : Nat := 0
  actOf : Tbl Nat := []
  recs : Tbl TloadRec := []
  acc : Tbl (BitVec 4096) := []
  accZero : Bool := false
  accEpoch : Nat := 0
  sat : Bool := false
  inf : Bool := false
  nan : Bool := false
  colFault : Bool := false
  stalled : Bool := false
  bypass : BitVec 128 := 0
  bypassAct : BitVec 128 := 0
  wdis : Bool := false
  lastCol : Nat := 0
  transients : Nat := 0
  witCount : Nat := 0
  mismatches : Tbl Nat := []
  mismatch : Option Nat := none
  partFault : Bool := false
  perfRows : Nat := 0
  perfBusy : Nat := 0
  perfStream : Nat := 0
  perfRevoke : Nat := 0
  stNanz : Nat := 0
  accAuto : Bool := true
  accRow8 : Nat := 0
  accCorrected : Nat := 0
  accUncorr : Bool := false
  accLastRow : Nat := 0
  drainRows : Nat := 0
  warmup : Nat := 8
  vsu : Tbl VsuCtx := []
  sel : List SelJob := []
  post : List Post := []
  postNext : Nat := 0
deriving DecidableEq, Repr

/-- A gallery that a convoy serves (07 R214, R215, R217): its rows end before `upto`; `todo` lists the rows it missed (first, one
past the last), to be caught up afterwards; a detached member misses the rows from `missed` on. -/
structure Member where
  g : Nat
  upto : Nat
  todo : List (Nat × Nat)
  missed : Option Nat
deriving DecidableEq, Repr

/-- A convoy (07 R214): its key's descriptor, stationary format and context, its next row, its members and its formation order. -/
structure Convoy where
  desc : BitVec 256
  fs : Nat
  ctx : Nat
  transposed : Bool
  next : Nat
  order : Nat
  members : List Member
deriving DecidableEq, Repr

/-- One wing: sleep state and the wing registers (02 R39, 07 R214 to R223, R227). -/
structure Wing where
  sleep : Nat := 0
  since : Nat := 0
  waking : Bool := false
  convoys : List Convoy := []
  convoyNext : Nat := 0
  lastConvoy : Nat := 0
  joinEn : Bool := true
  burst : Nat := 2
  retire : Bool := false
  restore : Bool := false
  retired : Bool := false
deriving DecidableEq, Repr

/-! ## Jobs and partitions (chapter 12) -/

/-- A partition descriptor (12 R317). `vols` lists the VOLUMES entries: VOLUME_ID and RIGHTS. -/
structure PartDesc where
  wings : BitVec 12 := 0
  overlay : Nat := 0
  valid : Bool := false
  work : Nat := 0
  atrium : Nat := 0
  vols : List (Nat × Nat) := []
deriving DecidableEq, Repr

/-- An overlay in effect: TYPE (20 R531; 0 for the base configuration alone) and its keys with their values (20 R532). -/
structure Overlay where
  ty : Nat := 0
  keys : List (Nat × Nat) := []
deriving DecidableEq, Repr

/-- Context states (12 R322). -/
inductive CtxSt where
  | free | loaded | queued | running | preempted | resetting
deriving DecidableEq, Repr

/-- A manifest entry point (04 R120). -/
structure Entry where
  handle : Nat
  first : Nat
  count : Nat
  off : Nat
deriving DecidableEq, Repr

/-- A fault record (04 R117): cause, logical gallery, thread index, PC. -/
structure FaultRec where
  cause : Nat
  gallery : Nat
  thread : Nat
  pc : Nat
deriving DecidableEq, Repr

/-- What a JOB_SUBMIT asked for (18 R483): its command, restart limit, progress record, and its order (12 R325). -/
structure Submit where
  cmd : Nat
  restartLimit : Nat
  progHandle : Nat
  progOff : Nat
  order : Nat
deriving DecidableEq, Repr

/-- One context (12 R322, R341) with its manifest (04 R118 to R120) and its incarnation's geometry (04 R113). -/
structure Context where
  st : CtxSt := .free
  cls : Nat := 0
  first : Nat := 0
  threads : Nat := 0
  needsTrain : Bool := false
  needsDebug : Bool := false
  minGal : Nat := 0
  sems : Nat := 0
  bayBase : Nat := 0
  bayBytes : Nat := 0
  atrBase : Nat := 0
  atrBytes : Nat := 0
  workBytes : Nat := 0
  frames : List Nat := []
  poolPages : Nat := 0
  poolPageBytes : Nat := 0
  credits : Nat := 0
  objs : List Obj := []
  entries : List Entry := []
  submit : Option Submit := none
  restarts : Nat := 0
  started : Bool := false
  ranBefore : Bool := false
  incarnation : Nat := 0
  poolFree : List Nat := []
  poolPend : List Nat := []
  fault : Option FaultRec := none
  cancel : Option (Nat × Bool) := none
  stopped : Bool := false
  lends : Nat := 0
  timeouts : Nat := 0
  /-- Barrier number to the epoch of its fabric barrier (19 R513). -/
  epochs : Tbl Nat := []
  /-- Fabric barriers whose ARRIVE was sent and when (19 R514). -/
  arrived : Tbl Nat := []
  /-- MAIL held for this context: mailbox and message (19 R512). -/
  mailStore : List (Nat × Msg) := []
deriving DecidableEq, Repr

/-- A semaphore (05 R149): owner gallery and thread, its queue (gallery, thread, class) in order, the abandoned mark. -/
structure Sem where
  owner : Option (Nat × Nat) := none
  queue : List (Nat × Nat × Nat) := []
  abandoned : Bool := false
deriving DecidableEq, Repr

/-- A lend in progress (12 R330): owner context, gallery, the owner thread's semaphores' waiter class, start time, its limit. -/
structure Lend where
  ctx : Nat
  g : Nat
  t : Nat
  cls : Nat
  since : Nat
  limit : Nat
deriving DecidableEq, Repr

/-- A pre-emption in progress (12 R327): the incoming context, GROUP_LIMIT at the decision, and per gallery the cycles counted. -/
structure Switch where
  incoming : Nat
  limit : Nat
  counted : Tbl Nat
deriving DecidableEq, Repr

/-- A partition reset in progress (12 R336): the last step done and its cause (0 host, 1 fault, 2 module reset, 3 channel loss). -/
structure Resetting where
  stepDone : Nat
  cause : Nat
  again : Option Nat := none
deriving DecidableEq, Repr

/-- One partition (12 R317 to R341). -/
structure Partition where
  stored : PartDesc := {}
  inEff : PartDesc := {}
  ovl : Overlay := {}
  atrBase : Nat := 0
  resetting : Option Resetting := none
  running : Option Nat := none
  switch : Option Switch := none
  schedDue : Bool := false
  sems : Tbl Sem := []
  lends : List Lend := []
  preempts : Nat := 0
  abandons : Nat := 0
  submits : Nat := 0
deriving DecidableEq, Repr

end Sys2Proof.Machine
end

