-- ==== Sys2Proof/Machine/StateBoot.lean ====
section
/-!
DEFINITION. The state of boot, firmware and overlays (chapter 20), of the reset record (21 R553) and of the debug access port (22 R559 to
R561).
-/
namespace Sys2Proof.Machine

/-- A firmware slot (20 R521): whether it still holds the image it was shipped with (log 46), the 4 KiB pages written since, and the chunk
map. -/
structure FwSlot where
  shipped : Bool := false
  data : Tbl Nat := []
  map : List Nat := []
deriving DecidableEq, Repr

/-- The boot record (20 R522): GEN, BOOT_SLOT, STATE_A, STATE_B (0 EMPTY, 1 VALID, 2 TRIAL, 3 FAILED), TRIALS, MODULE_OVERLAY, FAIL_CAUSE,
DIGEST_A, DIGEST_B. -/
structure BootRec where
  gen : Nat := 0
  slot : Nat := 0
  stA : Nat := 1
  stB : Nat := 0
  trials : Nat := 0
  ovl : Nat := 0xFF
  fail : Nat := 0
  digA : Nat := 0
  digB : Nat := 0
deriving DecidableEq, Repr

/-- A stored overlay image (20 R530): its bytes, little-endian, and how many. -/
structure OvImage where
  len : Nat
  data : Nat
deriving DecidableEq, Repr

/-- Boot and firmware (20 R519 to R538): the slots, the boot record, one being written with its command, the step of R523 reached (15 in
ROM service), the running slot, whether it is on trial and since when, whether a trial has failed since the last success, the overlay slots,
MODULE_OVERLAY and its copy in effect, the anti-rollback count in effect and the one a trial's success asks for, a FW_COMMIT with ACTION 1
that waits for its trial's end, a module reset that a command asks for; partitions still to be reset at boot; the reset record of R553, the
resets whose event waits for ready, whether this boot follows a module reset, whether RESET# is low; when an emergency stop began. -/
structure Boot where
  slotA : FwSlot := { shipped := true }
  slotB : FwSlot := {}
  rec0 : BootRec := {}
  newRec : Option BootRec := none
  stage : Nat := 0
  run : Nat := 0
  trial : Bool := false
  trialFrom : Option Nat := none
  fallback : Bool := false
  overlays : Tbl OvImage := []
  modOverlay : Nat := 0xFF
  modCopy : Overlay := {}
  anti : Nat := 0
  antiTarget : Nat := 0
  commit : Option Nat := none
  resetDue : Option Nat := none
  partDue : List Nat := []
  resets : Nat := 0
  cause : Nat := 0
  losing : Bool := false
  told : List Nat := []
  again : Bool := false
  pinLow : Bool := false
  stopSince : Option Nat := none
deriving DecidableEq, Repr

/-- The test access port and the debug gate (22 R559 to R561; 24 R581, R582): whether TRST# is low, the instruction register of each device
(0 Idhel, 1 + l landing l), what the last capture shifted out, the boundary cells preloaded and whether they drive the pins; the gate,
whether it has been open since reset, until when DBG_UNLOCK is ignored; the address whose block a CSR
access wakes (02 R26); DATA and ERR of the last access. -/
structure Debug where
  trst : Bool := false
  ir : Tbl Nat := []
  out : Nat := 0
  boundary : Tbl Nat := []
  driving : List Nat := []
  gate : Bool := false
  opened : Bool := false
  lockUntil : Nat := 0
  wake : Option Nat := none
  data : Word := 0
  err : Bool := false
deriving DecidableEq, Repr

end Sys2Proof.Machine
end

