-- ==== Sys2Proof/Machine/StateDiu.lean ====
section
/-!
DEFINITION. The state of the Data Integrity Unit (chapter 16).
-/
namespace Sys2Proof.Machine

/-- An entry of a correctable-error log (16 R442). -/
structure LogEnt where
  addr : Nat
  first : Nat
  count : Nat
  c24 : Nat
  remapped : Bool := false
  uncorr : Bool := false
deriving DecidableEq, Repr

/-- One unit type's log: at most 32 entries, the OVERFLOW bit, the total (16 R442, R443). -/
structure ErrLog where
  ents : List LogEnt := []
  overflow : Bool := false
  total : Nat := 0
deriving DecidableEq, Repr

/-- The Data Integrity Unit (16 R447). `logs` is by unit type; `remaps` gives the remapped SRAM rows by unit (gallery × 4 + bank group,
or 384 + atrium slice); `due` the SRAM rows to be
remapped (unit type, ADDRESS) and `wb` the scrub write-backs under way (store, unit, row); `window` the 24-hour window; `windows` the
stored codewords of the checker's test windows (16 R444), 64 data bits and check bits. -/
structure Diu where
  logs : Tbl ErrLog := []
  evt : Nat := 0
  refreshT2 : Nat := 64
  retireT2 : Nat := 1024
  sramThresh : Nat := 2
  corrected : Nat := 0
  word : Nat := 0
  due : List (Nat × Nat) := []
  wb : List (Nat × Nat × Nat) := []
  window : Nat := 0
  remaps : Tbl (List Nat) := []
  chkCtl : Nat := 0
  chkLo : Nat := 0
  chkHi : Nat := 0
  chkEcc : Nat := 0
  chkSyn : Nat := 0
  windows : Tbl (Nat × Nat) := []
deriving DecidableEq, Repr

end Sys2Proof.Machine
end

