-- ==== Sys2Proof/Machine/StateFabric.lean ====
section
/-!
DEFINITION. The state of the flight fabric (chapter 19) and of working memory's channels (chapter 13).
-/
namespace Sys2Proof.Machine

/-! ## Flights and packets -/

/-- A flight (19 R496 to R500, R518). STATE: 0 off, 1 training, 2 up, 3 low power, 4 lost. `replay` holds the packets with flits not
yet acknowledged, each with its last SEQ; `used` counts the flits of credit in use by class × 4 + channel; `loopAt` since when a loop-back waits to be
entered (22 R556). -/
structure Flight where
  state : Nat := 0
  width : Nat := 0
  peer : Nat := 0x3FFF
  rtt : Nat := 0
  cable : Bool := false
  supply : Bool := true
  mute : Bool := false
  disable : Bool := false
  loop : Nat := 0
  loopAt : Option Nat := none
  replays : Nat := 0
  retrains : Nat := 0
  fec : Nat := 0
  rxNext : Nat := 0
  dropping : Bool := false
  txNext : Nat := 0
  replay : List (Nat × Packet) := []
  replayRun : Nat := 0
  retrainFails : Nat := 0
  used : Tbl Nat := []
deriving DecidableEq, Repr

/-- What a request of the response store is for (19 R507). -/
inductive ReqKind where
  /-- An LDA of a thread: its sequence number. -/
  | load (th : Thr) (seq : Nat)
  /-- A posted ST or RADD: the gallery's post number. -/
  | post (g id : Nat)
  /-- A remote SEND: the gallery's post number and the sending thread. -/
  | mail (th : Thr) (id : Nat)
  /-- An ARRIVE of a fabric barrier. -/
  | arrive (n : Nat)
  | cancel (n : Nat)
deriving DecidableEq, Repr

/-- An entry of the response store (19 R507, R508): its context, the flight whose credit it holds (none while it waits for one), its
request, drops so far, when it is to be sent again and whether that is after a drop, whether the last answer was BUSY, when it was issued,
the response data received, and whether it waits behind an earlier MAIL (R512). -/
structure Req where
  tag : Nat
  ctx : Nat
  kind : ReqKind
  pkt : Packet
  flight : Option Nat := none
  drops : Nat := 0
  resend : Option Nat := none
  dropped : Bool := false
  busy : Bool := false
  since : Nat
  got : Nat := 0
  data : Nat := 0
  queued : Bool := false
deriving DecidableEq, Repr

/-- A fabric barrier at its root (19 R514): members arrived for the current epoch and for the next with the time of the first, and the members
whose threads have all halted. -/
structure Root where
  cur : List Nat := []
  next : List Nat := []
  curSince : Option Nat := none
  nextSince : Option Nat := none
  halted : List Nat := []
  tags : Tbl Nat := []
deriving DecidableEq, Repr

/-- The Flight Fabric Unit (19 R518). `hall` gives the last LINK_STATE of each hall peer: by seat, by global flight − 32, the load
plus 4 when up. `turns` gives the input flight last served, by output flight × 16 + class × 4 + channel (R505). `roots` is by context × 16 +
barrier. -/
structure Ffu where
  id : Nat := 0x3FFF
  flights : Tbl Flight := []
  groute : Tbl Word := []
  misLimit : Nat := 1
  adaptive : Bool := true
  awake : Bool := true
  remoteEn : Bool := true
  reqMs : Nat := 10
  barS : Nat := 10
  evt : Nat := 0
  resends : Nat := 0
  hall : Tbl (Tbl Nat) := []
  linkSent : Nat := 0
  linkDue : Bool := false
  reqs : List Req := []
  wait : List Packet := []
  turns : Tbl Nat := []
  roots : Tbl Root := []
deriving DecidableEq, Repr

/-! ## Working memory (13 R347 to R363) -/

/-- A request queued at a DRAM channel (13 R350): class 1 MDM and firmware, 2 stream prefetch, 3 LD, LDA, ST, drains, adds and transfers,
4 scrub; the thread whose LD it serves; the contents it reads or writes and its 64-byte word; the 4 KiB row within the channel. -/
structure DramReq where
  cls : Nat
  write : Bool
  since : Nat
  thr : Option Thr
  key : Nat
  word : Nat
  row : Nat
deriving DecidableEq, Repr

/-- A DRAM channel: STATE (0 in service, 1 self-refresh, 2 remapping, 3 lost), its queues, remap entries (row, spare), rows
that are due a remap (13 R358). -/
structure Chan where
  state : Nat := 0
  queue : List DramReq := []
  remap : List (Nat × Nat) := []
  due : List Nat := []
deriving DecidableEq, Repr

/-- The Working Memory Controller (13 R363) and the loop-back of 22 R558: MODE and CHANNEL of WMC_LOOP, DONE, FAIL, BAD_BYTES. -/
structure Wmc where
  chans : Tbl Chan := []
  reconfig : Bool := false
  retireOnFull : Bool := false
  thresh : Nat := 4
  retireSel : Nat := 0
  loopMode : Nat := 0
  loopChan : Nat := 0
  loopDone : Bool := false
  loopFail : Bool := false
  loopBad : Nat := 0
deriving DecidableEq, Repr

/-! ## Job Steward (12 R341) -/

structure Jst where
  lendEn : Bool := true
  preemptEn : Bool := true
  groupLimit : Nat := 150000
  lendLimit : Nat := 2000
  evt : Nat := 0
  /-- The root of the partition table (16 R439), 0 when there is none, and a stored descriptor being written: partition and command. -/
  root : Nat := 0
  newPart : Option (Nat × PartDesc × Nat) := none
deriving DecidableEq, Repr

end Sys2Proof.Machine
end

