-- ==== Sys2Proof/Machine/StateFlash.lean ====
section
/-!
DEFINITION. The state of the landings, their channels and dies (chapter 14) with the codewords' outcomes (chapter 16).
-/
namespace Sys2Proof.Machine

/-! ## Dies (14 R364, R379, R383, R387, R394) -/

/-- A flash page: its 32 KiB of data, little-endian, and its codewords that no decode tier can decode (15 R411). -/
structure FPage where
  data : Nat
  bad : List Nat := []
deriving DecidableEq, Repr

/-- A physical block. STATE: 0 ERASED, 1 OPEN, 2 FULL, 3 TORN with PSLC, INDET_FROM and NEXT (14 R387); the page whose program has no
recorded completion, and whether an erase has none (R390); whether a program failed since the last erase (R388); erases and wear units
(R383, 15 R422); tier-2 decodes and tier-3 reconstructions since the last erase and the wear units at the last refresh (16 R435);
the retirement limit passed (1 refresh, 2 retire) and whether it is on the grown-defect list and since when; when its first page was programmed. -/
structure Blk where
  st : Nat := 0
  pslc : Bool := false
  indet : Nat := 0
  next : Nat := 0
  inProg : Option Nat := none
  erasing : Bool := false
  failed : Bool := false
  erases : Nat := 0
  wear : Nat := 0
  t2 : Nat := 0
  t3 : Nat := 0
  refreshedAt : Option Nat := none
  limit : Nat := 0
  retired : Bool := false
  retiredAt : Nat := 0
  since : Nat := 0
  pages : Tbl FPage := []
deriving DecidableEq, Repr

/-- A read-level set with its probe and counts (14 R383, R384): offsets by level, version; the probe's level and direction; reads issued
toward the next probe read; codewords and corrected bits of probe and base reads; when its probe codewords were last reset to count for
R386. -/
structure CalSet where
  offs : Tbl Int := []
  ver : Nat := 0
  level : Nat := 0
  down : Bool := false
  reads : Nat := 0
  probeCw : Nat := 0
  probeBits : Nat := 0
  baseCw : Nat := 0
  baseBits : Nat := 0
  weekFrom : Nat := 0
  weekCw : Nat := 0
deriving DecidableEq, Repr

/-- A one-time-programmable row (14 R394): its bytes but ANTIROLL, whether it cannot be read or fails its IDCRC, and the programmed bits
of ANTIROLL. -/
structure OtpRow where
  bytes : Tbl (BitVec 8) := []
  bad : Bool := false
  anti : BitVec 127 := 0
deriving DecidableEq, Repr

/-- One die: blocks by physical number, the wear window (R379, R380): OFFSET, GAP, the moving block, erases counted toward the next
advance and advances due; read-level sets by group; ONFI features; its OTP row; whether it is lost, and whether it is being rebuilt
(15 R421). -/
structure Die where
  blks : Tbl Blk := []
  offset : Nat := 0
  gap : Nat := 7451
  moving : Option Nat := none
  erases : Nat := 0
  due : Nat := 0
  cal : Tbl CalSet := []
  feats : Tbl Nat := []
  otp : OtpRow := {}
  lost : Bool := false
  rebuild : Bool := false
deriving DecidableEq, Repr

/-! ## Operations (14 R375) -/

/-- Who waits for a flash operation. -/
inductive FOwner where
  /-- A unit of a host READ: the command's number and the unit's index. -/
  | unit (cmd i : Nat)
  /-- A unit of an LDA: the thread, its sequence number, the index of the unit. -/
  | lda (th : Thr) (seq i : Nat)
  /-- A PREF of a volume's unit (14 R377). -/
  | pref (vol lba : Nat)
  /-- A list page, or a page of records, of a scan: the scan's number and the index of the page (11 R301). -/
  | scan (id page : Nat)
  /-- A copy of a landing-zone page being written: its number and the copy (15 R410). -/
  | lz (page copy : Nat)
  /-- A page of a destination row: the reclamation's number and the destination superblock (15 R417). -/
  | row (job sb : Nat)
  /-- The erase of a victim's member: the reclamation's number and the member's position (15 R417). -/
  | victim (job pos : Nat)
  /-- The erase of a block that holds nothing: the gap block (14 R380), a block that was refreshed (16 R435). -/
  | spare
  /-- A RAW_FLASH command (14 R391). -/
  | raw (cmd : Nat)
  /-- A calibration read of a group (14 R386). -/
  | calib (group : Nat)
  /-- A patrol scrub read (16 R445). -/
  | scrub
deriving DecidableEq, Repr

inductive FKind where
  | read | program | erase
deriving DecidableEq, Repr

/-- How far an operation is: queued; its check passed and its grains asked for (14 R367); on the die since a time; suspended since a
time; its codewords in the second tier after some re-reads (16 R432); waiting for the third. -/
inductive FSt where
  | queued
  | grains
  | running (since : Nat)
  | suspended (since : Nat)
  | tier2 (rereads : Nat)
  | tier3
deriving DecidableEq, Repr

/-- An operation at a die scheduler: its class (0 A to 3 D), the block (through the wear window when `win`), page, codewords wanted
and those that no tier has decoded yet, program data, arrival, whether it is served next (R375), time already run, suspensions (R376), and the
read-level group, version and probe it was issued with (R384, R385); `again` when it is a probe read's re-read at the base offsets. -/
structure FOp where
  id : Nat
  die : Nat
  cls : Nat
  kind : FKind
  win : Bool
  blk : Nat
  page : Nat := 0
  pslc : Bool := false
  cws : List Nat := []
  fails : List Nat := []
  data : FPage := { data := 0 }
  owner : FOwner
  since : Nat
  front : Bool := false
  st : FSt := .queued
  ran : Nat := 0
  suspends : Nat := 0
  group : Nat := 0
  ver : Nat := 0
  probe : Bool := false
  again : Bool := false
deriving DecidableEq, Repr

/-! ## Landings (14 R366 to R374, R397) -/

/-- One direction of a landing link (14 R368 to R370): the sender's next SEQ, flits waiting for credits by class, its unacknowledged
flits (SEQ, class, when sent) and consecutive replays of the first; the receiver's next SEQ and whether it is dropping; flits of credit in
use by class. -/
structure LndDir where
  txNext : Nat := 0
  wait : List Nat := []
  replay : List (Nat × Nat × Nat) := []
  replayRun : Nat := 0
  rxNext : Nat := 0
  dropping : Bool := false
  used : Tbl Nat := []
deriving DecidableEq, Repr

/-- A unit in the read buffer (14 R377). -/
structure BufUnit where
  vol : Nat
  lba : Nat
  data : Nat
  since : Nat
deriving DecidableEq, Repr

structure Landing where
  dn : LndDir := {}
  up : LndDir := {}
  width : Nat := 4
  replays : Nat := 0
  retrains : Nat := 0
  failRuns : Nat := 0
  lost : Bool := false
  booted : Bool := false
  ownRefused : Bool := false
  loopLink : Nat := 0
  loopPad : BitVec 4 := 0
  suspendEn : Bool := true
  prefEn : Bool := true
  period : Nat := 4096
  wwSel : Nat := 0
  calEn : Bool := true
  calWindow : Nat := 16
  calRate : Nat := 16
  own : BitVec 32 := 0
  buf : List BufUnit := []
deriving DecidableEq, Repr

/-- A channel's settings as written and as in effect (14 R372 to R374), its counters, and grants since class B last had one. -/
structure FChan where
  vccq : Bool := true
  rate : Nat := 3
  rlat : Nat := 8
  rpre : Nat := 2
  vccqAct : Bool := true
  rateAct : Nat := 3
  rlatAct : Nat := 8
  rpreAct : Nat := 2
  suspends : Nat := 0
  padErrs : Nat := 0
  padSync : Bool := false
  sinceB : Nat := 0
deriving DecidableEq, Repr

/-- The flash array. Dies are numbered channel × 8 + target; operations are in order of arrival. -/
structure Flash where
  dies : Tbl Die := []
  landings : Tbl Landing := []
  chans : Tbl FChan := []
  ops : List FOp := []
  nextOp : Nat := 0
deriving DecidableEq, Repr

end Sys2Proof.Machine
end

