-- ==== Sys2Proof/Machine/StateHost.lean ====
section
/-!
DEFINITION. The state of the host link, the queues and the commands (chapters 17 and 18).
-/
namespace Sys2Proof.Machine

/-- An asynchronous event (18 R488, R489): SOURCE, CODE, severity, INSTANCE, COUNT, AON_TIME of the first occurrence, DETAIL,
the NOT_RINGED mark. -/
structure Event where
  src : Nat
  code : Nat
  sev : Nat
  inst : Nat
  count : Nat
  time : BitVec 64
  detail : Nat
  notRinged : Bool
deriving DecidableEq, Repr

/-- The events (18 R489): the mask of suppressed sources, the pending events oldest first, the EVENTS log oldest first, and
whether one was lost since the last was written. -/
structure Events where
  mask : Word := 0
  pend : List Event := []
  log : List Event := []
  loss : Bool := false
deriving DecidableEq, Repr

/-! ## Queues and commands (chapter 18) -/

/-- A queue pair (18 R464 to R467): its ring, its expected slot, whether it has accepted an entry, the REASON of its refusal while it is refused, whether expert
functions are enabled on it. Queue 0 exists from reset with DEPTH 64, limit 48 and its ring at address 0. -/
structure Queue where
  configured : Bool := false
  depth : Nat := 64
  limit : Nat := 0
  base : Nat := 0
  expected : Nat := 0
  accepted : Bool := false
  refused : Option Nat := none
  head : Nat := 0
  tail : Nat := 0
  phase : Bool := true
  expert : Bool := false
deriving DecidableEq, Repr

/-- A completion's status, FLAGS, AUX and RESULT (18 R470); RESULT as a little-endian number. -/
structure Comp where
  status : Nat
  flags : Nat := 0
  aux : Nat := 0
  result : Nat := 0
deriving DecidableEq, Repr

/-- An accepted submission entry (18 R465, R469): its number in acceptance order, queue and slot, the 64 bytes, whether its CID was
refused, whether it has started, whether its host data was asked for, the data that arrived by 4 KiB chunk (from the host,
or a READ's units from flash), the units that could not be read, what it has done so far, and its completion once formed, with its place in the order
of forming (R467). -/
structure Cmd where
  id : Nat
  q : Nat
  slot : Nat
  entry : BitVec 512
  badCid : Bool := false
  started : Bool := false
  asked : Bool := false
  chunks : Tbl Nat := []
  bads : List Nat := []
  progress : Nat := 0
  comp : Option Comp := none
  form : Nat := 0
deriving DecidableEq, Repr

/-- A tally record (18 R491). `map` lists the state of each tail unit: 0 NOT_WRITTEN, 1 DURABLE, 2 PENDING. -/
structure Tally where
  q : Nat
  cid : Nat
  cmd : Nat
  status : Nat
  settled : Bool
  volume : Nat
  units : Nat
  lba : Nat
  committed : Nat
  created : Nat
  settledAt : Nat := 0
  map : List Nat
deriving DecidableEq, Repr

/-! ## The link (chapter 17) -/

/-- A verdict record (17 R460): queue, slot, whether BUSY, REASON. -/
structure Verdict where
  q : Nat
  slot : Nat
  busy : Bool
  reason : Nat
deriving DecidableEq, Repr

/-- The body of a message from the module to the adapter (17 R458). -/
inductive HBody where
  | verdicts (l : List Verdict)
  | accState (l : List Nat)
  | readReq (rtag len : Nat) (addr : Nat)
  | write (addr len data : Nat)
  | init (version width : Nat) (credits : List Nat)
  | width (w seq : Nat)
  /-- A flit returned in an L2 loop-back (22 R555). -/
  | echo (len data : Nat)
deriving DecidableEq, Repr

/-- A message of the replay buffer or waiting for credits: class (0 ACC, 1 MREQ, 2 MWR, 3 MGT), MSG_ID, flits, and the SEQ of its
last flit once sent. -/
structure HMsg where
  cls : Nat
  msgId : Nat
  flits : Nat
  last : Option Nat
  body : HBody
deriving DecidableEq, Repr

/-- An outstanding READ_REQ (17 R459): its command and the chunk of its data. -/
structure HRead where
  rtag : Nat
  cmd : Nat
  chunk : Nat
  addr : Nat
  len : Nat
  sent : Bool := false
  got : Nat := 0
  data : Nat := 0
deriving DecidableEq, Repr

/-- The host link (17 R448 to R463). STATE: 0 down, 1 training, 2 up, 3 listen, 4 widening, 5 retrain; `retryAt` and `initAt` when training or
INIT is due again, `awaitResync` after a link reset; `loop` the loop-back depth in force, `loopWant` the one a LOOP asks for, `echo` its
address. -/
structure HostLink where
  state : Nat := 0
  width : Nat := 0
  trained : Nat := 0
  lanesGood : Nat := 0
  coeffs : Bool := false
  retrainFails : Nat := 0
  retryAt : Option Nat := none
  initAt : Option Nat := none
  awaitResync : Bool := false
  rxNext : Nat := 0
  dropping : Bool := false
  txNext : Nat := 0
  replayRun : Nat := 0
  out : List HMsg := []
  credits : List Nat := [0, 0, 0, 0]
  msgIds : List Nat := [0, 0, 0, 0]
  rtagNext : Nat := 0
  reads : List HRead := []
  fecCorr : Nat := 0
  fecUncorr : Nat := 0
  replays : Nat := 0
  retrains : Nat := 0
  resets : Nat := 0
  maxLat : Nat := 0
  busy : Nat := 0
  loop : Nat := 0
  loopWant : Nat := 0
  echo : Nat := 0
  evt : Nat := 0
  listenEn : Bool := true
  retrainReq : Bool := false
deriving DecidableEq, Repr

/-- The command side: the link, the queues (queue 0 is configured), the accepted entries in acceptance order, the next number, the
tally records oldest first, the expert token and whether expert functions were ever enabled since reset (18 R475); whether a
sanitize has begun and not ended (15 R426). -/
structure CmdSide where
  link : HostLink := {}
  queues : Tbl Queue := [(0, { configured := true, limit := 48 })]
  cmds : List Cmd := []
  nextId : Nat := 0
  nextForm : Nat := 0
  tallies : List Tally := []
  token : Option Nat := none
  expertEver : Bool := false
  sanitize : Bool := false
deriving DecidableEq, Repr

end Sys2Proof.Machine
end

