-- ==== Sys2Proof/Machine/StateMdm.lean ====
section
/-!
DEFINITION. The state of the Media Manager (chapter 15) and the critical words (16 R439 to R441).
-/
namespace Sys2Proof.Machine

/-! ## The map (15 R398, R402 to R408) -/

/-- A span or nail entry (15 R408): UNMAPPED, LOCATED (ZONE, SUPERBLOCK, PAGE, UNIT) or NAILED (TABLE). -/
inductive MapEnt where
  | unmapped
  | located (zone : Bool) (sb page unit : Nat)
  | nailed (table : Nat)
deriving DecidableEq, Repr

/-- A nail table: its volume and span, and its 16 entries (15 R408). -/
structure Nail where
  vol : Nat
  span : Nat
  ents : Tbl MapEnt := []
deriving DecidableEq, Repr

/-- A page of a list (11 R286): its records, where it lies, and the directory's SEQ when it was written. -/
structure ListPage where
  n : Nat
  loc : MapEnt
  seq : Nat
deriving DecidableEq, Repr

/-- A volume (15 R398): its descriptor's fields; a BLOCK volume's span entries; an INDEX volume's lists (pages in order), tombstones,
directory SEQ and index identifier (11 R281, R286). -/
structure Volume where
  ty : Nat
  blocks : Nat
  dim : Nat := 0
  m : Nat := 0
  bits : Nat := 0
  metric : Nat := 0
  lists : Nat := 0
  tombCap : Nat := 0
  spans : Tbl MapEnt := []
  dir : Tbl (List ListPage) := []
  tombs : List Nat := []
  seq : Nat := 0
  indexId : Nat := 0
deriving DecidableEq, Repr

/-- A superblock in use (15 R403 to R406): 1 open, 2 full or closed, 3 dismantled; whether it serves the landing zone; its member table
(positions not listed hold logical block 24 + b) and members in service; the data pages given out; void data pages; the evict mark. -/
structure Sblk where
  st : Nat
  zone : Bool
  members : Tbl Nat := []
  inSvc : BitVec 32
  used : List Nat := []
  voids : List Nat := []
  evict : Bool := false
deriving DecidableEq, Repr

/-- The map, its nail tables, the superblocks and the volumes: what a checkpoint copies (15 R413). -/
structure MapSt where
  vols : Tbl Volume := []
  nails : Tbl Nail := []
  nailNext : Nat := 0
  sbs : Tbl Sblk := []
deriving DecidableEq, Repr

/-! ## Journal and checkpoint (15 R412, R413) -/

/-- What a journal record changes (15 R412), each a whole new value. `map` gives `n` units from a logical block the consecutive places
from an entry: a span entry when it covers the span, else nail entries, with the nail table they need; `old` is the entry a copy's first
unit must still hold (R418), `whole` that the units belong to a write of a whole span (R409). -/
inductive JChange where
  | map (vol lba n : Nat) (ent : MapEnt) (old : Option MapEnt) (whole : Bool)
  | fold (vol span : Nat)
  | volume (vol : Nat) (new : Option Volume)
  | list (vol list : Nat) (page : Nat) (new : ListPage) (old : Option MapEnt)
  | tombs (vol : Nat) (ids : List Nat)
deriving DecidableEq, Repr

/-- Whose work a record makes durable: units of a WRITE or TRIM (its command's number, the first unit's index, how many); the entries of
a scan's APPEND up to one; a volume's creation or deletion (its command). -/
inductive JFor where
  | none
  | units (cmd i n : Nat)
  | append (scan upto : Nat)
  | volume (cmd : Nat)
deriving DecidableEq, Repr

structure JRec where
  chg : JChange
  whom : JFor := .none
deriving DecidableEq, Repr

/-- A journal page (15 R412): its SEQ, records, when its first record was formed, whether its program has started. -/
structure JPage where
  seq : Nat
  recs : List JRec
  since : Nat
  programming : Bool := false
deriving DecidableEq, Repr

/-- A map checkpoint in an area: the map copied, the SEQ it starts with, its generation, and whether every page is programmed and
verified. -/
structure Ckpt where
  map : MapSt
  seq : Nat
  gen : Nat
  done : Bool := false
deriving DecidableEq, Repr

/-! ## Streams (15 R405, R406, R410) -/

/-- A write stream: the open superblock of each h, the number of its next chunk, and the second data page of a chunk only half
given out. -/
structure Stream where
  open0 : Option Nat := none
  open1 : Option Nat := none
  chunk : Nat := 0
  half : Option (Nat × Nat) := none
deriving DecidableEq, Repr

/-- A data page being written to the landing zone (15 R410): where it lies, its data, the records it brings once both copies are
programmed, and each copy: 0 under way, 1 programmed, 2 failed. `ready` when only the window of 18 R490 holds its records back. -/
structure LzPage where
  id : Nat
  sb : Nat
  page : Nat
  data : Nat
  recs : List JRec
  copies : List Nat := [0, 0]
  ready : Bool := false
deriving DecidableEq, Repr

/-- A WRITE or TRIM that is being carried out (15 R410, 18 R490): its command, volume, first logical block, units; units placed so far
(for a TRIM, given a record); the units made durable as (first, count); the page reserved for the second half of a span; whether it was
stopped and with what status. -/
structure Writing where
  cmd : Nat
  trim : Bool
  vol : Nat
  lba : Nat
  n : Nat
  placed : Nat := 0
  durable : List (Nat × Nat) := []
  resv : Option (Nat × Nat) := none
  stop : Option Nat := none
deriving DecidableEq, Repr

/-- A unit being copied: the volume, logical block, its old entry. -/
structure CopyUnit where
  vol : Nat
  lba : Nat
  old : MapEnt
deriving DecidableEq, Repr

/-- What a copy brings to a data page: up to 8 units in their places, `whole` when they are half of a LOCATED span; a list page (volume,
list, page, old entry); nothing. -/
inductive PageW where
  | units (l : List (Option CopyUnit)) (whole : Bool)
  | list (vol list page : Nat) (old : MapEnt)
  | void
deriving DecidableEq, Repr

/-- A destination of a copy (15 R417): the superblock, what its data pages not yet verified bring and since when, the row
being programmed, the positions programmed and failed. -/
structure Dest where
  sb : Nat
  pend : Tbl PageW := []
  since : Nat := 0
  row : Option Nat := none
  done : List Nat := []
  failed : List Nat := []
deriving DecidableEq, Repr

/-- A reclamation or destage in progress (15 R416, R417): the victim, its destinations, the units and list pages already taken, whether
class C is used, and once the victim is being erased the positions left. -/
structure Reclaim where
  id : Nat
  victim : Nat
  dests : List Dest := []
  taken : List (Nat × Nat × Nat) := []
  urgent : Bool := false
  erasing : Option (List Nat) := none
deriving DecidableEq, Repr

/-! ## Critical words (16 R439, R440) -/

/-- A triplicated word: its copies' values, each none when it cannot be read, and the value a write is bringing. -/
structure Crit where
  copies : List (Option Nat) := [some 0, some 0, some 0]
  writing : Option Nat := none
deriving DecidableEq, Repr

/-! ## The Media Manager (15 R423 to R430) -/

/-- A sanitize (15 R426 to R428): STATE of MDM_SANITIZE; whether its record is durable; dies done in the phase, and the last recorded;
the command that waits for the record. -/
structure Sanit where
  state : Nat := 0
  durable : Bool := false
  dies : List Nat := []
  recorded : List Nat := []
  waiting : Option Nat := none
deriving DecidableEq, Repr

/-- The Media Manager: the map in force; the journal pages programming or durable since the current checkpoint, the one forming, the
next SEQ and how many are durable; the two checkpoint areas, when one was last taken, its generation; critical words by the row of
Table: critical words; streams (host data, copies, appended list pages, copied list pages); the last write of each span (volume × 2^32 + span); reclamations; the grown-defect list (die, physical
block); map pieces under reload (15 R415); read-only retirement, the warnings raised, spare at first boot (R423); the sanitize; the
registers of R430; the health log's counters (R429). -/
structure Mdm where
  map : MapSt := {}
  journal : List JPage := []
  forming : Option JPage := none
  jseq : Nat := 0
  jdone : Nat := 0
  ckptA : Option Ckpt := none
  ckptB : Option Ckpt := none
  ckptAt : Nat := 0
  gen : Nat := 0
  crit : Tbl Crit := []
  lz : Stream := {}
  copy : Stream := {}
  lists : Stream := {}
  listCopy : Stream := {}
  lzPages : List LzPage := []
  writes : List Writing := []
  nextId : Nat := 0
  spanAt : Tbl Nat := []
  reclaims : List Reclaim := []
  defects : List (Nat × Nat) := []
  recovering : Bool := true
  pieces : List Nat := []
  readOnly : Bool := false
  spareFirst : Nat := 22918293258240
  warned : Bool := false
  critted : Bool := false
  san : Sanit := {}
  start : Nat := 6
  urgent : Nat := 2
  lzMax : Nat := 128
  foldS : Nat := 600
  budget : Nat := 2000
  interval : Nat := 600
  jmib : Nat := 1024
  evt : Nat := 0
  reclaimed : Nat := 0
  unitsRead : Nat := 0
  unitsWritten : Nat := 0
  units4 : Nat := 0
  unitsPslc : Nat := 0
  hours : Nat := 0
  hourMark : Nat := 0
  unsafe_ : Nat := 0
  errors : Tbl Nat := []
  temps : Tbl Nat := []
deriving DecidableEq, Repr

end Sys2Proof.Machine
end

