-- ==== Sys2Proof/Machine/StateProbe.lean ====
section
/-!
DEFINITION. The state of the Probe Engine and its landing units (chapter 11).
-/
namespace Sys2Proof.Machine

/-- A survivor on its way from an LPU (11 R301): query, sum (for a RECORD scan 0), AUX and ID, or the projected bytes. -/
structure Surv where
  lpu : Nat
  q : Nat
  sum : Nat
  aux : Nat
  id : Nat
  raw : Nat
deriving DecidableEq, Repr

/-- One query of a scan (11 R298, R302, R303): its region's counters, threshold and keeper; what each LPU compares with: the last
threshold applied and its local keeper's sums; the threshold sent but not yet applied by LPU. -/
structure ScanQ where
  written : Nat := 0
  scanned : Nat := 0
  late : Nat := 0
  tombed : Nat := 0
  filteredOut : Nat := 0
  pages : Nat := 0
  thresh : Word := 0x7F800000
  keeper : List Word := []
  dirty : Bool := false
  lastSent : Option Nat := none
  lpuT : Tbl Word := []
  sent : Tbl Word := []
  localKeep : Tbl (List Nat) := []
  full : Bool := false
  media : Bool := false
  short : Bool := false
  ended : Bool := false
deriving DecidableEq, Repr

/-- A scan or append (11 R296 to R307): issuer, ticket, its 64-byte header, the volume, the tables sent to the LPUs (query by query, for a
RESIDUAL scan list by list), its queries; the pages it reads as (list, page, records), those that left the dies by number with their data
(none when unreadable), how many are scanned, which of a RECORD scan are; survivors in transit; for an APPEND the entries it applies, how many are durable, and the
records it will write; what PCOLLECT has reported, its end. -/
structure Scan where
  id : Nat
  ctx : Nat
  th : Thr
  seq : Nat
  auto : Bool
  kind : Nat
  hdr : Nat
  vol : Nat := 0
  started : Bool := false
  lists : List Nat := []
  tabs : List Nat := []
  qs : List ScanQ := []
  pages : List (Nat × Nat × Nat) := []
  arrived : List (Nat × Option Nat) := []
  scannedPages : Nat := 0
  recDone : List Nat := []
  survs : List Surv := []
  applied : Nat := 0
  target : Nat := 0
  outRecs : List Nat := []
  reported : Nat := 0
  ended : Bool := false
  status : Nat := 0
deriving DecidableEq, Repr

/-- A walk in progress: context, thread, the query's address, the 32-byte request, the output's address and D. -/
structure Walk where
  ctx : Nat
  th : Thr
  query : DWord
  req : Nat
  out : DWord
  d : Nat
deriving DecidableEq, Repr

/-- The Probe Engine (11 R316): scans in issue order, walks, its registers, and each LPU's counters (records, survivors). -/
structure Probe where
  scans : List Scan := []
  nextId : Nat := 0
  walks : List Walk := []
  localKeepEn : Bool := true
  tightenNs : Nat := 2000
  late : Nat := 0
  records : Tbl Nat := []
  survivors : Tbl Nat := []
deriving DecidableEq, Repr

end Sys2Proof.Machine
end

