-- ==== Sys2Proof/Machine/StateWarden.lean ====
section
/-!
DEFINITION. The state of the Warden's clocks, sleep states and grain ledger (chapter 02).
-/
namespace Sys2Proof.Machine

/-- A grant held (02 R43): tenths of a grain, the request's level (02 R46: 0 Warden, 1 service, 2 partition work), its job
class (3 URGENT to 0 BACKGROUND), the time of its request and the order in which it was granted. -/
structure Grant where
  who : Requester
  amt : Nat
  level : Nat
  cls : Nat
  since : Nat
  order : Nat
deriving DecidableEq, Repr

/-- A waiting request (02 R45 to R48): what it asks, since when it counts as waiting, and whether it is held back until its
PLL locks (02, before R36). -/
structure Waiting where
  who : Requester
  amt : Nat
  level : Nat
  cls : Nat
  since : Nat
  heldBack : Bool := false
deriving DecidableEq, Repr

/-- One account of the ledger (02 R42): ceiling, grants held, waiting requests, the current rise window and the counters.
All figures are tenths of a grain. -/
structure Account where
  ceiling : Nat
  held : List Grant := []
  waiting : List Waiting := []
  riseFrom : Nat := 0
  risen : Nat := 0
  nextOrder : Nat := 0
  revokes : Nat := 0
  headBlocked : Bool := false
deriving DecidableEq, Repr

/-- The Warden's clocks, sleep and ledger (02 R33 to R59, R594). -/
structure Warden where
  /-- The monotonic counter (R34): one count is 10 ns. -/
  aon : BitVec 64 := 0
  aonHi : Word := 0
  pllArith : Bool := false
  pllNet : Bool := false
  pllDram : Bool := false
  pllLanding : BitVec 16 := 0
  opCur : Nat := 0
  opTarget : Nat := 0
  opAuto : Bool := true
  opFloor : Nat := 2
  /-- AON time since which more than 25 % of the waiting galleries' grains wait without a break (R38), and the last time a
  gallery request waited. -/
  opReq : Option Nat := none
  opLowSince : Option Nat := none
  opLastWait : Nat := 0
  vcore : Account := { ceiling := 9000 }
  vserdes : Account := { ceiling := 1280 }
  vflash : Account := { ceiling := 8800 }
  /-- The host power cap in watts (R55), its VCORE limit and the input-power samples of the last 10 ms. -/
  cap : Option Nat := none
  capLimit : Nat := 10240
  capSamples : List Nat := []
  thermLimit : Nat := 100
  /-- The thermal limit on VCORE (R56), the capacity when it limits nothing, and whether the ceiling is being lowered. -/
  thermCap : Nat := 10240
  thermLow : Bool := false
  trip : Bool := false
  s4en : Bool := true
  s3en : Bool := true
  s4idle : Nat := 10
  s3idle : Nat := 100
  s2idle : Nat := 1000
  modState : Nat := 0
  modSince : Nat := 0
  waking : Bool := false
  evt : BitVec 5 := 0
  /-- Temperature sensors in 1/16 °C; one that is not listed has returned no reading (24 R589, R593). -/
  sensors : Tbl Int := []
  /-- Input power in 0.1 W and input voltage in 10 mV (24 R577, R593). -/
  inputPower : Nat := 0
  inputVoltage : Nat := 5400
  /-- Emergency stop sources (24 R585), FLASH_HOT (R590), the coolant bits and since when their condition holds (R588). -/
  emstopPin : Bool := false
  emstopSmb : Bool := false
  flashHot : Bool := false
  stopEvt : Bool := false
  coolantHot : Bool := false
  coolantDt : Bool := false
  hotSince : Option Nat := none
  dtSince : Option Nat := none
  sensorSel : Nat := 0
  /-- The data of the last SMBus read answered, little-endian; none when it was answered with NACK (24 R583). -/
  smbOut : Option Nat := none
  /-- The 54 V input is within limits (24 R577); the module is ready (20 R523). -/
  power : Bool := false
  ready : Bool := false
  /-- VOTE_SPLIT is in force (16 R441). -/
  voteSplit : Bool := false
deriving DecidableEq, Repr

end Sys2Proof.Machine
end

