-- ==== Sys2Proof/Machine/State.lean ====
section
/-!
DEFINITION. The whole state of the module: the hardware and the queue of waiting commands, as plain data; how a step can
stop; the state at cold power-on.
-/
namespace Sys2Proof.Machine

/-- Everything the manual gives the module, but for the queue of waiting commands. -/
structure Hw where
  /-- The model's own counter of values the manual leaves open (log 8). -/
  free : Nat := 0
  wdn : Warden := {}
  ev : Events := {}
  gal : Tbl Gallery := []
  wing : Tbl Wing := []
  part : Tbl Partition := []
  /-- Contexts, numbered partition × 4 + context. -/
  ctx : Tbl Context := []
  /-- Object instances, numbered ((context × 4096) + handle) × 128 + (0 for atrium and work, gallery + 1 for a bay). -/
  mem : Tbl ObjMem := []
  jst : Jst := {}
  wmc : Wmc := {}
  ffu : Ffu := {}
  probe : Probe := {}
  diu : Diu := {}
  host : CmdSide := {}
  flash : Flash := {}
  mdm : Mdm := {}
  boot : Boot := {}
  dbg : Debug := {}
deriving DecidableEq, Repr

/-- The state of the module: the commands waiting, first in first out, and the hardware. -/
structure State where
  pending : List Instr
  hw : Hw
deriving DecidableEq, Repr

/-- How a step can stop. -/
inductive Fault where
  /-- A command's operands name a unit that the manual says does not exist (00 R5): raised by every meaning whose operands
  number a unit. Safe: the hardware has no such command. -/
  | noSuchUnit
deriving DecidableEq, Repr

/-- Why a command has no meaning. -/
inductive Refusal where
  /-- A row of the table whose meaning is not written; raised by no meaning. Safe: the run stops. -/
  | notModelled (mnemonic : String)
deriving DecidableEq, Repr

/-- The hardware at cold power-on. -/
def Hw.reset : Hw := {}

/-- The module right after cold power-on: nothing waits. -/
def State.reset : State := { pending := [], hw := Hw.reset }

end Sys2Proof.Machine
end

