-- ==== Sys2Proof/Machine/Ops.lean ====
section
/-!
DEFINITION. The named operations every meaning is built from: units, threads, free values, counters at their limits (00 R9),
events (18 R488, R489), object contents (04 R91 to R94, R123; 13 R355, R356).
-/
namespace Sys2Proof.Machine

/-- A command whose operands name units that exist acts on the hardware alone; the queue is never touched. -/
def act (ok : Bool) (f : Hw → Hw) (s : State) : Host.Outcome State Fault Refusal :=
  if ok then .next { s with hw := f s.hw } else .fault .noSuchUnit

/-- One count of the monotonic counter, 10 ns (02 R34). -/
def tickAon (h : Hw) : Hw := if h.wdn.power then { h with wdn := { h.wdn with aon := h.wdn.aon + 1 } } else h

/-- The AON time in counts of 10 ns (02 R34). -/
def now (h : Hw) : Nat := h.wdn.aon.toNat

/-- A value the manual leaves open (log 8), and the state with the next one in front. -/
def freeVal (w : Nat) (h : Hw) : BitVec w × Hw := (Config.freeBits w h.free, { h with free := h.free + 1 })

/-- Which of `n` things the manual leaves open (log 10), and the state with the next value in front. -/
def freePick (n : Nat) (h : Hw) : Nat × Hw := (Config.freeChoice h.free n % max 1 n, { h with free := h.free + 1 })

/-- A fresh epoch of undefined contents (log 9). -/
def freshEpoch (h : Hw) : Nat × Hw := (h.free, { h with free := h.free + 1 })

/-! ## Units -/

def gal (h : Hw) (g : Nat) : Gallery := tgetD h.gal g {}
def modGal (h : Hw) (g : Nat) (f : Gallery → Gallery) : Hw := { h with gal := tmod h.gal g {} f }
def wing (h : Hw) (w : Nat) : Wing := tgetD h.wing w {}
def modWing (h : Hw) (w : Nat) (f : Wing → Wing) : Hw := { h with wing := tmod h.wing w {} f }
def part (h : Hw) (p : Nat) : Partition := tgetD h.part p {}
def modPart (h : Hw) (p : Nat) (f : Partition → Partition) : Hw := { h with part := tmod h.part p {} f }
/-- Context number 4 × partition + context. -/
def ctx (h : Hw) (c : Nat) : Context := tgetD h.ctx c {}
def modCtx (h : Hw) (c : Nat) (f : Context → Context) : Hw := { h with ctx := tmod h.ctx c {} f }
def thread (h : Hw) (th : Thr) : Thread := tgetD (gal h th.g).thr th.t {}
def modThr (h : Hw) (th : Thr) (f : Thread → Thread) : Hw :=
  modGal h th.g (fun G => { G with thr := tmod G.thr th.t {} f })
def objMem (h : Hw) (k : Nat) : ObjMem := tgetD h.mem k {}
def modMem (h : Hw) (k : Nat) (f : ObjMem → ObjMem) : Hw := { h with mem := tmod h.mem k {} f }

/-- A failure that the thread's next FENCE reports: the first is kept (04 R103, 05 R155). -/
def noteFailure (th : Thr) (code : Nat) (h : Hw) : Hw := modThr h th (fun T => { T with failure := T.failure.or (some code) })

/-! ## Registers of a thread (04 R82) -/

def Thread.sreg (T : Thread) (n : Nat) : DWord := tgetD T.s n 0
/-- p0 reads as all ones (04 R82). -/
def Thread.preg (T : Thread) (n : Nat) : BitVec 128 := if n = 0 then BitVec.allOnes 128 else tgetD T.p n 0
def Thread.vreg (T : Thread) (n : Nat) : BitVec 4096 := tgetD T.v n 0
def Thread.treg (T : Thread) (n : Nat) : BitVec 256 := tgetD T.t n 0
def Thread.setS (T : Thread) (n : Nat) (x : DWord) : Thread := { T with s := tput T.s n x }
/-- Writes to p0 are ignored (04 R82). -/
def Thread.setP (T : Thread) (n : Nat) (x : BitVec 128) : Thread := if n = 0 then T else { T with p := tput T.p n x }
def Thread.setV (T : Thread) (n : Nat) (x : BitVec 4096) : Thread := { T with v := tput T.v n x }
def Thread.setT (T : Thread) (n : Nat) (x : BitVec 256) : Thread := { T with t := tput T.t n x }

/-- Lane j of a vector register (04 R82). -/
def lane (v : BitVec 4096) (j : Nat) : Word := v.extractLsb' (32 * j) 32
/-- A vector register from its lanes. -/
def ofLanes (f : Nat → Word) : BitVec 4096 :=
  BitVec.ofNat 4096 ((List.range 128).foldr (fun j acc => (f j).toNat + 2 ^ 32 * acc) 0)

/-! ## Counters and events -/

/-- The last entry that a test picks counts one more. -/
def bumpLast (p : Event → Bool) : List Event → List Event
  | [] => []
  | e :: r => if p e && !r.any p then { e with count := e.count + 1 } :: r else e :: bumpLast p r

/-- An occurrence of an event (18 R489): it enters the EVENTS log of 256 entries (18 R474); a pending event of the same SOURCE,
CODE and INSTANCE counts it; a masked one, or a sixty-fifth, is not pending. -/
def raiseEvent (src code sev inst detail : Nat) (h : Hw) : Hw :=
  let e : Event := { src, code, sev, inst, count := 1, time := h.wdn.aon, detail, notRinged := false }
  let same := fun (x : Event) => x.src = src && x.code = code && x.inst = inst
  let addLog := fun (l : List Event) (x : Event) => (l ++ [x]).drop (l.length + 1 - 256)
  if h.ev.mask.getLsbD src then { h with ev := { h.ev with log := addLog h.ev.log { e with notRinged := true } } }
  else match h.ev.pend.find? same with
    | some _ =>
      { h with ev := { h.ev with pend := bumpLast same h.ev.pend, log := bumpLast (fun x => same x && !x.notRinged) h.ev.log } }
    | none =>
      if h.ev.pend.length < 64 then { h with ev := { h.ev with pend := h.ev.pend ++ [e], log := addLog h.ev.log e } }
      else { h with ev := { h.ev with log := addLog h.ev.log { e with notRinged := true }, loss := true } }

/-- A counter of `w` bits advanced by `n`, sticking at all-ones (00 R9). -/
def satAdd (w v n : Nat) : Nat := min (v + n) (2 ^ w - 1)

/-- Raise the saturation event of the counter named `detail` when it first reaches all-ones (00 R9). The counters whose register maps name
R9 have 25 bits or more; narrower ones stick without an event. -/
def saturated (w detail old new : Nat) (h : Hw) : Hw :=
  if 24 < w ∧ old < 2 ^ w - 1 ∧ new = 2 ^ w - 1 then raiseEvent 10 0 0 0 detail h else h

/-! ## Contents of objects -/

def cellGet : List Host.Cell → Nat → Option Byte
  | [], _ => none
  | (k, v) :: r, a => if a = k then some v else cellGet r a
def cellPut : List Host.Cell → Nat → Byte → List Host.Cell
  | [], a, b => [(a, b)]
  | (k, v) :: r, a, b =>
    if a < k then (a, b) :: (k, v) :: r else if a = k then (a, b) :: r else (k, v) :: cellPut r a b
def cellDel : List Host.Cell → Nat → List Host.Cell
  | [], _ => []
  | (k, v) :: r, a => if a = k then r else (k, v) :: cellDel r a
/-- Addresses rise strictly. -/
def cellSorted : List Host.Cell → Bool
  | [] => true
  | [_] => true
  | (a, _) :: (b, v) :: r => decide (a < b) && cellSorted ((b, v) :: r)

def Rng.has (r : Rng) (a : Nat) : Bool := decide (r.lo ≤ a) && decide (a < r.lo + r.len)
def InFlight.has (r : InFlight) (a : Nat) : Bool := decide (r.lo ≤ a) && decide (a < r.lo + r.len)

/-- What an unlisted address reads as when the manual defines it: 0 in a ZERO object (04 R123). -/
def ObjMem.unlisted (m : ObjMem) (a : Nat) : Option Byte :=
  if m.undef.any (fun r => r.has a) then none else if m.zero then some 0 else none

/-- The undefined contents of an unlisted address (04 R123; log 9). -/
def ObjMem.unknown (m : ObjMem) (a : Nat) : Byte :=
  match m.undef.find? (fun r => r.has a) with
  | some r => Config.undefByte r.epoch a
  | none => Config.undefByte m.epoch a

/-- One byte of an object (04 R91). Bytes that an LDA in flight will write are undefined (04 R100). -/
def ObjMem.read (m : ObjMem) (a : Nat) : Byte :=
  match m.flight.find? (fun r => r.has a) with
  | some r => Config.undefByte r.epoch a
  | none =>
    match cellGet m.cells a with
    | some b => b
    | none => (m.unlisted a).getD (m.unknown a)

/-- One byte written: the list stays in its canonical form. A store into the destination of an LDA in flight spoils it (04 R100). -/
def ObjMem.write (m : ObjMem) (a : Nat) (b : Byte) : ObjMem :=
  { m with
    cells := if m.unlisted a = some b then cellDel m.cells a else cellPut m.cells a b
    flight := m.flight.map (fun r => if r.has a then { r with spoiled := true } else r) }

/-- Drop the listed bytes of a range. -/
def cellDrop (cells : List Host.Cell) (lo len : Nat) : List Host.Cell :=
  cells.filter (fun c => !(decide (lo ≤ c.1) && decide (c.1 < lo + len)))

/-- A range that becomes undefined (04 R99, R100, R123). -/
def ObjMem.forget (m : ObjMem) (lo len epoch : Nat) : ObjMem :=
  { m with cells := cellDrop m.cells lo len, undef := { lo, len, epoch } :: m.undef }

/-- The canonical form: addresses strictly rising, and no listed byte equal to what the address reads as unlisted. -/
def ObjMem.wf (m : ObjMem) : Bool :=
  cellSorted m.cells && m.cells.all (fun c => decide (m.unlisted c.1 ≠ some c.2))

/-- Every object's contents are in canonical form. -/
def Memory.wf (t : Tbl ObjMem) : Bool := t.all (fun e => e.2.wf)

/-- `n` bytes from `a`, little-endian (03 R63). -/
def ObjMem.readLE (m : ObjMem) (a n : Nat) : Nat :=
  (List.range n).foldr (fun i acc => (m.read (a + i)).toNat + 256 * acc) 0

/-- Byte i of a little-endian number. -/
def byteOf (v i : Nat) : Byte := BitVec.ofNat 8 (v / 256 ^ i)

/-- Bytes of an uncorrectable word of a tier: 8 in a bay (16 R436), 64 in the atrium and work tiers (13 R355). -/
def wordBytes (tier : Nat) : Nat := if tier = 0 then 8 else 64

/-- Some byte of the range lies in an uncorrectable word (13 R355). -/
def ObjMem.isBad (m : ObjMem) (tier a n : Nat) : Bool :=
  m.bad.any (fun w => decide (w * wordBytes tier < a + n) && decide (a < (w + 1) * wordBytes tier))

/-- A list of (address, byte) stores. A word marked uncorrectable is written only when the stores cover it whole, and is then
correctable again; otherwise it stays unchanged and the store has failed (13 R355, R356). -/
def ObjMem.store (m : ObjMem) (tier : Nat) (ws : List (Nat × Byte)) : ObjMem × Bool :=
  if m.bad = [] then (ws.foldl (fun m x => m.write x.1 x.2) m, false) else
  let W := wordBytes tier
  let covered := fun (w : Nat) => (List.range W).all (fun i => ws.any (fun x => x.1 = w * W + i))
  let hit := m.bad.filter (fun w => ws.any (fun x => x.1 / W = w))
  let lost := hit.filter (fun w => !covered w)
  let ok := ws.filter (fun x => !lost.contains (x.1 / W))
  let m' := { m with bad := m.bad.filter (fun w => !(hit.contains w && covered w)) }
  (ok.foldl (fun m x => m.write x.1 x.2) m', !lost.isEmpty)

/-- The (address, byte) pairs of `n` bytes of a little-endian number at `a`. -/
def bytesAt (a n v : Nat) : List (Nat × Byte) := (List.range n).map (fun i => (a + i, byteOf v i))

/-- The number of an object instance: contexts × handles × (0 for atrium and work, gallery + 1 for a bay, 04 R93). -/
def memKey (c handle tier g : Nat) : Nat := (c * 4096 + handle) * 128 + (if tier = 0 then g + 1 else 0)

/-! ## Partitions, contexts and threads -/

/-- The wing belongs to the partition and is in service (12 R320). -/
def wingIn (h : Hw) (p w : Nat) : Bool :=
  (part h p).inEff.valid && (part h p).inEff.wings.getLsbD w && !(wing h w).retired

/-- The partition of a gallery. -/
def galPart (h : Hw) (g : Nat) : Option Nat := (List.range 8).find? (fun p => wingIn h p (g / 8))

/-- The physical galleries of a partition, in ascending order: their positions are the logical indices (04 R112). -/
def partGals (h : Hw) (p : Nat) : List Nat := (List.range 96).filter (fun g => wingIn h p (g / 8))

/-- The logical index of a physical gallery. -/
def logicalOf (h : Hw) (p g : Nat) : Nat := (partGals h p).findIdx (fun x => x == g)

/-- The context that holds thread number `t` on gallery `g`. -/
def thrCtx (h : Hw) (th : Thr) : Option Nat :=
  match galPart h th.g with
  | none => none
  | some p => (List.range 4).map (fun c => 4 * p + c) |>.find? (fun c =>
      (ctx h c).st != .free && decide ((ctx h c).first ≤ th.t) && decide (th.t < (ctx h c).first + (ctx h c).threads))

/-- The context's threads on this gallery may issue: it is the running context (04 R88), or lent on this gallery (12 R330). -/
def mayRun (h : Hw) (c g : Nat) : Bool :=
  ((part h (c / 4)).running == some (c % 4) || (part h (c / 4)).lends.any (fun l => l.ctx == c && l.g == g)) && !(ctx h c).stopped

/-- Every (gallery, thread) of a context. -/
def ctxThreads (h : Hw) (c : Nat) : List Thr :=
  (partGals h (c / 4)).flatMap (fun g => (List.range (ctx h c).threads).map (fun i => { g, t := (ctx h c).first + i }))

/-- The overlay in effect of the partition names the overlay slot (12 R317). -/
def partOverlay (h : Hw) (p : Nat) : Nat := (part h p).inEff.overlay

/-- Presented columns of a gallery (07 R221). -/
def cols (h : Hw) (g : Nat) : Nat := 128 - ((List.range 128).filter (fun i => (gal h g).bypassAct.getLsbD i)).length

/-- The physical column of logical column `j` (07 R221). -/
def physCol (G : Gallery) (j : Nat) : Nat := (((List.range 128).filter (fun i => !G.bypassAct.getLsbD i))[j]?).getD 0

end Sys2Proof.Machine
end

