-- ==== Sys2Proof/Machine/Operands.lean ====
section
/-!
DEFINITION. Operands of the instructions: object addresses and their checks (04 R91 to R95, 05 R140), register fields
(05 R128, 06 R165), element packing (03 R63), tile descriptors (06 R167 to R170).
-/
namespace Sys2Proof.Machine

/-- The handle and the offset of an object address (04 R91). -/
def addrHandle (a : DWord) : Nat := a.toNat / 2 ^ 48
def addrOff (a : DWord) : Nat := a.toNat % 2 ^ 48
def mkAddr (handle off : Nat) : DWord := BitVec.ofNat 64 (handle * 2 ^ 48 + off)

/-- The right an access needs (04 R94, 05 R137). -/
inductive Right where
  | r | w | x
deriving DecidableEq, Repr

def Obj.grants (o : Obj) : Right → Bool
  | .r => o.r
  | .w => o.w
  | .x => o.x

/-- An access that does not fault: its object and offset; otherwise the cause, in the order of 04 R94. -/
inductive Chk where
  | ok (o : Obj) (off : Nat)
  | bad (cause : Nat)
deriving DecidableEq, Repr

/-- The checks of 04 R94 in their order, for `len` bytes at `a` needing right `need`, reachable in `tiers`. -/
def checkAccess (cx : Context) (a : DWord) (len : Nat) (need : Right) (tiers : List Nat) (align : Nat) : Chk :=
  if addrHandle a = 0 then .bad cNullHandle else
  match cx.objs.find? (fun o => o.handle = addrHandle a) with
  | none => .bad cBadHandle
  | some o =>
    if len ≠ 0 ∧ o.size < addrOff a + len then .bad cOutOfBounds
    else if !o.grants need then .bad cAccessDenied
    else if !tiers.contains o.tier then .bad cIllegalTier
    else if addrOff a % align ≠ 0 then .bad cMisaligned
    else .ok o (addrOff a)

/-- Both checks pass, or the first cause. -/
def Chk.cause? : Chk → Option Nat
  | .ok _ _ => none
  | .bad c => some c

/-- s[A] + OFF29 on bits [47:0] only; none when it carries out of bit 47 or borrows (05 R140). -/
def addOff (a : DWord) (off : Int) : Option DWord :=
  let o : Int := (addrOff a : Int) + off
  if 0 ≤ o ∧ o < 2 ^ 48 then some (mkAddr (addrHandle a) o.toNat) else none

/-- The contents number of an object of context `c` seen from gallery `g`. -/
def objKey (c : Nat) (o : Obj) (g : Nat) : Nat := memKey c o.handle o.tier g

/-- A field that names a vector register (05 R128). -/
def vecOk (n : Nat) : Bool := decide (n < 16)
/-- A field that names a predicate or a tile register (05 R128, 06 R165). -/
def predOk (n : Nat) : Bool := decide (n < 8)
def tileOk (n : Nat) : Bool := decide (n < 8)

/-- The element codes of `n` packed elements from byte `a` (03 R63): 4-bit two to a byte, 6-bit four to 3 bytes. -/
def readElems (m : ObjMem) (a bits n : Nat) : List Nat :=
  let v := m.readLE a ((n * bits + 7) / 8)
  (List.range n).map (fun i => v / 2 ^ (bits * i) % 2 ^ bits)

/-- Element codes packed into a little-endian number (03 R63). -/
def packElems (bits : Nat) (es : List Nat) : Nat := es.foldr (fun e acc => e % 2 ^ bits + 2 ^ bits * acc) 0

/-! ## Tile descriptors (06 R167 to R170) -/

structure Tile where
  base : DWord
  sbase : DWord
  stride : Nat
  major : Nat
  minor : Nat
  fmt : Nat
  zp : BitVec 8
  rsv : Nat
  sstep : Int
  step : Int
deriving DecidableEq, Repr

/-- The fields of a tile register (06 R167). -/
def tileOf (t : BitVec 256) : Tile :=
  { base := t.extractLsb' 0 64, sbase := t.extractLsb' 64 64, stride := (t.extractLsb' 128 32).toNat
    major := (t.extractLsb' 160 16).toNat, minor := (t.extractLsb' 176 16).toNat, fmt := (t.extractLsb' 192 4).toNat
    zp := t.extractLsb' 196 8, rsv := (t.extractLsb' 204 4).toNat
    sstep := (t.extractLsb' 208 16).toInt, step := (t.extractLsb' 224 32).toInt }

/-- The zero point of a descriptor as its format gives it (06 R167). -/
def Tile.zpInt (t : Tile) : Int := if t.fmt = 1 then (t.zp.toNat : Int) else t.zp.toInt

/-- Bytes of one packed line (03 R63). -/
def Tile.lineBytes (t : Tile) (f : Fmt) : Nat := (t.minor * f.bits + 7) / 8
/-- Scale bytes from one line to the next (06 R169). -/
def Tile.scaleStride (t : Tile) (f : Fmt) : Nat := t.stride * 8 / (f.bits * 32)

/-- The descriptor's own checks (06 R169): the format, or the cause. -/
def Tile.check (t : Tile) : Except Nat Fmt :=
  match fmtOf t.fmt with
  | none => .error cIllegalOperand
  | some f =>
    if t.major = 0 ∨ t.minor = 0 ∨ t.stride % 4 ≠ 0 ∨ t.stride < t.lineBytes f ∨ t.rsv ≠ 0 then .error cIllegalOperand
    else if t.zp ≠ 0 ∧ f ≠ .int8 ∧ f ≠ .uint8 then .error cIllegalOperand
    else if !f.isMx ∧ (t.sbase ≠ 0 ∨ t.sstep ≠ 0) then .error cIllegalOperand
    else if f.isMx ∧ (t.minor % 32 ≠ 0 ∨ t.stride * 8 % (f.bits * 32) ≠ 0) then .error cIllegalOperand
    else .ok f

/-- Bytes from BASE to the end of the last line; and from SBASE to the end of the last line's scale bytes. -/
def Tile.span (t : Tile) (f : Fmt) : Nat := (t.major - 1) * t.stride + t.lineBytes f
def Tile.scaleSpan (t : Tile) (f : Fmt) : Nat := (t.major - 1) * t.scaleStride f + t.minor / 32

/-- Every byte of the tile and of its scale bytes checked under 04 R94 (06 R169): the cause, if any. The lines are checked,
not the gaps between them. -/
def Tile.access (t : Tile) (f : Fmt) (cx : Context) (need : Right) (tiers : List Nat) : Option Nat :=
  match checkAccess cx t.base (t.span f) need tiers 1 with
  | .bad c => some c
  | .ok _ _ => if f.isMx then (checkAccess cx t.sbase (t.scaleSpan f) need tiers 1).cause? else none

/-- ADV (06 R170): the descriptor after its use; none when an addition carries out of bit 47 or borrows into it. -/
def Tile.advance (t : Tile) (raw : BitVec 256) : Option (BitVec 256) :=
  match addOff t.base t.step, addOff t.sbase t.sstep with
  | some b, some sb => some ((raw.extractLsb' 128 128) ++ sb ++ b)
  | _, _ => none

/-- Line `n` of a tile as element codes and scale bytes. -/
def readLine (m ms : ObjMem) (t : Tile) (f : Fmt) (n : Nat) : List Nat × List Nat :=
  (readElems m (addrOff t.base + n * t.stride) f.bits t.minor,
   if f.isMx then readElems ms (addrOff t.sbase + n * t.scaleStride f) 8 (t.minor / 32) else [])

end Sys2Proof.Machine
end

