-- ==== Sys2Proof/Machine/Command.lean ====
section
/-!
DEFINITION. Carrying out commands (18 R464 to R472): finding an accepted entry, the checks every command passes, its host data, its
completion; and sending messages to the adapter (17 R455 to R459).
-/
namespace Sys2Proof.Machine

/-! ## Messages to the adapter -/

/-- Bytes of a message's body (17 R458). -/
def HBody.bytes : HBody → Nat
  | .verdicts l => 8 * l.length
  | .accState _ => 512
  | .readReq _ _ _ => 16
  | .write _ n _ => 8 + n
  | .init _ _ c => 4 + 2 * c.length
  | .width _ _ => 4
  | .echo n _ => n

/-- Flits of a message: its 8-byte header and body in payloads of 232 bytes (17 R455, R458). -/
def HBody.flits : HBody → Nat
  | .echo _ _ => 1
  | b => (b.bytes + 8 + 231) / 232

/-- Flits flow (17 R451; 22 R554: nothing at L0 and L1). -/
def linkUp (l : HostLink) : Bool := (l.state = 2 || l.state = 3 || l.state = 4) && l.loop != 1 && l.loop != 2

/-- HRSP flits reserved for the READ_REQs sent (17 R459). -/
def hrspHeld (l : HostLink) : Nat := (l.reads.filter (fun r => r.sent)).foldl (fun n r => n + (r.len + 16 + 231) / 232) 0

/-- Send the first message that may go: its class holds credits, the replay buffer has room (17 R455, R457), and a READ_REQ has HRSP
space reserved and is one of at most 1,024 (17 R459). -/
def pumpOne (l : HostLink) : HostLink :=
  if !linkUp l || l.awaitResync then l else
  let unacked := (l.out.filter (fun m => m.last.isSome)).foldl (fun n m => n + m.flits) 0
  let room := fun (m : HMsg) => match m.body with
    | .readReq _ n _ => decide (hrspHeld l + (n + 16 + 231) / 232 ≤ 1024) && decide ((l.reads.filter (fun r => r.sent)).length < 1024)
    | _ => true
  let ready := fun (m : HMsg) => m.last.isNone && decide (m.flits ≤ (l.credits[m.cls]?).getD 0) && decide (unacked + m.flits ≤ 1024) && room m
  let first := fun (m : HMsg) => ready m && !(l.out.takeWhile (fun x => x != m)).any (fun x => x.cls = m.cls && x.last.isNone)
  match l.out.find? first with
  | none => l
  | some m =>
    let l := { l with
      out := l.out.map (fun x => if x == m then { x with last := some ((l.txNext + m.flits - 1) % 4096) } else x)
      txNext := (l.txNext + m.flits) % 4096
      credits := l.credits.set m.cls ((l.credits[m.cls]?).getD 0 - m.flits) }
    match m.body with
    | .readReq t _ _ => { l with reads := l.reads.map (fun r => if r.rtag = t then { r with sent := true } else r) }
    | _ => l

/-- Send whatever may go. -/
def pump (h : Hw) : Hw :=
  { h with host := { h.host with link := (List.range h.host.link.out.length).foldl (fun l _ => pumpOne l) h.host.link } }

/-- A message of a class queued for the adapter, with the class's next MSG_ID (17 R458). -/
def sendMsg (cls : Nat) (b : HBody) (h : Hw) : Hw :=
  let l := h.host.link
  let i := (l.msgIds[cls]?).getD 0
  pump { h with host := { h.host with link :=
    { l with out := l.out ++ [{ cls, msgId := i, flits := b.flits, last := none, body := b }], msgIds := l.msgIds.set cls ((i + 1) % 65536) } } }

/-- Host memory written: messages of at most 4,096 bytes (17 R458). -/
def hostWrite (addr len data : Nat) (h : Hw) : Hw :=
  (List.range ((len + 4095) / 4096)).foldl (fun h i =>
    sendMsg 2 (.write (addr + 4096 * i) (min 4096 (len - 4096 * i)) (data / 256 ^ (4096 * i) % 256 ^ min 4096 (len - 4096 * i))) h) h

/-! ## Entries -/

/-- A field of a submission entry (18 R469): `n` bytes at an offset, little-endian. -/
def Cmd.fld (c : Cmd) (off n : Nat) : Nat := c.entry.toNat / 256 ^ off % 256 ^ n
def Cmd.opcode (c : Cmd) : Nat := c.fld 0 1
def Cmd.cid (c : Cmd) : Nat := c.fld 2 2
def Cmd.target (c : Cmd) : Nat := c.fld 4 4
def Cmd.addr (c : Cmd) : Nat := c.fld 8 8
def Cmd.dataLen (c : Cmd) : Nat := c.fld 16 4
/-- The entry's own reserved fields, and a buffer beyond 16 MiB (18 R469). -/
def Cmd.badEntry (c : Cmd) : Bool := c.fld 1 1 != 0 || c.fld 20 4 != 0 || decide (2 ^ 24 < c.dataLen)

/-- The outstanding entry of a queue's slot whose completion is not yet formed. -/
def findCmd (h : Hw) (q slot : Nat) : Option Cmd := h.host.cmds.find? (fun c => c.q = q && c.slot = slot && c.comp.isNone)

def modCmd (id : Nat) (f : Cmd → Cmd) (h : Hw) : Hw :=
  { h with host := { h.host with cmds := h.host.cmds.map (fun c => if c.id = id then f c else c) } }

/-- A completion entry is formed (18 R465, R470): COMPLETION_POST writes it. -/
def finishCmd (id : Nat) (x : Comp) (h : Hw) : Hw :=
  let n := h.host.nextForm
  modCmd id (fun c => if c.comp.isNone then { c with comp := some x, form := n } else c) { h with host := { h.host with nextForm := n + 1 } }
def endCmd (id status : Nat) (h : Hw) : Hw := finishCmd id { status } h

def queueOf (h : Hw) (q : Nat) : Queue := tgetD h.host.queues q {}
def modQueue (q : Nat) (f : Queue → Queue) (h : Hw) : Hw := { h with host := { h.host with queues := tmod h.host.queues q {} f } }

/-- Opcodes of data and job commands (18 R471). -/
def adminOp (op : Nat) : Bool := decide (0x01 ≤ op) && decide (op ≤ 0x0B)
def dataOp (op : Nat) : Bool := decide (0x20 ≤ op) && decide (op ≤ 0x24)
def jobOp (op : Nat) : Bool := decide (0x40 ≤ op) && decide (op ≤ 0x43)

/-- The commands a module in a sanitize still carries out (15 R426): IDENTIFY, GET_LOG, the sanitize status query. -/
def sanitizeOk (c : Cmd) : Bool := c.opcode == 1 || c.opcode == 2 || (c.opcode == 8 && c.fld 24 1 == 1)

/-- The commands answered in ROM service (20 R527): IDENTIFY, GET_LOG of the FIRMWARE log, FW_DOWNLOAD, FW_COMMIT of slot A with ACTION 1. -/
def romOk (c : Cmd) : Bool :=
  c.opcode == 1 || (c.opcode == 2 && c.fld 24 1 == 5) || c.opcode == 5 || (c.opcode == 6 && c.fld 24 1 == 0 && c.fld 25 1 == 1)

/-- The commands answered from AON copies before the module is ready (20 R523): IDENTIFY, GET_FEATURE, the sanitize status query. -/
def aonOk (c : Cmd) : Bool := c.opcode == 1 || c.opcode == 4 || (c.opcode == 8 && c.fld 24 1 == 1)

/-- The module carries out this command now (01 R22; 16 R441; 20 R523, R527): it is ready and awake, in ROM service or halted, or the command
is answered from AON copies. -/
def carriesOut (h : Hw) (c : Cmd) : Bool :=
  h.wdn.power && (h.wdn.ready && h.wdn.modState = 0 || h.boot.stage = 15 || h.wdn.voteSplit || aonOk c)

/-- What every command meets before its own rules: VOTE_SPLIT (16 R441), the wrong kind of queue (18 R464), its tag and reserved fields
(18 R469), a sanitize accepted (data and job commands that have not started) or begun (15 R426); ROM service (20 R527). -/
def commonStatus (h : Hw) (c : Cmd) : Option Nat :=
  if h.wdn.voteSplit then some stHalted
  else if h.boot.stage = 15 && !romOk c then some stNotPermitted
  else if !(adminOp c.opcode && c.q = 0 || (dataOp c.opcode || jobOp c.opcode) && c.q != 0) then some stInvalidOpcode
  else if c.badCid || c.badEntry then some stInvalidField
  else if c.started then none
  else if h.host.sanitize && (dataOp c.opcode || jobOp c.opcode) then some stSanitize
  else if h.mdm.san.durable && !sanitizeOk c then some stSanitize
  else none

/-- Carry out the entry of a queue's slot if it is a command of this row (`mine`) and the module is ready; an entry that a reset
holds, or that is another command's, leaves everything as it is. -/
def carry (q slot : Nat) (mine : Cmd → Bool) (body : Cmd → Hw → Hw) (h : Hw) : Hw :=
  match findCmd h q slot with
  | none => h
  | some c =>
    if !mine c || !carriesOut h c then h else
    match commonStatus h c with
    | some st => endCmd c.id st h
    | none => body c (modCmd c.id (fun x => { x with started := true }) h)

/-- The entry has this opcode. -/
def hasOp (op : Nat) (c : Cmd) : Bool := c.opcode == op

/-- Bytes of the entry that must be zero, as (offset, count); TARGET and DATA_LEN when the command has none (18 R469). -/
def Cmd.zeros (c : Cmd) (l : List (Nat × Nat)) : Bool := l.all (fun x => c.fld x.1 x.2 == 0)

/-- The entry sets (or gets) this feature (18 R472, R473). -/
def setsFeature (id : Nat) (c : Cmd) : Bool := c.opcode == 3 && c.fld 24 1 == id

/-- Go on when a condition on the entry's fields holds; else it completes with INVALID_FIELD and has no effect (18 R486). -/
def needFields (c : Cmd) (ok : Bool) (f : Hw → Hw) (h : Hw) : Hw := if ok then f h else endCmd c.id stInvalidField h

/-- How far a command has come, for one that waits. -/
def setProgress (c : Cmd) (n : Nat) (h : Hw) : Hw := modCmd c.id (fun x => { x with progress := n }) h

/-! ## Host data -/

/-- The data of an entry's buffer once all of it has arrived (17 R458, R459). -/
def dataOf (c : Cmd) (n : Nat) : Option Nat :=
  let k := (n + 4095) / 4096
  if (List.range k).all (fun i => (tget c.chunks i).isSome) then
    some ((List.range k).foldl (fun a i => a + tgetD c.chunks i 0 * 256 ^ (4096 * i)) 0)
  else none

/-- The first RTAG that no READ_REQ still holds (17 R459). -/
def freeTag (l : HostLink) : Nat :=
  ((List.range (l.reads.length + 1)).map (fun i => (l.rtagNext + i) % 65536)).find? (fun t => !l.reads.any (fun r => r.rtag = t)) |>.getD 0

/-- Ask the host for an entry's data, once. -/
def askData (c : Cmd) (n : Nat) (h : Hw) : Hw :=
  if c.asked then h else
  let h := modCmd c.id (fun x => { x with asked := true }) h
  (List.range ((n + 4095) / 4096)).foldl (fun h i =>
    let l := h.host.link
    let t := freeTag l
    let len := min 4096 (n - 4096 * i)
    let r : HRead := { rtag := t, cmd := c.id, chunk := i, addr := c.addr + 4096 * i, len }
    let l := { l with rtagNext := (t + 1) % 65536, reads := l.reads ++ [r] }
    let h := { h with host := { h.host with link := l } }
    sendMsg 1 (.readReq t len (c.addr + 4096 * i)) h) h

/-- Go on with an entry's data, or ask for it first (the row then runs again once it has arrived). -/
def withData (c : Cmd) (n : Nat) (f : Nat → Hw → Hw) (h : Hw) : Hw :=
  match dataOf c n with
  | some d => f d h
  | none => askData c n h

/-- Bytes of a number as a field, for building structures. -/
def bytesOf (l : List (Nat × Nat × Nat)) : Nat := l.foldl (fun a x => a + (x.2.2 % 256 ^ x.2.1) * 256 ^ x.1) 0

/-- A command that writes a structure of fixed size (18 R472): a smaller buffer is refused. -/
def writeStruct (c : Cmd) (n data : Nat) (h : Hw) : Hw :=
  if c.dataLen < n then endCmd c.id stInvalidField h else endCmd c.id stOk (hostWrite c.addr n data h)

end Sys2Proof.Machine
end

