-- ==== Sys2Proof/Machine/Dram.lean ====
section
/-!
DEFINITION. The correctable-error log (16 R442, R443), working memory's addresses and channels (13 R347 to R350, R355), the
memory-side adders (13 R351, 05 R159).
-/
namespace Sys2Proof.Machine

/-! ## The correctable-error log -/

def modDiu (f : Diu → Diu) (h : Hw) : Hw := { h with diu := f h.diu }

/-- A bit of DIU_EVT set (16 R447; 18 R595): 0 UNCORR, 1 VOTE_CORRECTED, 2 LOG_OVERFLOW, 3 REMAP_FULL. -/
def setDiuEvt (b : Nat) (h : Hw) : Hw :=
  if h.diu.evt.testBit b then h
  else raiseEvent 6 b (if b = 1 then 0 else 1) 0 0 (modDiu (fun d => { d with evt := d.evt + 2 ^ b }) h)

/-- A count of the health log's ERRORS (15 R429): 0 to 3 flash first-tier, second-tier, third-tier, uncorrectable; 4, 5 SRAM corrected,
uncorrectable; 6, 7 working memory; 8 host link replays; 9 flight replays. -/
def healthError (k n : Nat) (h : Hw) : Hw :=
  let old := tgetD h.mdm.errors k 0
  let v := satAdd 64 old n
  saturated 64 (64 + 8 * k) old v { h with mdm := { h.mdm with errors := tput h.mdm.errors k v } }

/-- The 24-hour count of an address (16 R442), 0 when it is not in the log. -/
def count24 (h : Hw) (ty addr : Nat) : Nat :=
  match (tgetD h.diu.logs ty {}).ents.find? (fun e => e.addr = addr) with
  | some e => e.c24
  | none => 0

/-- A log event of a unit type at an address (16 R443). -/
def logEvent (ty addr : Nat) (uncorr : Bool) (h : Hw) : Hw :=
  let l := tgetD h.diu.logs ty {}
  let tot := satAdd 25 l.total 1
  let h := saturated 25 (0xA0020 + 4 * ty) l.total tot h
  if l.ents.any (fun e => e.addr = addr) then
    let up := fun (e : LogEnt) => if e.addr = addr then
        { e with count := satAdd 32 e.count 1, c24 := satAdd 16 e.c24 1, uncorr := e.uncorr || uncorr } else e
    let i := l.ents.findIdx (fun e => e.addr = addr)
    let old := ((l.ents[i]?).map (fun e => e.count)).getD 0
    saturated 32 (776 * ty + 24 * i + 24) old (satAdd 32 old 1)
      (modDiu (fun d => { d with logs := tput d.logs ty { l with ents := l.ents.map up, total := tot } }) h)
  else if l.ents.length < 32 then
    modDiu (fun d => { d with logs := tput d.logs ty { l with
      ents := l.ents ++ [{ addr, first := now h, count := 1, c24 := 1, uncorr }], total := tot } }) h
  else
    setDiuEvt 2 (modDiu (fun d => { d with logs := tput d.logs ty { l with overflow := true, total := tot } }) h)

/-- The row of an address is marked REMAPPED in its log entry. -/
def logRemapped (ty addr : Nat) (h : Hw) : Hw :=
  modDiu (fun d => { d with logs := tmod d.logs ty {} (fun l =>
    { l with ents := l.ents.map (fun e => if e.addr = addr then { e with remapped := true } else e) }) }) h

/-- A codeword of SRAM corrected, or uncorrectable, as it is read for use (16 R436, R442): type 1 bay, 2 atrium, 3 accumulator. -/
def sramCorrected (ty addr : Nat) (h : Hw) : Hw := healthError 4 1 (logEvent ty addr false h)
def sramUncorrectable (h : Hw) : Hw := healthError 5 1 (setDiuEvt 0 h)

/-! ## Working memory -/

def modWmc (f : Wmc → Wmc) (h : Hw) : Hw := { h with wmc := f h.wmc }
def chan (h : Hw) (c : Nat) : Chan := tgetD h.wmc.chans c {}
def modChan (c : Nat) (f : Chan → Chan) (h : Hw) : Hw := modWmc (fun w => { w with chans := tmod w.chans c {} f }) h

/-- The channels in service, ascending (13 R349). -/
def chansUp (h : Hw) : List Nat := (List.range 64).filter (fun c => (chan h c).state ≠ 3)

/-- The work address of an object's byte (13 R347, R348, R352): the reserved regions come first (log 13). -/
def workAddr (cx : Context) (o : Obj) (off : Nat) : Nat :=
  let pos := o.place + off
  32 * 2 ^ 30 + (cx.frames[pos / 2 ^ 21]?).getD 0 * 2 ^ 21 + pos % 2 ^ 21

/-- The channel and the offset within it of a work address (13 R349). -/
def chanOf (h : Hw) (a : Nat) : Nat × Nat :=
  let up := chansUp h
  let n := max 1 up.length
  let g := a / 512
  let q := g / n
  ((up[(g + q + g / (n * n)) % n]?).getD 0, q * 512 + a % 512)

/-- A channel loss is in progress (13 R361, R363): the map is being reloaded or a partition is still to be reset for it. -/
def reconfiguring (h : Hw) : Bool :=
  h.wmc.reconfig && (h.mdm.pieces != [] || h.part.any (fun e => (e.2.resetting.map (fun r => r.cause)) == some 3))

/-- The requests of an access of `len` bytes, one for each 512-byte granule it touches (13 R349, R350). -/
def dramReqs (h : Hw) (cx : Context) (o : Obj) (key off len cls : Nat) (write : Bool) (thr : Option Thr) : List (Nat × DramReq) :=
  if len = 0 then [] else
  (List.range ((off % 512 + len + 511) / 512)).map (fun i =>
    let at_ := if i = 0 then off else (off / 512 + i) * 512
    let (c, p) := chanOf h (workAddr cx o at_)
    (c, { cls, write, since := now h, thr, key, word := at_ / 64, row := p / 4096 }))

/-- The accesses of a work-tier object enter its channels' queues (13 R350); other tiers have none. -/
def dramAccess (c g : Nat) (o : Obj) (off len cls : Nat) (write : Bool) (thr : Option Thr) (h : Hw) : Hw :=
  if o.tier ≠ 2 then h else
  (dramReqs h (ctx h c) o (objKey c o g) off len cls write thr).foldl (fun h (r : Nat × DramReq) =>
    modChan r.1 (fun x => { x with queue := x.queue ++ [r.2] }) h) h

/-- The next request of a channel (13 R350): by class, then by age; of those past the 64 entries of each queue none. -/
def nextReq (x : Chan) : Option DramReq :=
  let q := (x.queue.filter (fun r => !r.write)).take 64 ++ (x.queue.filter (fun r => r.write)).take 64
  q.foldl (fun (b : Option DramReq) (r : DramReq) => match b with
    | none => some r
    | some y => if r.cls < y.cls || (r.cls == y.cls && decide (r.since < y.since)) then some r else b) none

/-- DRAM_REQUEST_AGE_EXPIRY (13 R350): the request that has waited longest, 2 µs or more, is served next. -/
def ageExpiry (c : Nat) (h : Hw) : Hw :=
  match (chan h c).queue.find? (fun r => decide (200 ≤ now h - r.since) && r.cls != 0) with
  | none => h
  | some r => modChan c (fun x => { x with queue := { r with cls := 0 } :: x.queue.erase r }) h

/-- A row is due a remap (13 R358). -/
def remapDue (c row : Nat) (h : Hw) : Hw :=
  modChan c (fun x => if x.due.contains row || x.remap.any (fun e => e.1 = row) then x else { x with due := x.due ++ [row] }) h

/-- DRAM_REQUEST_SERVE (13 R350, R355, R358; 16 R438, R442): the channel serves its next request. `ecc`: 0 clean, 1 corrected, 2 an
uncorrectable word, which stays uncorrectable until a write covers it. -/
def requestServe (c ecc : Nat) (h : Hw) : Hw :=
  let x := chan h c
  if x.state = 1 ∨ x.state = 2 then h else
  match nextReq x with
  | none => h
  | some r =>
    let h := modChan c (fun x => { x with queue := x.queue.erase r }) h
    let addr := c + r.row * 64
    let spoil := fun (h : Hw) => if r.key = 0 then h else modMem h r.key (fun m => if m.bad.contains r.word then m else { m with bad := r.word :: m.bad })
    if x.state = 3 then spoil h
    else if r.write then h
    else if ecc = 1 then
      let h := healthError 6 1 (logEvent 0 addr false h)
      let h := if r.cls = 4 then modDiu (fun d => { d with wb := d.wb ++ [(1, c, r.row)] }) h else h
      if max 1 h.wmc.thresh ≤ count24 h 0 addr then remapDue c r.row h else h
    else if ecc = 2 then remapDue c r.row (healthError 7 1 (setDiuEvt 0 (spoil (if r.cls = 4 then logEvent 0 addr true h else h))))
    else h

/-! ## Adders (13 R351) -/

/-- One element added (05 R159): INT32 clamps under 03 R80, FP32 rounds under R71 and follows R75. -/
def addElem (fp : Bool) (old x : Word) : Word := if fp then f32Add old x else clamp32 (old.toInt + x.toInt)

/-- The elements added to an object's contents, in order; true when an element lay in an uncorrectable word, which stays as it was
(13 R356). -/
def addElems (tier : Nat) (fp : Bool) (off : Nat) (adds : List (Nat × Word)) (m : ObjMem) : ObjMem × Bool :=
  adds.foldl (fun (s : ObjMem × Bool) (e : Nat × Word) =>
    let a := off + e.1
    if s.1.isBad tier a 4 then (s.1, true) else
    let v := addElem fp (BitVec.ofNat 32 (s.1.readLE a 4)) e.2
    ((bytesAt a 4 v.toNat).foldl (fun m x => m.write x.1 x.2) s.1, s.2)) (m, false)

/-- A posted operation's effect has happened or was refused: its status is kept until the slot frees. -/
def arrivePost (g id status : Nat) (h : Hw) : Hw :=
  modGal h g (fun G => { G with post := G.post.map (fun p => if p.id = id then { p with arrived := true, status } else p) })

/-- MEMORY_SIDE_ADD (13 R351): the adder at the slice or channel applies the elements of a posted MADD as they arrive. -/
def memorySideAdd (g id : Nat) (h : Hw) : Hw :=
  match (gal h g).post.find? (fun p => p.id = id && !p.arrived) with
  | some { kind := .madd c a fp adds, .. } =>
    match (ctx h c).objs.find? (fun o => o.handle = addrHandle a) with
    | none => h
    | some o =>
      let (m, bad) := addElems o.tier fp (addrOff a) adds (objMem h (objKey c o g))
      let h := modMem h (objKey c o g) (fun _ => m)
      let h := adds.foldl (fun h (e : Nat × Word) => dramAccess c g o (addrOff a + e.1) 4 3 true none h) h
      arrivePost g id (if bad then stUncorrectable else stOk) h
  | _ => h

def execDramRequestServe (c ecc : Nat) (s : State) : Host.Outcome State Fault Refusal := act (decide (c < 64)) (requestServe c ecc) s
def execDramRequestAgeExpiry (c : Nat) (s : State) : Host.Outcome State Fault Refusal := act (decide (c < 64)) (ageExpiry c) s
def execMemorySideAdd (g id : Nat) (s : State) : Host.Outcome State Fault Refusal := act (decide (g < 96)) (memorySideAdd g id) s

end Sys2Proof.Machine
end

