-- ==== Sys2Proof/Machine/Ledger.lean ====
section
/-!
DEFINITION. Operating points, the grain ledger, revocation, power cap and thermal limits (02 R36 to R38, R42 to R57).
-/
namespace Sys2Proof.Machine

/-! ## Costs (R43), in tenths of a grain -/

/-- A gallery's cost with its scale stage at operating point `op`: mode 0 clock-gated, 1 stall mode, 2 shadow mode; any other
power-gated. -/
def galCost (op mode : Nat) : Nat :=
  let scale := match op with
    | 0 => 5
    | 1 => if Config.scaleRoundsUp then 4 else 3
    | _ => 2
  match mode with
  | 0 => 3
  | 1 => (match op with | 0 => 56 | 1 => 39 | _ => 23) + scale
  | 2 => (match op with | 0 => 64 | 1 => 44 | _ => 26) + scale
  | _ => 0

/-- The cost of a block in its working state; `mode` only matters for a gallery. -/
def reqCost (op mode : Nat) : Requester → Nat
  | .gallery _ => galCost op mode
  | .netBase => 1600
  | .hlu => 80
  | .ffu => 160
  | .probe => 180
  | .hostPhy => 96
  | .flight _ => 9
  | .landing _ => 10
  | .serdesCommon => 40
  | .flashStanding => 5760
  | .dieProgram _ => 10
  | .dieErase _ => 20
  | .csrWake a => if 0x100000 ≤ a ∧ a < 0x160000 then galCost op 1 else if 0x20000 ≤ a ∧ a < 0x30000 then 9 else 10

/-- The account of a block's rail (R42, R43): 0 VCORE, 1 VSERDES, 2 VFLASH. -/
def reqAcct : Requester → Nat
  | .gallery _ | .netBase | .hlu | .ffu | .probe => 0
  | .hostPhy | .flight _ | .landing _ | .serdesCommon => 1
  | .flashStanding | .dieProgram _ | .dieErase _ => 2
  | .csrWake a => if 0x100000 ≤ a ∧ a < 0x160000 then 0 else 1

/-- The level of a request (R46): 0 Warden and CSR wakes, 1 service blocks, 2 partition work. -/
def reqLevel : Requester → Nat
  | .csrWake _ => 0
  | .gallery _ | .probe => 2
  | _ => 1

def acct (w : Warden) (a : Nat) : Account := if a = 0 then w.vcore else if a = 1 then w.vserdes else w.vflash
def setAcct (h : Hw) (a : Nat) (x : Account) : Hw :=
  if a = 0 then { h with wdn := { h.wdn with vcore := x } }
  else if a = 1 then { h with wdn := { h.wdn with vserdes := x } } else { h with wdn := { h.wdn with vflash := x } }

/-- Capacities (R42). -/
def capacity (a : Nat) : Nat := if a = 0 then 10240 else if a = 1 then 1280 else 8800
def Account.sum (x : Account) : Nat := x.held.foldl (fun n g => n + g.amt) 0
def Account.heldBy (x : Account) (r : Requester) : Nat := (x.held.filter (fun g => g.who == r)).foldl (fun n g => n + g.amt) 0
def Account.waits (x : Account) : List Waiting := x.waiting.filter (fun w => !w.heldBack)

/-- The thermal limit on VCORE (R56), never below 300 grains (R54). -/
def thermCeil (w : Warden) : Nat := max 3000 w.thermCap

/-- The effective ceiling (R42, R54) and which source is lowest (WDN_LGR_EFF.LIMITER: 0 ceiling, 1 host cap, 2 thermal, 3 trip). -/
def effective (w : Warden) (a : Nat) : Nat × Nat :=
  let c := (acct w a).ceiling
  if a ≠ 0 then (c, 0) else
  let cap := max 3000 w.capLimit
  let lo := min (min c cap) (thermCeil w)
  (lo, if w.trip then 3 else if lo = c then 0 else if lo = cap then 1 else 2)

/-- An emergency stop is in force (24 R585). -/
def emstop (w : Warden) : Bool := w.emstopPin || w.emstopSmb
/-- Gallery grants are withheld (R56, 24 R585, 16 R441). -/
def galsWithheld (w : Warden) : Bool := w.trip || emstop w || w.voteSplit
/-- Program and erase pulses are withheld (R56, 24 R585, R590, 16 R441). -/
def pulsesWithheld (w : Warden) : Bool := galsWithheld w || w.flashHot

/-- A bit of WDN_LGR_EVT set: it raises its event when it was clear (R59). -/
def setLgrEvt (b : Nat) (h : Hw) : Hw :=
  if h.wdn.evt.getLsbD b then h
  else
    let sev := if b = 2 then 2 else if b = 3 then 0 else 1
    raiseEvent 0 b sev 0 0 { h with wdn := { h.wdn with evt := h.wdn.evt ||| BitVec.ofNat 5 (2 ^ b) } }

/-! ## Requests (R43, R45, R46) -/

/-- The class of a partition's grain requests: the running context's, or the incoming one's while a pre-emption runs (R52,
12 R328). -/
def partClass (h : Hw) (p : Nat) : Nat :=
  match (part h p).switch with
  | some s => (ctx h (4 * p + s.incoming)).cls
  | none => match (part h p).running with
    | some c => (ctx h (4 * p + c)).cls
    | none => 0

def reqClass (h : Hw) : Requester → Nat
  | .gallery g => match galPart h g with
    | some p => partClass h p
    | none => 0
  | .probe => max ((h.probe.scans.filter (fun x => !x.ended)).foldl (fun n x => max n (ctx h x.ctx).cls) 0)
      (h.probe.walks.foldl (fun n x => max n (ctx h x.ctx).cls) 0)
  | _ => 0

/-- The PLL a block needs is locked (02, before R36). -/
def pllLocked (w : Warden) : Requester → Bool
  | .gallery _ => w.pllArith
  | .netBase | .hlu | .ffu | .probe => w.pllNet
  | .landing l => w.pllLanding.getLsbD l
  | .dieProgram d | .dieErase d => w.pllLanding.getLsbD (d / 32)
  | _ => true

/-- The gallery's partition runs the LOWPOWER overlay: only the stall-mode cost is granted (R57). -/
def lowPower (h : Hw) (g : Nat) : Bool :=
  match galPart h g with
  | some p => decide ((part h p).ovl.ty = 5)
  | none => false

/-- The gallery holds at least its cost active in stall mode: without it its wing's domain stays gated (01 R21; R43, R44). -/
def galPowered (h : Hw) (g : Nat) : Bool := decide (galCost h.wdn.opCur 1 ≤ h.wdn.vcore.heldBy (.gallery g))

/-- The gallery holds the shadow-mode cost (R44; 07 R211). -/
def shadowMode (h : Hw) (g : Nat) : Bool := decide (galCost h.wdn.opCur 2 ≤ h.wdn.vcore.heldBy (.gallery g))

/-- What a block must hold in the state it asks for. -/
def reqWant (h : Hw) (mode : Nat) (r : Requester) : Nat :=
  match r with
  | .gallery g => reqCost h.wdn.opCur (if mode = 2 && lowPower h g then 1 else mode) r
  | _ => reqCost h.wdn.opCur mode r

/-- GRAIN_REQUEST: a block asks for the difference between the cost of a new state and what it holds or already asks for (R43).
A request of a block whose PLL is not locked is held back. -/
def grainRequest (r : Requester) (mode : Nat) (h : Hw) : Hw :=
  let a := reqAcct r
  let x := acct h.wdn a
  let asked := (x.waiting.filter (fun w => w.who == r)).foldl (fun n w => n + w.amt) 0
  let want := reqWant h mode r
  if want ≤ x.heldBy r + asked then h
  else setAcct h a { x with waiting := x.waiting ++
    [{ who := r, amt := want - x.heldBy r - asked, level := reqLevel r, cls := reqClass h r, since := now h
       heldBack := !pllLocked h.wdn r }] }

/-- Lower a block's grants to `keep` tenths; its waiting requests are withdrawn. -/
def Account.lower (x : Account) (r : Requester) (keep : Nat) : Account :=
  let old := x.held.find? (fun g => g.who == r)
  let rest := x.held.filter (fun g => g.who != r)
  let have_ := min keep (x.heldBy r)
  { x with waiting := x.waiting.filter (fun w => w.who != r)
           held := match old with
             | none => rest
             | some g => if have_ = 0 then rest else rest ++ [{ g with amt := have_ }] }

/-- GRAIN_RELEASE: a block drops to a state of lower cost; the release takes effect at once (R45). -/
def grainRelease (r : Requester) (mode : Nat) (h : Hw) : Hw :=
  let a := reqAcct r
  let keep := match r with
    | .gallery _ => reqWant h mode r
    | _ => 0
  setAcct h a ((acct h.wdn a).lower r keep)

/-! ## Revocation (R50, R51) -/

/-- The gallery grant to revoke next: lowest class first, and within a class the newest (R51). Only galleries above their
clock-gated cost can be revoked (R54). -/
def revokeNext (x : Account) (below : Nat) : Option Grant :=
  let cands := x.held.filter (fun g => (match g.who with | .gallery _ => true | _ => false) && decide (3 < g.amt) && decide (g.cls < below))
  cands.foldl (fun best g => match best with
    | none => some g
    | some b => if g.cls < b.cls || (g.cls == b.cls && decide (b.order < g.order)) then some g else best) none

/-- One gallery stalls with all state held and drops to its clock-gated cost, its scale stage to 0; its request re-enters the
queue at its original age (R51). -/
def revokeOne (g : Grant) (h : Hw) : Hw :=
  let x := h.wdn.vcore
  let n := satAdd 32 x.revokes 1
  let held := (x.held.filter (fun y => y.who != g.who)) ++ [{ g with amt := 3 }]
  let w : Waiting := { who := g.who, amt := x.heldBy g.who - 3, level := 2, cls := reqClass h g.who, since := g.since }
  let h := setAcct h 0 { x with held := held, waiting := x.waiting ++ [w], revokes := n }
  let h := saturated 32 0x20C x.revokes n h
  match g.who with
  | .gallery i => modGal h i (fun G => { G with stalled := true })
  | _ => h

/-- Revoke galleries of a class below `below` until the grants held plus `need` fit the effective ceiling, or none is left.
At most one revocation per gallery. -/
def revokeUntil (need below : Nat) : Nat → Hw → Hw
  | 0, h => h
  | k + 1, h =>
    if h.wdn.vcore.sum + need ≤ (effective h.wdn 0).1 then h
    else match revokeNext h.wdn.vcore below with
      | none => h
      | some g => revokeUntil need below k (revokeOne g h)

/-- Revoke every gallery grant (R37, R50, R56, 24 R585). -/
def revokeAll (h : Hw) : Hw :=
  (List.range 96).foldl (fun h g => match h.wdn.vcore.held.find? (fun x => x.who == .gallery g && decide (3 < x.amt)) with
    | some x => revokeOne x h
    | none => h) h

/-! ## Arbitration (R45 to R49) -/

/-- `a` is served before `b` (R46): by level, in partition work by class, then by age. -/
def before (a b : Waiting) : Bool :=
  if a.level ≠ b.level then decide (a.level < b.level)
  else if a.level = 2 ∧ a.cls ≠ b.cls then decide (b.cls < a.cls)
  else decide (a.since < b.since)

/-- Insert in the order of R46; equal requests keep their order. -/
def insertBy (lt : Waiting → Waiting → Bool) (x : Waiting) : List Waiting → List Waiting
  | [] => [x]
  | y :: r => if lt x y then x :: y :: r else y :: insertBy lt x r

def ordered (l : List Waiting) : List Waiting := l.foldl (fun acc x => insertBy before x acc) []

/-- The grant rise limit per µs (R42), 0 for none. -/
def riseLimit (a : Nat) : Nat := if a = 0 then 640 else if a = 1 then 160 else 0

/-- The request may be granted now as far as emergency stop, trip and pulses go. -/
def notWithheld (w : Warden) : Requester → Bool
  | .gallery _ => !galsWithheld w
  | .dieProgram _ | .dieErase _ => !pulsesWithheld w
  | _ => true

/-- The request fits: grants held plus it within the effective ceiling; an erase pulse leaves 64 grains free (R45, R49). -/
def fits (w : Warden) (a : Nat) (x : Account) (q : Waiting) : Bool :=
  let room := match q.who with
    | .dieErase _ => 640
    | _ => 0
  decide (x.sum + q.amt + room ≤ (effective w a).1)

/-- A grant made: the block holds it in one entry, newest order; a gallery that was stalled resumes (R51). -/
def giveGrant (a : Nat) (q : Waiting) (h : Hw) : Hw :=
  let x := acct h.wdn a
  let amt := x.heldBy q.who + q.amt
  let gr : Grant := { who := q.who, amt, level := q.level, cls := q.cls, since := q.since, order := x.nextOrder }
  let gone := x.waiting.findIdx (fun w => w == q)
  let h := setAcct h a { x with held := (x.held.filter (fun g => g.who != q.who)) ++ [gr], waiting := x.waiting.eraseIdx gone
                                nextOrder := x.nextOrder + 1, risen := x.risen + q.amt }
  match q.who with
  | .gallery g => modGal h g (fun G => { G with stalled := false })
  | _ => h

/-- Serve the requests of one account in order, `head` until one did not fit: each whole or not at all; a smaller one passes a head that
does not fit for up to 1 ms of the head's waiting (R47); a request the rise limit stops, and all behind it, wait for the next µs (R48). A
request that is withheld (R56; 24 R585, R590) is passed by. -/
def serve (a : Nat) (head : Bool) : List Waiting → Hw → Hw
  | [], h => h
  | q :: r, h =>
    let x := acct h.wdn a
    let lim := riseLimit a
    if !notWithheld h.wdn q.who then serve a head r h
    else if fits h.wdn a x q then
      if lim ≠ 0 ∧ x.risen ≠ 0 ∧ lim < x.risen + q.amt then h else serve a head r (giveGrant a q h)
    else if head && decide (100000 ≤ now h - q.since) then h
    else serve a false r h

/-- LEDGER_ARBITRATION of one account (R45): the rise window moves on, grants above a lowered VCORE ceiling are revoked (R50),
then the waiting requests are served. The 25 % watch and the last wait of R38 are kept. -/
def arbitrate (a : Nat) (h : Hw) : Hw :=
  let t := now h
  let x := acct h.wdn a
  let us := (t - x.riseFrom) / 100
  let h := setAcct h a { x with risen := x.risen - us * riseLimit a, riseFrom := x.riseFrom + us * 100 }
  let h := if a = 0 then revokeUntil 0 4 96 h else h
  let h := serve a true (ordered (acct h.wdn a).waits) h
  if a ≠ 0 then h else
  let ws := h.wdn.vcore.waits.filter (fun w => match w.who with | .gallery _ => true | _ => false)
  let left := ws.foldl (fun n w => n + w.amt) 0
  let would := ws.foldl (fun n w => n + w.amt + h.wdn.vcore.heldBy w.who) 0
  let low := decide (would < 4 * left)
  { h with wdn := { h.wdn with
      opLowSince := if low then some (h.wdn.opLowSince.getD t) else none
      opLastWait := if ws.isEmpty then h.wdn.opLastWait else t } }

/-- HEAD_BLOCKED (R47): the head request of the account has waited 1 ms without fitting. -/
def headBlockedEv (a : Nat) (h : Hw) : Hw :=
  match (ordered (acct h.wdn a).waits).filter (fun q => notWithheld h.wdn q.who) with
  | [] => h
  | q :: _ =>
    if 100000 ≤ now h - q.since ∧ !fits h.wdn a (acct h.wdn a) q then
      setLgrEvt 4 (setAcct h a { acct h.wdn a with headBlocked := true })
    else h

/-- REVOCATION_WAIT_EXPIRY (R50): a request in partition work has waited 50 µs while galleries of a strictly lower class hold
grants; only as much is revoked as it needs. -/
def revocationWait (h : Hw) : Hw :=
  match (ordered h.wdn.vcore.waits).find? (fun q => q.level = 2 && decide (5000 ≤ now h - q.since) && !fits h.wdn 0 h.wdn.vcore q) with
  | none => h
  | some q => revokeUntil q.amt q.cls 96 h

/-! ## Operating points (R36 to R38) -/

/-- What a gallery's grant becomes when the point changes (R36): its state's cost at the new point. -/
def recostAmt (old new : Nat) (r : Requester) (n : Nat) : Nat :=
  match r with
  | .gallery _ => if n = galCost old 2 then galCost new 2 else if n = galCost old 1 then galCost new 1 else n
  | _ => n

/-- Waiting requests at new costs: each asks the difference from what its block would hold before it. -/
def recostWaits (conv : Requester → Nat → Nat) (base : Requester → Nat) : List Waiting → List Waiting
  | [] => []
  | q :: r => { q with amt := conv q.who (base q.who + q.amt) - conv q.who (base q.who) } ::
      recostWaits conv (fun w => if w == q.who then base w + q.amt else base w) r

/-- Every gallery grant and waiting request at the new point's cost (R36). -/
def recost (old new : Nat) (h : Hw) : Hw :=
  let x := h.wdn.vcore
  setAcct h 0 { x with held := x.held.map (fun g => { g with amt := recostAmt old new g.who g.amt })
                       waiting := recostWaits (recostAmt old new) x.heldBy x.waiting }

/-- OPPOINT_CHANGE (R37): the wings' grants are revoked as a throttle, the arithmetic PLL relocks at the requested point, the
grants are recomputed and each wing returns to its former state, all within the step; no group is abandoned. -/
def opPointChange (h : Hw) : Hw :=
  match h.wdn.opReq with
  | none => h
  | some p =>
    let n := (h.wdn.vcore.held.filter (fun g => (match g.who with | .gallery _ => true | _ => false) && decide (3 < g.amt))).length
    let old := h.wdn.opCur
    let rv := satAdd 32 h.wdn.vcore.revokes n
    let h := saturated 32 0x20C h.wdn.vcore.revokes rv (setAcct h 0 { h.wdn.vcore with revokes := rv })
    let h := recost old p h
    setLgrEvt 3 { h with wdn := { h.wdn with opCur := p, opReq := none, pllArith := true } }

/-- AUTO_OPPOINT_LOWER (R38): one step lower, never below FLOOR, after 100 ms without a break. -/
def autoLower (h : Hw) : Hw :=
  match h.wdn.opLowSince with
  | none => h
  | some t =>
    if h.wdn.opAuto ∧ 10000000 ≤ now h - t ∧ h.wdn.opCur < min 2 h.wdn.opFloor then
      { h with wdn := { h.wdn with opReq := some (h.wdn.opCur + 1), opLowSince := none } }
    else h

/-- AUTO_OPPOINT_RAISE (R38): one step higher when no gallery request has waited for 1 s. -/
def autoRaise (h : Hw) : Hw :=
  if h.wdn.opAuto ∧ 0 < h.wdn.opCur ∧ 100000000 ≤ now h - h.wdn.opLastWait then
    { h with wdn := { h.wdn with opReq := some (h.wdn.opCur - 1), opLastWait := now h } }
  else h

/-! ## Power cap and temperature (R55, R56) -/

/-- A limit on VCORE lowered by `n` from the effective ceiling in force, and bit `b` of WDN_LGR_EVT when that lowered it (R54 to R56). -/
def lowerCeil (n b : Nat) (put : Nat → Warden → Warden) (h : Hw) : Hw :=
  let e := (effective h.wdn 0).1
  let l := max 3000 (e - n)
  let h := { h with wdn := put l h.wdn }
  if l < e then setLgrEvt b h else h

/-- A limit on VCORE raised by `n`; at the ceiling it limits nothing more (R55, R56). -/
def raised (w : Warden) (n l : Nat) : Nat := if w.vcore.ceiling ≤ l + n then 10240 else l + n

/-- POWER_CAP_SAMPLE (R55): input power measured every 1 ms; with a cap set, the VCORE limit moves in steps of 8 grains so that the
mean of the last 10 ms stays at or below the cap. -/
def powerCapSample (p : Nat) (h : Hw) : Hw :=
  let h := { h with wdn := { h.wdn with inputPower := p } }
  match h.wdn.cap with
  | none => h
  | some c =>
    let ss := (p :: h.wdn.capSamples).take 10
    let total := ss.foldl (· + ·) 0
    let h := { h with wdn := { h.wdn with capSamples := ss } }
    if c * 10 * ss.length < total then lowerCeil 80 0 (fun l w => { w with capLimit := l }) h
    else { h with wdn := { h.wdn with capLimit := raised h.wdn 80 h.wdn.capLimit } }

/-- Readings of the junction sensors, 0 to 31 (24 R589), in 1/16 °C. -/
def junctions (w : Warden) : List Int := (w.sensors.filter (fun e => e.1 < 32)).map (fun e => e.2)
def hottest (w : Warden) : Int := (junctions w).foldl max 0

/-- THERMAL_STEP (R56): 5 % of capacity lower while a junction is above the limit, and on until every junction reads below it;
restored in the same steps once every junction is 5 °C below. -/
def thermalStep (h : Hw) : Hw :=
  let t := hottest h.wdn
  let lim : Int := 16 * (h.wdn.thermLimit : Int)
  if lim < t ∨ (lim ≤ t ∧ h.wdn.thermLow) then lowerCeil 512 1 (fun l w => { w with thermCap := l, thermLow := true }) h
  else if t ≤ lim - 80 then { h with wdn := { h.wdn with thermCap := raised h.wdn 512 h.wdn.thermCap, thermLow := false } }
  else { h with wdn := { h.wdn with thermLow := false } }

/-- THERMAL_TRIP (R56): at 115 °C every gallery grant is revoked and pulses are withheld. -/
def thermalTrip (h : Hw) : Hw :=
  if 16 * 115 ≤ hottest h.wdn ∧ !h.wdn.trip then
    setLgrEvt 2 (revokeAll { h with wdn := { h.wdn with trip := true } })
  else h

/-- THERMAL_TRIP_END (R56): every junction sensor reads below 105 °C. -/
def thermalTripEnd (h : Hw) : Hw :=
  if hottest h.wdn < 16 * 105 then { h with wdn := { h.wdn with trip := false } } else h

/-- PLL_LOCK (01 R23): requests held back for the PLL's blocks begin to wait now. PLLs: 0 arithmetic, 1 network, 2 DRAM, 3 + l
landing l. -/
def pllLock (k : Nat) (h : Hw) : Hw :=
  let w := match k with
    | 0 => { h.wdn with pllArith := true }
    | 1 => { h.wdn with pllNet := true }
    | 2 => { h.wdn with pllDram := true }
    | k => { h.wdn with pllLanding := h.wdn.pllLanding ||| BitVec.ofNat 16 (2 ^ (k - 3)) }
  let free := fun (x : Account) => { x with waiting := x.waiting.map (fun q =>
    if q.heldBack && pllLocked w q.who then { q with heldBack := false, since := now h } else q) }
  { h with wdn := { w with vcore := free w.vcore, vserdes := free w.vserdes, vflash := free w.vflash } }

/-! ## The commands -/

/-- The units a requester names exist (00 R5). -/
def okReq : Requester → Bool
  | .gallery g => decide (g < 96)
  | .flight f => decide (f < 64)
  | .landing l => decide (l < 16)
  | .dieProgram d | .dieErase d => decide (d < 512)
  | _ => true

def execGrainRequest (r : Requester) (mode : Nat) (s : State) : Host.Outcome State Fault Refusal := act (okReq r) (grainRequest r mode) s
def execGrainRelease (r : Requester) (mode : Nat) (s : State) : Host.Outcome State Fault Refusal := act (okReq r) (grainRelease r mode) s
def execLedgerArbitration (a : Nat) (s : State) : Host.Outcome State Fault Refusal := act (decide (a < 3)) (arbitrate a) s
def execHeadBlocked (a : Nat) (s : State) : Host.Outcome State Fault Refusal := act (decide (a < 3)) (headBlockedEv a) s
def execRevocationWaitExpiry (s : State) : Host.Outcome State Fault Refusal := act true revocationWait s
def execOppointChange (s : State) : Host.Outcome State Fault Refusal := act true opPointChange s
def execAutoOppointLower (s : State) : Host.Outcome State Fault Refusal := act true autoLower s
def execAutoOppointRaise (s : State) : Host.Outcome State Fault Refusal := act true autoRaise s
def execPowerCapSample (p : Nat) (s : State) : Host.Outcome State Fault Refusal := act true (powerCapSample p) s
def execThermalStep (s : State) : Host.Outcome State Fault Refusal := act true thermalStep s
def execThermalTrip (s : State) : Host.Outcome State Fault Refusal := act true thermalTrip s
def execThermalTripEnd (s : State) : Host.Outcome State Fault Refusal := act true thermalTripEnd s
def execPllLock (k : Nat) (s : State) : Host.Outcome State Fault Refusal := act (decide (k < 19)) (pllLock k) s

end Sys2Proof.Machine
end

