-- ==== Sys2Proof/Machine/Fabric.lean ====
section
/-!
DEFINITION. The flight fabric (19 R494 to R507, R515, R518): flights, routing, forwarding, the response store's credits.
-/
namespace Sys2Proof.Machine

def modFfu (f : Ffu → Ffu) (h : Hw) : Hw := { h with ffu := f h.ffu }
def flight (h : Hw) (f : Nat) : Flight := tgetD h.ffu.flights f {}
def modFlight (f : Nat) (k : Flight → Flight) (h : Hw) : Hw := modFfu (fun u => { u with flights := tmod u.flights f {} k }) h

/-- A bit of FFU_EVT set: it raises its event when it was clear (19 R518; 18 R595). -/
def setFfuEvt (b inst : Nat) (h : Hw) : Hw :=
  if h.ffu.evt.testBit b then h
  else
    let sev := if b = 3 then 2 else if b = 6 then 0 else 1
    raiseEvent 2 b sev inst 0 (modFfu (fun u => { u with evt := u.evt + 2 ^ b }) h)

def seatOf (id : Nat) : Nat := id % 32
def hallOf (id : Nat) : Nat := id / 32
def assigned (h : Hw) : Bool := h.ffu.id != 0x3FFF

/-- The flight carries routed traffic (19 R494, R495, R498, R518). -/
def carries (h : Hw) (f : Nat) : Bool :=
  let x := flight h f
  x.state = 2 && !x.mute && x.loop = 0 && !x.disable && assigned h

/-! ## Routing (R502 to R505) -/

/-- FFU_GROUTE of a hall as its valid exits in order: seat and global flight less 32 (R518). -/
def exitsOf (h : Hw) (hall : Nat) : List (Nat × Nat) :=
  let w := (tgetD h.ffu.groute hall 0).toNat
  (if w.testBit 15 then [(w / 2 ^ 10 % 32, w / 2 ^ 5 % 32)] else []) ++ (if w.testBit 31 then [(w / 2 ^ 26 % 32, w / 2 ^ 21 % 32)] else [])

/-- An exit's load from 0 to 3 when its global flight is up (R504): the own flight's, or the hall peer's last LINK_STATE. -/
def exitLoad (h : Hw) (e : Nat × Nat) : Option Nat :=
  let v := tgetD (tgetD h.ffu.hall e.1 []) e.2 0
  if e.1 = seatOf h.ffu.id then (if carries h (32 + e.2) then some (v % 4) else none) else if 4 ≤ v then some (v % 4) else none

/-- The exits a source may use for a hall, best first (R504): by load with ADAPTIVE, exit 0 first on equal load or without it. -/
def upExits (h : Hw) (hall : Nat) : List (Nat × Nat) :=
  let up := (exitsOf h hall).filter (fun e => (exitLoad h e).isSome)
  match up with
  | [a, b] => if h.ffu.adaptive && decide ((exitLoad h b).getD 0 < (exitLoad h a).getD 0) then [b, a] else up
  | _ => up

/-- Misrouting (R505): the intermediate hall's exit, by load and then by hall number. -/
def misrouteExit (h : Hw) (dest : Nat) : Option (Nat × Nat) :=
  let cands := (List.range 512).filter (fun k => k ≠ hallOf h.ffu.id && k ≠ dest) |>.flatMap (fun k => (upExits h k).map (fun e => ((exitLoad h e).getD 0, e)))
  (cands.foldl (fun (b : Option (Nat × Nat × Nat)) (c : Nat × Nat × Nat) => match b with
    | none => some c
    | some x => if c.1 < x.1 then some c else b) none).map (fun x => x.2)

/-- The flight toward a seat of the own hall (R503): direct, else the spare once; with the packet's DETOUR. -/
def towardSeat (h : Hw) (t : Nat) (p : Packet) : Option (Nat × Packet) :=
  let f := (t + 64 - seatOf h.ffu.id - 1) % 32
  if carries h f then some (f, p)
  else if !p.detour && p.inFlight ≠ 31 && carries h 31 then some (31, { p with detour := true })
  else none

/-- The next hop of a packet whose exit is chosen: flight 64 delivers it here (R502, R503). -/
def nextHop (h : Hw) (p : Packet) : Option (Nat × Packet) :=
  if p.dest = h.ffu.id then some (64, p) else
  let global := fun (g : Nat) => if carries h (32 + g) then some (32 + g, { p with detour := false, hops := p.hops + 1, exit := none }) else none
  if hallOf p.dest = hallOf h.ffu.id then towardSeat h (seatOf p.dest) p
  else match p.exit with
    | none => none
    | some e => if e.1 = seatOf h.ffu.id then global e.2 else towardSeat h e.1 p

/-- The routes a packet may take from its source of a hall segment, best first (R504, R505). -/
def routes (h : Hw) (p : Packet) : List (Nat × Packet) :=
  if p.dest = h.ffu.id ∨ hallOf p.dest = hallOf h.ffu.id then (nextHop h p).toList
  else
    let es := upExits h (hallOf p.dest)
    let loaded := es.all (fun e => (exitLoad h e).getD 3 = 3)
    let direct := es.filterMap (fun e => nextHop h { p with exit := some e })
    if loaded && h.ffu.adaptive && decide (p.misroutes < min 2 h.ffu.misLimit) && !p.misrouted then
      match misrouteExit h (hallOf p.dest) with
      | some e => (nextHop h { p with exit := some e, misrouted := true, misroutes := p.misroutes + 1 }).toList ++ direct
      | none => direct
    else direct

/-! ## Flights' credits and transmission (R497 to R499) -/

/-- The class of a message type (R501): 0 REQ, 1 RSP, 2 ATOM, 3 MGT. -/
def pktClass (ty : Nat) : Nat := if ty = 0x10 then 2 else if 0xC0 ≤ ty then 3 else if 0x81 ≤ ty then 1 else 0
def knownType (ty : Nat) : Bool := [1, 2, 3, 4, 5, 0x10, 0x81, 0x82, 0x83, 0x84].contains ty
def rxBuf (cls : Nat) : Nat := match cls with | 0 => 128 | 1 => 512 | 2 => 64 | _ => 16
/-- Flits of a message: header and body in payloads of 116 bytes (R497). -/
def pktFlits (p : Packet) : Nat := (16 + p.len + 115) / 116
def pktVc (p : Packet) : Nat := min 3 p.hops

/-- The flight has credits for the whole message and room in its replay buffer of 1,024 flits (R498, R499). -/
def canSend (x : Flight) (p : Packet) : Bool :=
  let k := pktClass p.ty * 4 + pktVc p
  decide (tgetD x.used k 0 + pktFlits p ≤ rxBuf (pktClass p.ty)) && decide (x.replay.foldl (fun n (r : Nat × Packet) => n + pktFlits r.2) 0 + pktFlits p ≤ 1024)

def transmit (f : Nat) (p : Packet) (h : Hw) : Hw :=
  modFlight f (fun x => { x with
    txNext := (x.txNext + pktFlits p) % 4096, replay := x.replay ++ [((x.txNext + pktFlits p - 1) % 4096, p)]
    used := tmod x.used (pktClass p.ty * 4 + pktVc p) 0 (fun n => n + pktFlits p) }) h

/-- A packet put into the router (R505): it waits to be forwarded. -/
def enqueuePkt (p : Packet) (h : Hw) : Hw := modFfu (fun u => { u with wait := u.wait ++ [{ p with since := now h }] }) h

/-- A response to a request (R501): DATA 0x81, ACK 0x82, NACK 0x83, RELEASE 0x84. -/
def reply (q : Packet) (ty status reason : Nat) (h : Hw) : Hw :=
  enqueuePkt { dest := q.src, src := h.ffu.id, ty, tag := q.tag, status, peer := q.peer, len := if ty = 0x83 then 8 else 0, body := reason } h

/-- A request a router drops (R506; ROUTE_MISSING when it has no exit, R518): NACK DROPPED to the issuer; a dropped response is discarded. -/
def dropPkt (p : Packet) (noExit : Bool) (h : Hw) : Hw :=
  let h := if noExit then setFfuEvt 4 0 h else h
  if pktClass p.ty = 1 then h else reply p 0x83 0 1 h

/-- AGE with the time spent waiting here, in units of 100 ns (R501). -/
def pktAged (p : Packet) (t : Nat) : Packet := { p with age := min 0xFFFF (p.age + (t - p.since) / 10) }

/-- A packet that starts a hall segment here and has no exit yet: its routes; otherwise its one next hop. -/
def hopOf (h : Hw) (p : Packet) : Option (Nat × Packet) :=
  if p.exit.isSome ∨ hallOf p.dest = hallOf h.ffu.id then nextHop h p else (routes h p).head?

/-- The output flight, class and channel that packets compete for (R505). -/
def outKey (f : Nat) (q : Packet) : Nat := f * 16 + pktClass q.ty * 4 + pktVc q

/-- How many input flights come before a packet's own in round-robin order at its output (R505); the module itself comes after flight 63. -/
def pktTurn (h : Hw) (p : Packet) : Nat := match hopOf h p with
  | some (f, q) => if f = 64 then 0 else (p.inFlight + 64 - tgetD h.ffu.turns (outKey f q) 64) % 65
  | none => 0

/-- What the routers order by: AGE, then the round-robin order of the input flights (R505). -/
def pktRank (h : Hw) (p : Packet) : Nat := 65 * (pktAged p (now h)).age + (64 - pktTurn h p)

/-- PACKET_FORWARD (R501 to R506): of the waiting packets that can leave now or must be dropped, the one of greatest AGE, on equal AGE
in round-robin order of the input flights. A delivered packet is left for its service row, at the end of the waiting list (inFlight 65). -/
def packetForward (h : Hw) : Hw :=
  let t := now h
  let live := h.ffu.wait.filter (fun p => p.inFlight ≠ 65 && (match hopOf h p with
    | some (f, q) => f = 64 || canSend (flight h f) q
    | none => true))
  match live.foldl (fun (b : Option Packet) (p : Packet) => match b with
    | none => some p
    | some x => if pktRank h x < pktRank h p then some p else b) none with
  | none => h
  | some p =>
    let h := modFfu (fun u => { u with wait := u.wait.erase p }) h
    if !knownType p.ty then setFfuEvt 5 0 h
    else match hopOf h p with
      | none => dropPkt p (p.exit.isNone && decide (hallOf p.dest ≠ hallOf h.ffu.id)) h
      | some (f, q) =>
        if f = 64 then modFfu (fun u => { u with wait := u.wait ++ [{ q with inFlight := 65 }] }) h
        else transmit f (pktAged { q with inFlight := 64 } t) (modFfu (fun u => { u with turns := tput u.turns (outKey f q) p.inFlight }) h)

/-! ## Issuing requests (R507) -/

/-- What becomes of a request at issue: sent with its tag, no route or no module ID (REMOTE_UNREACHABLE), or no credit free. -/
inductive Issued where
  | sent (h : Hw) (tag : Nat)
  | unreachable
  | noCredit

/-- Credits of a context in use on a flight. -/
def creditsUsed (h : Hw) (c f : Nat) : Nat := (h.ffu.reqs.filter (fun r => r.ctx = c && r.flight = some f)).length

/-- The lowest tag that no entry of the response store holds. -/
def freeReqTag (h : Hw) : Nat := ((List.range 32768).find? (fun t => !h.ffu.reqs.any (fun r => r.tag = t))).getD 0

/-- The issuer's route with a credit free on its first-hop flight (R507). -/
def pickRoute (h : Hw) (c : Nat) (p : Packet) : Option (Nat × Packet) :=
  (routes h p).find? (fun r => r.1 = 64 || decide (creditsUsed h c r.1 < (ctx h c).credits))

/-- The packet as it enters the router: the exit and marks of the chosen route, with no hop taken yet. -/
def routed (p q : Packet) (e : Option (Nat × Nat)) : Packet := { p with exit := e, misrouted := q.misrouted, misroutes := q.misroutes }

/-- The exit whose first hop is the chosen one. -/
def routeExit (h : Hw) (p : Packet) (f : Nat) : Option (Nat × Nat) :=
  if hallOf p.dest = hallOf h.ffu.id then none
  else ((upExits h (hallOf p.dest)) ++ (misrouteExit h (hallOf p.dest)).toList).find? (fun e => match nextHop h { p with exit := some e } with
    | some (g, _) => g = f
    | none => false)

/-- Issue a request of context `c`: a response-store entry and a credit are held from now on (R507). -/
def issueReq (c : Nat) (kind : ReqKind) (dest ty len body : Nat) (h : Hw) : Issued :=
  let p : Packet := { dest, src := h.ffu.id, ty, tag := freeReqTag h, peer := c / 4 + 16 * (c % 4), len, body }
  if !assigned h || (routes h p).isEmpty then .unreachable
  else match pickRoute h c p with
    | none => .noCredit
    | some (f, q) =>
      let pk := routed p q (routeExit h p f)
      let r : Req := { tag := p.tag, ctx := c, kind, pkt := p, flight := some f, since := now h }
      .sent (enqueuePkt pk (modFfu (fun u => { u with reqs := u.reqs ++ [r] }) h)) p.tag

/-! ## The life of a flight (R495, R496, R498, R500, R515) -/

/-- A change of a global flight's state is told to the hall (R504). -/
def stateChanged (f : Nat) (h : Hw) : Hw := if 32 ≤ f then modFfu (fun u => { u with linkDue := true }) h else h

/-- CABLE_DETECT (24 R578): CBL_PRES# changed. A flight with a cable asks for its grains; without one it is off and holds none (R500). -/
def cableDetect (f : Nat) (present : Bool) (h : Hw) : Hw :=
  if present then grainRequest (.flight f) 0 (modFlight f (fun x => { x with cable := true }) h)
  else grainRelease (.flight f) 0 (stateChanged f (modFlight f (fun x => { x with cable := false, state := 0, width := 0 }) h))

/-- CABLE_SUPPLY_OVERLOAD (24 R578): the connector's 3V3_CBL supply is removed from that connector alone. -/
def supplyOverload (f : Nat) (h : Hw) : Hw := modFlight f (fun x => { x with supply := false }) h

/-- FLIGHT_TRAINING (R496, R500): with its grant, and not in ROM service (20 R527), the flight trains; `lanes` passed (bit n: lane n), the round trip in 10 ns units. -/
def flightTraining (f lanes rtt : Nat) (h : Hw) : Hw :=
  let x := flight h f
  if !x.cable || x.disable || x.state = 2 || h.wdn.vserdes.heldBy (.flight f) < 9 || h.boot.stage = 15 then h else
  let w := if lanes % 16 = 15 then 4 else if lanes % 4 = 3 ∨ lanes / 4 % 4 = 3 then 2 else 0
  let h := modFlight f (fun x => { x with
    state := if w = 0 then 1 else 2, width := w, rtt, rxNext := 0, txNext := 0, dropping := false, replay := [], used := [], replayRun := 0
    retrainFails := 0, mute := true }) h
  let h := stateChanged f h
  if w = 2 then setFfuEvt 1 f h else h

/-- The seat that a hall flight or the spare must reach (R495). -/
def cabledSeat (s f : Nat) : Nat := if f = 31 then s ^^^ 1 else (s + f + 1) % 32

/-- HELLO (R495): the peer's module ID decides whether the flight carries routed traffic. -/
def hello (f peer : Nat) (h : Hw) : Hw :=
  let h := modFlight f (fun x => { x with peer }) h
  if peer = h.ffu.id ∧ assigned h then setFfuEvt 3 f (modFlight f (fun x => { x with mute := true }) h)
  else if f < 32 ∧ assigned h ∧ peer ≠ hallOf h.ffu.id * 32 + cabledSeat (seatOf h.ffu.id) f then
    setFfuEvt 2 f (modFlight f (fun x => { x with mute := true }) h)
  else modFlight f (fun x => { x with mute := false }) h

/-- Sequence number `a` comes at or before `b` on a 12-bit counter (00 R10). -/
def seqLe (a b : Nat) : Bool := decide ((b + 4096 - a) % 4096 < 2048)

/-- FLIGHT_FLIT_RECEIVE (R498, R499): a bad flit, and all after it until its SEQ comes again, are dropped, and one that had come before alone; acknowledged messages leave the
replay buffer; returned credits are taken; a whole message enters the router. -/
def flightFlit (f : Nat) (x : FlightFlit) (h : Hw) : Hw :=
  let F := flight h f
  if F.state ≠ 2 then h
  else if x.fecBad then
    let n := satAdd 8 F.fec 1
    saturated 8 (0x20008 + f * 0x400) F.fec n (modFlight f (fun y => { y with fec := n, dropping := true }) h)
  else if !x.good then modFlight f (fun y => { y with dropping := true }) h
  else if !x.idle && x.seq != F.rxNext then
    (if seqLe (x.seq + 1) F.rxNext then h else modFlight f (fun y => { y with dropping := true }) h)
  else if x.idle && F.dropping then h
  else
    let h := match x.ack with
      | none => h
      | some a => modFlight f (fun y =>
          let left := y.replay.filter (fun r => !seqLe r.1 a)
          { y with replay := left, replayRun := if left.length = y.replay.length then y.replayRun else 0 }) h
    let h := modFlight f (fun y => { y with used := tmod y.used x.crSel 0 (· - x.crCount) }) h
    if x.idle then h
    else
      let h := modFlight f (fun y => { y with rxNext := (y.rxNext + 1) % 4096, dropping := false }) h
      match x.msg with
      | none => h
      | some p =>
        if !assigned h then h
        else if F.mute ∨ F.loop ≠ 0 then h
        else enqueuePkt { p with inFlight := f } h

/-- FLIGHT_REPLAY_TIMEOUT (R498): the oldest unacknowledged flit is sent again and counted; a flight with nothing unacknowledged does not replay. -/
def flightReplay (f : Nat) (h : Hw) : Hw :=
  let F := flight h f
  if F.replay.isEmpty ∨ F.state ≠ 2 then h else
  let n := satAdd 16 F.replays 1
  saturated 16 (0x20008 + f * 0x400) F.replays n (healthError 9 1 (modFlight f (fun x => { x with replays := n, replayRun := x.replayRun + 1 }) h))

/-- FLIGHT_LOST (R515): traffic routes around it; a request with a flit unacknowledged there gets NACK LOST; responses are lost. -/
def flightLost (f : Nat) (h : Hw) : Hw :=
  let F := flight h f
  let h := modFlight f (fun x => { x with state := 4, width := 0, replay := [], used := [] }) h
  let h := stateChanged f (setFfuEvt 0 f h)
  F.replay.foldl (fun h r => if pktClass r.2.ty = 0 ∨ pktClass r.2.ty = 2 then reply r.2 0x83 0 2 h else h) h

/-- The FLIGHT_LOST row: three retrains in succession have failed, or DISABLE is set (R498). -/
def flightLostEv (f : Nat) (h : Hw) : Hw :=
  let F := flight h f
  if F.state ≠ 4 ∧ F.state ≠ 0 ∧ (3 ≤ F.retrainFails ∨ F.disable) then flightLost f h else h

/-- FLIGHT_RETRAIN (R496, R498): after 8 replays of one flit in succession, or after a failed retrain; `ok` tells its outcome. The
replay buffer is kept. -/
def flightRetrain (f : Nat) (ok : Bool) (h : Hw) : Hw :=
  let F := flight h f
  if F.state ≠ 2 ∧ F.state ≠ 1 ∨ (F.replayRun < 8 ∧ F.retrainFails = 0) then h else
  let n := satAdd 8 F.retrains 1
  let h := saturated 8 (0x20008 + f * 0x400) F.retrains n (modFlight f (fun x => { x with retrains := n }) h)
  if ok then modFlight f (fun x => { x with state := 2, replayRun := 0, retrainFails := 0, dropping := false }) h
  else modFlight f (fun x => { x with state := 1, retrainFails := x.retrainFails + 1 }) h

/-- FLIGHT_WAKE (R500): a WAKE burst brings a low-power flight up once it has its grains. -/
def flightWake (f : Nat) (h : Hw) : Hw :=
  let F := flight h f
  if F.state ≠ 3 then h
  else if h.wdn.vserdes.heldBy (.flight f) < 9 then grainRequest (.flight f) 0 h
  else stateChanged f (modFlight f (fun x => { x with state := 2 }) h)

/-- LINK_STATE (R504): a hall peer's 32 global flights, each load + 4 when up. -/
def linkState (seat : Nat) (st : List Nat) (h : Hw) : Hw :=
  modFfu (fun u => { u with hall := tput u.hall seat ((List.range 32).filterMap (fun i => match (st[i]?).getD 0 with
    | 0 => none
    | v => some (i, v))) }) h

/-- LINK_STATE_PERIODIC (R504): the own global flights' states, with the loads measured, are told to every hall peer: at once after a
change, and when 100 µs have passed. -/
def linkPeriodic (loads : List Nat) (h : Hw) : Hw :=
  if !assigned h ∨ !(h.ffu.linkDue || decide (10000 ≤ now h - h.ffu.linkSent)) then h else
  let own := (List.range 32).map (fun i => (i, (if carries h (32 + i) then 4 else 0) + (loads[i]?).getD 0 % 4))
  let h := modFfu (fun u => { u with hall := tput u.hall (seatOf u.id) (own.filter (fun e => e.2 ≠ 0)), linkSent := now h, linkDue := false }) h
  let body := own.foldl (fun a (e : Nat × Nat) => a + e.2 * 16 ^ e.1) 0
  (List.range 31).foldl (fun h f => if carries h f then
    let p : Packet := { dest := (flight h f).peer, src := h.ffu.id, ty := 0xC1, len := 16, body }
    if canSend (flight h f) p then transmit f p h else h
  else h) h

/-! ## The commands -/

def execFlightTraining (f lanes rtt : Nat) (s : State) : Host.Outcome State Fault Refusal := act (decide (f < 64)) (flightTraining f lanes rtt) s
def execHello (f peer : Nat) (s : State) : Host.Outcome State Fault Refusal := act (decide (f < 64)) (hello f peer) s
def execFlightFlitReceive (f : Nat) (x : FlightFlit) (s : State) : Host.Outcome State Fault Refusal := act (decide (f < 64)) (flightFlit f x) s
def execFlightReplayTimeout (f : Nat) (s : State) : Host.Outcome State Fault Refusal := act (decide (f < 64)) (flightReplay f) s
def execFlightRetrain (f : Nat) (ok : Bool) (s : State) : Host.Outcome State Fault Refusal := act (decide (f < 64)) (flightRetrain f ok) s
def execFlightLost (f : Nat) (s : State) : Host.Outcome State Fault Refusal := act (decide (f < 64)) (flightLostEv f) s
def execFlightWake (f : Nat) (s : State) : Host.Outcome State Fault Refusal := act (decide (f < 64)) (flightWake f) s
def execLinkState (seat : Nat) (st : List Nat) (s : State) : Host.Outcome State Fault Refusal := act (decide (seat < 32)) (linkState seat st) s
def execLinkStatePeriodic (loads : List Nat) (s : State) : Host.Outcome State Fault Refusal := act true (linkPeriodic loads) s
def execPacketForward (s : State) : Host.Outcome State Fault Refusal := act true packetForward s
def execCableDetect (f : Nat) (present : Bool) (s : State) : Host.Outcome State Fault Refusal := act (decide (f < 64)) (cableDetect f present) s
def execCableSupplyOverload (f : Nat) (s : State) : Host.Outcome State Fault Refusal := act (decide (f < 64)) (supplyOverload f) s

end Sys2Proof.Machine
end

