-- ==== Sys2Proof/Machine/Issue.lean ====
section
/-!
DEFINITION. Issue (04 R86, 05 R131), the guard (05 R125), group legality (04 R106, R107; 06 R172), and taking a program fault
(04 R87, R117): the shared frame of every instruction's meaning.
-/
namespace Sys2Proof.Machine

/-! ## Groups -/

/-- The thread holds the gallery's open group (04 R105). -/
def isHolder (h : Hw) (th : Thr) : Bool :=
  match (gal h th.g).group with
  | some G => G.holder == th.t
  | none => false

/-- Take a gallery out of every convoy of its wing (07 R224). -/
def leaveConvoys (g : Nat) (h : Hw) : Hw :=
  modWing h (g / 8) (fun W => { W with convoys :=
    (W.convoys.map (fun c => { c with members := c.members.filter (fun m => m.g != g) })).filter (fun c => !c.members.isEmpty) })

/-- The object bytes a drain writes become undefined (06 R180; 08 R237). -/
def forgetDrain (c g : Nat) (op : ArrOp) (h : Hw) : Hw :=
  let t := tileOf op.desc
  match fmtOf t.fmt, (ctx h c).objs.find? (fun o => o.handle = addrHandle t.base) with
  | some f, some o =>
    let (e, h) := freshEpoch h
    let h := (List.range t.major).foldl
      (fun h n => modMem h (objKey c o g) (fun m => m.forget (addrOff t.base + n * t.stride) (t.lineBytes f) e)) h
    let h := if f.isMx then
        match (ctx h c).objs.find? (fun o => o.handle = addrHandle t.sbase) with
        | some os => (List.range t.major).foldl
            (fun h n => modMem h (objKey c os g) (fun m => m.forget (addrOff t.sbase + n * t.scaleStride f) (t.minor / 32) e)) h
        | none => h
      else h
    match op.mxs with
    | none => h
    | some a =>
      match (ctx h c).objs.find? (fun o => o.handle = addrHandle a) with
      | some om => modMem h (objKey c om g) (fun m => m.forget (addrOff a) (8 * t.major) e)
      | none => h
  | _, _ => h

/-- An instruction that thread `t` issued and that is not yet carried out is dropped: its thread is no longer where it issued. -/
def dropLatch (t : Nat) (G : Gallery) : Gallery :=
  { G with latch := match G.latch with
    | some (u, w) => if u = t then none else some (u, w)
    | none => none }

/-- Abandonment of the open group of a gallery (04 R108, 06 R180, 07 R224): the recorded registers come back, the holder is
at its TOPEN again, the accumulators are undefined, every tile instruction is discarded, the stationary sets await the
reload of 04 R89, the gallery leaves its convoys. -/
def abandonGroup (c g : Nat) (h : Hw) : Hw :=
  match (gal h g).group with
  | none => h
  | some G =>
    let h := match (gal h g).queue.find? (fun o => o.kind = .drain && o.started) with
      | some op => forgetDrain c g op h
      | none => h
    let (e, h) := freshEpoch h
    let h := modThr h { g, t := G.holder } (fun T =>
      { T with st := .ready, s := G.s, p := G.p, t := G.t, stack := G.stack, code := G.code, pc := G.pc, branchFrom := none
               v := G.v.foldl (fun v x => tput v x.1 x.2) T.v })
    let put := fun (r : Tbl TloadRec) (k : Nat) (o : Option TloadRec) => match o with
      | some x => tput r k x
      | none => tdel r k
    let h := modGal h g (fun L =>
      { L with group := none, queue := [], loader := none, pipe := [], fifo := [], active := G.active, actOf := tput L.actOf (c % 4) G.active, acc := []
               accZero := false, accEpoch := e, set0 := { L.set0 with undef := true }, set1 := { L.set1 with undef := true }
               recs := put (put L.recs (2 * (c % 4)) G.rec0) (2 * (c % 4) + 1) G.rec1 })
    leaveConvoys g (modGal h g (dropLatch G.holder))

/-- The running loads of a context that outlast their group are dropped. -/
def dropLoads (c : Nat) (h : Hw) : Hw :=
  (partGals h (c / 4)).foldl (fun h g => modGal h g (fun G => { G with loader := G.loader.filter (fun L => decide (L.ctx ≠ c)) })) h

/-- Abandon every open group a context holds. -/
def abandonAll (c : Nat) (h : Hw) : Hw :=
  dropLoads c <|
  (partGals h (c / 4)).foldl (fun h g =>
    match (gal h g).group with
    | some G => if thrCtx h { g, t := G.holder } == some c then abandonGroup c g h else h
    | none => h) h

/-! ## Faults -/

/-- A context stops with a fault record (04 R87, R117): none of its threads issues, its open groups are abandoned. The teardown
of 12 R335 follows. The first record is kept. -/
def stopContext (c : Nat) (r : FaultRec) (h : Hw) : Hw :=
  if (ctx h c).stopped then h
  else abandonAll c (modCtx h c (fun x => { x with stopped := true, fault := some r }))

/-- A thread takes a program fault (04 R117): the record names the cause, its logical gallery, its index and the PC. -/
def takeFault (th : Thr) (cause pc : Nat) (h : Hw) : Hw :=
  match thrCtx h th with
  | none => h
  | some c => stopContext c { cause, gallery := logicalOf h (c / 4) th.g, thread := th.t - (ctx h c).first, pc } h

/-! ## The frame of an instruction -/

/-- How an instruction ends: at the next word, at a target, blocked (its completion finishes it), to be issued again, or
with a program fault. The delay is in cycles from the issue (05 R131, 06 R201). -/
inductive IRes where
  | next (h : Hw) (delay : Nat)
  | goto (h : Hw) (code pc : Nat)
  | block (h : Hw) (w : Wait)
  | again (h : Hw) (w : Wait)
  | fault (cause : Nat)

/-- Apply the end of an instruction issued by `th`. -/
def finish (th : Thr) (h0 : Hw) (r : IRes) : Hw :=
  let pc := (thread h0 th).pc
  let cyc := (gal h0 th.g).cycle
  match r with
  | .next h d => modThr h th (fun T => { T with st := .ready, pc := pc + 8, branchFrom := none, notBefore := cyc + d })
  | .goto h code tgt =>
    modThr h th (fun T => { T with st := .ready, code := code, pc := tgt, branchFrom := some pc, notBefore := cyc + 3 })
  | .block h w => modThr h th (fun T => { T with st := .blocked w, pc := pc + 8, branchFrom := none, notBefore := cyc + 1 })
  | .again h w => modThr h th (fun T => { T with st := .blocked w })
  | .fault c => takeFault th c pc h0

/-- The group-legal instructions (04 R106). -/
def groupLegal : IsaOp → Bool
  | .br | .brc | .call | .ret | .yield | .ld | .pref | .fence | .geom | .csrr => true
  | .smov | .sadd | .ssub | .smul | .sand | .sor | .sxor | .sshl | .sshr | .ssra | .smin | .smax | .scmp => true
  | .tload | .tswap | .tstream | .tstreamt | .tdrain => true
  | _ => false

/-- The tile instructions that act only inside the issuing thread's group (06 R172). -/
def needsGroup : IsaOp → Bool
  | .tload | .tswap | .tstream | .tstreamt | .tdrain => true
  | _ => false

/-- The instruction raises GROUP_ILLEGAL (04 R106, R107; 06 R172). -/
def groupIllegal (h : Hw) (th : Thr) (o : IsaOp) : Bool :=
  if isHolder h th then !groupLegal o else needsGroup o

/-- The gallery's issue latch holds this thread with this instruction word: the sequencer has issued it (04 R86). -/
def issued (h : Hw) (th : Thr) (o : IsaOp) (f : Fields) : Bool :=
  (gal h th.g).latch == some (th.t, some (encodeWord o f))

/-- The guard: bit 0 of p[G] exclusive-ORed with GN (05 R125). -/
def guardPass (T : Thread) (f : Fields) : Bool := (T.preg f.gd.toNat).getLsbD 0 != f.gn

/-- An issued instruction: GROUP_ILLEGAL first, since word and lease alone decide it, then the guard, then the instruction's own
rule `body`, given its context. A command for an instruction that was not issued changes nothing (log 3). -/
def runIsa (o : IsaOp) (th : Thr) (f : Fields) (body : Nat → Hw → IRes) (h : Hw) : Hw :=
  if !issued h th o f then h else
  let h := modGal h th.g (fun G => { G with latch := none })
  if groupIllegal h th o then finish th h (.fault cGroupIllegal)
  else if !guardPass (thread h th) f then finish th h (.next h 1)
  else match thrCtx h th with
    | none => h
    | some c => finish th h (body c h)

/-- Wake a blocked thread: it is READY (and issues when its context runs, 05 R133). -/
def wake (th : Thr) (f : Thread → Thread) (h : Hw) : Hw :=
  modThr h th (fun T => { f T with st := .ready, notBefore := (gal h th.g).cycle + 1 })

/-- Threads of a gallery blocked on a wait that `p` accepts become READY to issue their instruction again. -/
def wakeAgain (g : Nat) (p : Wait → Bool) (h : Hw) : Hw :=
  modGal h g (fun G => { G with thr := G.thr.map (fun e =>
    match e.2.st with
    | .blocked w => if p w then (e.1, { e.2 with st := .ready }) else e
    | _ => e) })

/-! ## Issue -/

/-- A thread the sequencer may choose this cycle (04 R86): READY, of the running or a lent context, not before its next issue. -/
def canIssue (h : Hw) (g t : Nat) : Bool :=
  match thrCtx h { g, t } with
  | none => false
  | some c =>
    let T := thread h { g, t }
    T.st == .ready && mayRun h c g && decide (T.notBefore ≤ (gal h g).cycle)

/-- The instruction word at a thread's PC, or the cause of 05 R137. -/
def fetchWord (h : Hw) (c : Nat) (th : Thr) : Except Nat DWord :=
  let T := thread h th
  match checkAccess (ctx h c) (mkAddr T.code T.pc) 8 .x [1, 2] 8 with
  | .bad e => .error e
  | .ok o off =>
    let m := objMem h (objKey c o th.g)
    if m.isBad o.tier off 8 then .error cUncorrectable else .ok (BitVec.ofNat 64 (m.readLE off 8))

/-- The gallery's stream in progress, served by a convoy, waits for a row (07 R227, WAIT_STREAM). -/
def streamWaits (h : Hw) (g : Nat) : Bool :=
  let G := gal h g
  match G.queue with
  | op :: _ => (op.kind = .stream || op.kind = .streamT) && op.started && G.fifo.isEmpty && decide (G.lastEntry < G.cycle)
      && (wing h (g / 8)).convoys.any (fun v => v.members.any (fun m => m.g == g))
  | [] => false

/-- The cycle of a gallery's sequencer counted (04 R86), in GAL_PERF_STREAM while its stream waits for a row (07 R227) and toward GROUP_LIMIT
while an outgoing group is open (12 R327). -/
def countCycle (g : Nat) (h : Hw) : Hw :=
  let G := gal h g
  let waits := streamWaits h g
  let h := modGal h g (fun G => { G with cycle := G.cycle + 1 })
  let h := if waits then
      let n := satAdd 32 G.perfStream 1
      saturated 32 (0x10004C + g * 0x1000) G.perfStream n (modGal h g (fun G => { G with perfStream := n }))
    else h
  match galPart h g with
    | none => h
    | some p => modPart h p (fun P => { P with switch := P.switch.map (fun s =>
        if G.group.isSome then { s with counted := tmod s.counted g 0 (· + 1) } else s) })

/-- The chosen thread's word, or the cause for which there is none, waits to be carried out. -/
def latchIssued (t : Nat) (w : Except Nat DWord) (G : Gallery) : Gallery :=
  match w with
  | .ok w => { G with last := t, latch := some (t, some w) }
  | .error e => { G with last := t, latch := some (t, none), latchFault := e }

/-- One thread that can issue is chosen in round-robin order after `last`, the last that issued, and its word fetched (04 R86, 05 R137). -/
def pickThread (g last : Nat) (h : Hw) : Hw :=
  match ((List.range 64).map (fun i => (last + 1 + i) % 64)).find? (fun t => canIssue h g t) with
  | none => h
  | some t =>
    match thrCtx h { g, t } with
    | none => h
    | some c => modGal h g (latchIssued t (fetchWord h c { g, t }))

/-- One ACLK cycle of a gallery's sequencer (04 R86): a stalled gallery holds all state and counts WAIT_REVOKE (02 R51, 07 R227);
one without its grant does nothing (01 R21); otherwise the cycle is counted and one thread issues. While an issued instruction is not yet carried
out nothing more issues (log 4). -/
def issueSelect (g : Nat) (h : Hw) : Hw :=
  if (wing h (g / 8)).sleep ≠ 0 then h else
  let G := gal h g
  if G.stalled then
    let n := satAdd 32 G.perfRevoke 1
    saturated 32 (0x100050 + g * 0x1000) G.perfRevoke n (modGal h g (fun G => { G with perfRevoke := n }))
  else if G.latch.isSome || !galPowered h g then h else pickThread g G.last (countCycle g h)

/-- PROGRAM_FAULT (04 R117): the thread whose word could not be fetched (05 R137, the record carries the PC of the branch), or
whose word has no defined class and opcode (05 R126), takes its fault and its context stops. -/
def programFault (g : Nat) (h : Hw) : Hw :=
  match (gal h g).latch with
  | none => h
  | some (t, none) =>
    let T := thread h { g, t }
    takeFault { g, t } (gal h g).latchFault (T.branchFrom.getD T.pc) (modGal h g (fun G => { G with latch := none }))
  | some (t, some w) =>
    if (decodeWord w).isSome then h
    else takeFault { g, t } cIllegalOpcode (thread h { g, t }).pc (modGal h g (fun G => { G with latch := none }))

def okThr (th : Thr) : Bool := decide (th.g < 96) && decide (th.t < 64)

def execIssueSelect (g : Nat) (s : State) : Host.Outcome State Fault Refusal := act (decide (g < 96)) (issueSelect g) s
def execProgramFault (g : Nat) (s : State) : Host.Outcome State Fault Refusal := act (decide (g < 96)) (programFault g) s

end Sys2Proof.Machine
end

