-- ==== Sys2Proof/Machine/Calib.lean ====
section
/-!
DEFINITION. The scale stage: banks, calibration slots, histograms and adaptation (06 R190, chapter 09).
-/
namespace Sys2Proof.Machine

/-! ## Banks (06 R190, 08 R234) -/

def Bank.scaleAt (b : Bank) (j : Nat) : Word := tgetD b.scale j f32One
def Bank.offAt (b : Bank) (j : Nat) : Word := tgetD b.off j 0
def Bank.zpAt (b : Bank) (j : Nat) : BitVec 8 := tgetD b.zp j 0

def vsuOf (G : Gallery) (c : Nat) : VsuCtx := tgetD G.vsu (c % 4) {}
def modVsu (h : Hw) (g c : Nat) (f : VsuCtx → VsuCtx) : Hw := modGal h g (fun G => { G with vsu := tmod G.vsu (c % 4) {} f })
/-- The reset value of VSU_SLOT_CFG in a partition: overlay key 0x0021 (20 R532), else as mapped (09 R265). -/
def slotCfg0 (h : Hw) (p : Nat) : Word :=
  match (part h p).ovl.keys.find? (fun k => k.1 = 0x21) with
  | some k => BitVec.ofNat 32 k.2
  | none => 0x00402220
def slotOf (h : Hw) (g c s : Nat) : Slot := tgetD (vsuOf (gal h g) c).slots s { cfg := slotCfg0 h (c / 4) }
def modSlot (h : Hw) (g c s : Nat) (f : Slot → Slot) : Hw :=
  modVsu h g c (fun V => { V with slots := tput V.slots s (f (slotOf h g c s)) })

/-! ## Slot configuration (09 R265) -/

def Slot.target (s : Slot) : Nat := (s.cfg.extractLsb' 0 4).toNat
def Slot.asym (s : Slot) : Bool := s.cfg.getLsbD 4
def Slot.colGran (s : Slot) : Bool := s.cfg.getLsbD 5
def Slot.clip (s : Slot) : Nat := (s.cfg.extractLsb' 8 2).toNat
def Slot.weight (s : Slot) : Nat := (s.cfg.extractLsb' 12 3).toNat
def Slot.satLimit (s : Slot) : Nat := (s.cfg.extractLsb' 16 16).toNat

/-- QMIN and QMAX (09 R247). -/
def qLimits (target : Nat) (asym : Bool) : Int × Int :=
  match target with
  | 0 => if asym then (-128, 127) else (-127, 127)
  | 1 => (0, 255)
  | _ => (-7, 7)

/-- BASE_EXP of a slot's step histogram (09 R254). -/
def Slot.baseExp (s : Slot) : Int := if s.target = 2 then -11 else -7

/-! ## Histograms (09 R252, R253) -/

/-- Where a non-NaN value falls: 0 ZERO, 1 UNDER, 2 OVER, 3 + n bin n (09 R252). -/
def binOf (base : Int) (w : Word) : Nat :=
  match f32Val w with
  | .nan => 2
  | .inf _ => 2
  | .fin _ m e =>
    if m = 0 then 0 else
    let ex : Int := (Nat.log2 m : Int) + e
    if m < 2 ^ 23 ∨ ex < base then 1
    else if base + 16 ≤ ex then 2
    else 3 + (4 * (ex - base)).toNat + (m / 2 ^ 21) % 4

/-- A counter or bin of a histogram advanced by one: it sticks at all-ones and then sets SATURATED (09 R253). -/
def histInc (v : Nat) : Nat × Bool := if v < 2 ^ 32 - 1 then (v + 1, false) else (v, true)

/-- One value added to a histogram (09 R253); a zero counts as +0 in MIN and MAX. -/
def Hist.add (h : Hist) (base : Int) (w : Word) : Hist :=
  if f32IsNaN w then
    let (n, s) := histInc h.nan
    { h with nan := n, saturated := h.saturated || s }
  else
    let w0 : Word := if f32IsZero w then 0 else w
    let (t, s0) := histInc h.total
    let neg := f32Lt w 0
    let (ng, s1) := if neg then histInc h.neg else (h.neg, false)
    let h := { h with total := t, neg := ng, mn := f32Min h.mn w0, mx := f32Max h.mx w0, saturated := h.saturated || s0 || s1 }
    match binOf base w with
    | 0 => let (n, s) := histInc h.zero; { h with zero := n, saturated := h.saturated || s }
    | 1 => let (n, s) := histInc h.under; { h with under := n, saturated := h.saturated || s }
    | 2 => let (n, s) := histInc h.above; { h with above := n, saturated := h.saturated || s }
    | k => let (n, s) := histInc (tgetD h.bins (k - 3) 0); { h with bins := tput h.bins (k - 3) n, saturated := h.saturated || s }

/-! ## Observation (09 R255) -/

/-- A completed drain is observed when the ACTIVE bank's tag carries its slot's current version. -/
def observed (h : Hw) (g c : Nat) : Bool :=
  let a := (vsuOf (gal h g) c).active
  a.ver = (slotOf h g c a.slot).ver

/-- The drained values (column, y) and counts of an observed drain enter its slot: histogram, column minimum and maximum,
NARROWED and CLAMPED (09 R255). -/
def observe (g c : Nat) (ys : List (Nat × Word)) (narrowed clamped : Nat) (h : Hw) : Hw :=
  if !observed h g c then h else
  let a := (vsuOf (gal h g) c).active
  let old := slotOf h g c a.slot
  let reg := 0x100000 + 0x1000 * g + 0x100 * (c % 4) + 4 * a.slot
  let h := saturated 32 (reg + 0x960) old.narrowed (satAdd 32 old.narrowed narrowed) h
  let h := saturated 32 (reg + 0x980) old.clamped (satAdd 32 old.clamped clamped) h
  modSlot h g c a.slot (fun s =>
    let s := ys.foldl (fun s x =>
      let s := { s with hist := s.hist.add s.baseExp x.2 }
      if f32IsNaN x.2 then s else
      { s with cmin := tput s.cmin x.1 (f32Min (tgetD s.cmin x.1 0x7F800000) x.2)
               cmax := tput s.cmax x.1 (f32Max (tgetD s.cmax x.1 0xFF800000) x.2) }) s
    { s with observed := true, narrowed := satAdd 32 s.narrowed narrowed, clamped := satAdd 32 s.clamped clamped })

/-! ## Commits (09 R256 to R262) -/

/-- The upper edge of bin `n`, 2^(BASE_EXP + n/4) × (1 + (n mod 4 + 1)/4), in FP32 (09 R252). -/
def upperEdge (base : Int) (n : Nat) : Word := f32Round false (5 + n % 4) 1 (base + ((n / 4 : Nat) : Int) - 2)

/-- ⌈P × nonnan⌉ for CLIP 1 to 3: 99.999 %, 99.99 %, 99.9 % (09 R265). -/
def clipNeed (clip nonnan : Nat) : Nat :=
  match clip with
  | 1 => (99999 * nonnan + 99999) / 100000
  | 2 => (9999 * nonnan + 9999) / 10000
  | _ => (999 * nonnan + 999) / 1000

def f32MaxAbs (a b : Word) : Word := f32Max (f32Abs a) (f32Abs b)

/-- The clip value c and the ratio ρ of 09 R257. -/
def clipOf (s : Slot) : Word × Word :=
  let amax := f32MaxAbs s.hist.mn s.hist.mx
  if s.clip = 0 ∨ s.hist.total = 0 then (amax, f32One) else
  let need := clipNeed s.clip s.hist.total
  let run := s.hist.zero
  let (run, c) := if run < need then (run + s.hist.under, f32Round false 1 1 s.baseExp) else (run, (0 : Word))
  let (run, c) := (List.range 64).foldl (fun (a : Nat × Word) n =>
    if a.1 < need then (a.1 + tgetD s.hist.bins n 0, upperEdge s.baseExp n) else a) (run, c)
  let c := if run < need then amax else c
  if f32IsZero c then (c, f32One) else (c, f32Min f32One (f32Div c amax))

/-- A column is degenerate: every non-NaN value it contributed equals one value (09 R249). -/
def Slot.degenerateAt (s : Slot) (j : Nat) : Bool :=
  (tget s.cmin j).isSome && f32Eq (tgetD s.cmin j 0) (tgetD s.cmax j 0)

def w32 (x : Int) : Word := f32OfInt x

/-- The smoothed state of a column at the start of an incarnation (09 R254). -/
def Slot.mAt (s : Slot) (j : Nat) : Word := tgetD s.m j (w32 (qLimits s.target s.asym).2)
def Slot.loAt (s : Slot) (j : Nat) : Word := tgetD s.lo j (w32 (qLimits s.target s.asym).1)
def Slot.hiAt (s : Slot) (j : Nat) : Word := tgetD s.hi j (w32 (qLimits s.target s.asym).2)
def Slot.bAt (s : Slot) (j : Nat) : Word := tgetD s.b j 0

/-- (1 − w) × old + w × t, each operation FP32 (09 R257). -/
def smooth (wt old t : Word) : Word := f32Add (f32Mul (f32Sub f32One wt) old) (f32Mul wt t)

/-- The state of column `j` after an adaptation, before its scale is computed (09 R249, R257). For a degenerate column the
second part is its SCALE, chosen by the degenerate rule with zero point 0. -/
def adaptCol (s : Slot) (old : Bank) (wt c rho : Word) (j : Nat) : Slot × Option Word :=
  let so := old.scaleAt j
  let (_, qmax) := qLimits s.target s.asym
  if s.degenerateAt j then
    let v := f32Div (tgetD s.cmin j 0) so
    let mag := f32Abs v
    let top : Int := if s.target = 2 then 7 else 127
    -- Δ is 1.0 for v = 0, else |v| ÷ 127 (÷ 7 for INT4); the bank holds 1 ÷ Δ (R246)
    let delta := if f32IsZero v then f32One else f32Div mag (w32 top)
    let sc := f32Div f32One delta
    ({ s with m := tput s.m j (f32Div (w32 qmax) sc)
              lo := tput s.lo j (f32Div (w32 (qLimits s.target s.asym).1) sc), hi := tput s.hi j (f32Div (w32 qmax) sc) }, some sc)
  else if (tget s.cmin j).isSome then
    let amax := f32MaxAbs s.hist.mn s.hist.mx
    let colmax := f32MaxAbs (tgetD s.cmin j 0) (tgetD s.cmax j 0)
    let t := if s.colGran then f32Div (f32Mul rho colmax) so
      else f32Div (if f32Lt rho f32One then c else amax) so
    if s.asym then
      let ymin := if s.colGran then tgetD s.cmin j 0 else s.hist.mn
      let ymax := if s.colGran then tgetD s.cmax j 0 else s.hist.mx
      ({ s with lo := tput s.lo j (f32Add (f32Mul (f32Sub f32One wt) (s.loAt j)) (f32Div (f32Mul (f32Mul wt rho) (f32Min ymin 0)) so))
                hi := tput s.hi j (f32Add (f32Mul (f32Sub f32One wt) (s.hiAt j)) (f32Div (f32Mul (f32Mul wt rho) (f32Max ymax 0)) so)) },
       none)
    else ({ s with m := tput s.m j (smooth wt (s.mAt j) t) }, none)
  else (s, none)

/-- SCALE, OFFSET and ZERO_POINT of column `j` from its state (09 R257). -/
def bankCol (s : Slot) (j : Nat) : Word × Word × BitVec 8 :=
  let (qmin, qmax) := qLimits s.target s.asym
  if s.asym then
    let sc := f32Div (w32 (qmax - qmin)) (f32Sub (s.hiAt j) (s.loAt j))
    let r := (f32ToInt32 (f32Mul (s.loAt j) sc)).toInt
    let z := max qmin (min qmax (qmin - r))
    (sc, f32Mul (s.bAt j) sc, BitVec.ofInt 8 z)
  else
    let sc := f32Div (w32 qmax) (s.mAt j)
    (sc, f32Mul (s.bAt j) sc, 0)

/-- ⌊65,536 × CLAMPED ÷ NARROWED⌋, 0 when nothing was narrowed; sticks at 0xFFFF (09 R258). -/
def Slot.frac (s : Slot) : Nat := if s.narrowed = 0 then 0 else min 0xFFFF (65536 * s.clamped / s.narrowed)

/-- WARMUP of a gallery (09 R265). -/
def warmupOf (h : Hw) (g : Nat) : Nat := (gal h g).warmup

/-- The slot is in start-up (09 R261). -/
def Slot.inStartup (s : Slot) (warm : Nat) : Bool := decide (s.startAdapts < warm)

/-- A seed (09 R256): the state of each column whose SCALE is positive and finite comes from the bank. -/
def seedSlot (s : Slot) (b : Bank) (cs : Nat) : Slot :=
  let (qmin, qmax) := qLimits s.target s.asym
  let s := (List.range cs).foldl (fun s j =>
    let sc := b.scaleAt j
    if f32Lt 0 sc && !f32IsInf sc then
      let z : Int := if s.target = 1 then ((b.zpAt j).toNat : Int) else (b.zpAt j).toInt
      { s with m := tput s.m j (f32Div (w32 qmax) sc), lo := tput s.lo j (f32Div (w32 (qmin - z)) sc)
               hi := tput s.hi j (f32Div (w32 (qmax - z)) sc), b := tput s.b j (f32Div (b.offAt j) sc) }
    else s) s
  { s with seeded := true, adapts := 0, startAdapts := 0 }

/-- The step's statistics emptied (09 R256). -/
def Slot.clear (s : Slot) : Slot := { s with hist := {}, cmin := [], cmax := [], observed := false, narrowed := 0, clamped := 0 }

/-- VSU_SLOT target and mode allow an adaptation (09 R256). -/
def Slot.adaptable (s : Slot) : Bool := decide (s.target < 3) && !(s.target = 2 && s.asym)

/-- A commit of the PENDING bank of context `c` on gallery `g` (09 R256 to R262): the state after it and VSCALE's status word. -/
def commitBank (g c : Nat) (h : Hw) : Hw × DWord :=
  let V := vsuOf (gal h g) c
  let auto := V.sel.getLsbD 8
  let k := (V.sel.extractLsb' 0 3).toNat
  let s := slotOf h g c k
  let cs := cols h g
  if auto && !s.adaptable then (h, stWord [(stInvalidField, 0)]) else
  let ver := (V.pend.ver + 1) % 65536
  let startup := s.inStartup (warmupOf h g)
  let frac := s.frac
  let noobs := !s.observed
  if !auto then
    let b := { V.pend with ver := ver, slot := k }
    let s' := { (seedSlot s b cs).clear with ver := ver, satFrac := frac, noobs := noobs, degenerate := false, rerun := false, degen := 0 }
    let h := modSlot h g c k (fun _ => s')
    (modVsu h g c (fun V => { V with pend := b, waiting := true }),
     stWord [(bit startup, 11), (bit noobs, 12), (ver, 16), (frac, 32)])
  else
    let wt : Word := if startup then f32One else f32Round false 1 1 (-(s.weight : Int))
    let (cv, rho) := clipOf s
    let step := fun (a : Slot × Bank × BitVec 128) (j : Nat) =>
      let (s', deg) := adaptCol a.1 V.active wt cv rho j
      let (sc, off, z) := bankCol s' j
      match deg with
      | some d => (s', { a.2.1 with scale := tput a.2.1.scale j d, off := tput a.2.1.off j (f32Mul (s'.bAt j) d), zp := tput a.2.1.zp j 0 },
          a.2.2 ||| BitVec.ofNat 128 (2 ^ j))
      | none => (s', { a.2.1 with scale := tput a.2.1.scale j sc, off := tput a.2.1.off j off, zp := tput a.2.1.zp j z }, a.2.2)
    let (s1, b, dg) := (List.range cs).foldl step (s, { ver := ver, slot := k }, 0)
    let guarded := startup || (part h (c / 4)).ovl.ty = 6 || (part h (c / 4)).ovl.ty = 7
    let rerun := guarded && decide (s.satLimit < frac)
    let s2 := { s1.clear with ver := ver, adapts := min 0xFFFF (s.adapts + 1), startAdapts := s.startAdapts + 1, satFrac := frac
                              noobs := noobs, degenerate := dg != 0, rerun := rerun, degen := dg }
    let h := modSlot h g c k (fun _ => s2)
    (modVsu h g c (fun V => { V with pend := b, waiting := true }),
     stWord [(1, 8), (bit rerun, 9), (bit (dg != 0), 10), (bit startup, 11), (bit noobs, 12), (ver, 16), (frac, 32)])

/-- A committed bank that waits becomes ACTIVE at the context's TOPEN (06 R173, R190); a VSCALE that waited for it may go on. -/
def adoptBank (g c : Nat) (h : Hw) : Hw :=
  if !(vsuOf (gal h g) c).waiting then h
  else wakeAgain g (fun w => w == .vscale) (modVsu h g c (fun V => { V with active := V.pend, waiting := false }))

/-- VSCALE (06 R190): lanes of v[A] into a field of the PENDING bank, and with COMMIT the commit of 09 R256. -/
def vscaleBody (th : Thr) (f : Fields) (c : Nat) (h : Hw) : IRes :=
  let T := thread h th
  let fld := f.mod.toNat % 4
  let off := (T.sreg f.b).toNat
  let cs := cols h th.g
  if f.m 3 || fld = 3 || !vecOk f.a || f.c ≠ 0 || f.e ≠ 0 || f.psx ≠ 0 || f.fn ≠ 0 || f.rx ≠ 0 || f.f1 ≠ 0 || f.f2 ≠ 0 then .fault cIllegalOperand
  else if off % 128 ≠ 0 ∨ cs ≤ off then .fault cIllegalOperand
  else if (vsuOf (gal h th.g) c).waiting then .again h .vscale
  else
    let v := T.vreg f.a
    let js := (List.range 128).filter (fun j => off + j < cs)
    let h := modVsu h th.g c (fun V => { V with pend :=
      match fld with
      | 0 => { V.pend with scale := js.foldl (fun t j => tput t (off + j) (lane v j)) V.pend.scale }
      | 1 => { V.pend with off := js.foldl (fun t j => tput t (off + j) (lane v j)) V.pend.off }
      | _ => { V.pend with zp := js.foldl (fun t j => tput t (off + j) ((lane v j).extractLsb' 0 8)) V.pend.zp } })
    let (h, st) := if f.m 2 then commitBank th.g c h else (h, stWord [(stOk, 0)])
    .next (modThr h th (fun T => T.setS f.d st)) 1

def execVscale (th : Thr) (f : Fields) (s : State) : Host.Outcome State Fault Refusal :=
  act (okThr th) (runIsa .vscale th f (vscaleBody th f)) s

end Sys2Proof.Machine
end

