-- ==== Sys2Proof/Machine/Tile.lean ====
section
/-!
DEFINITION. The tile instructions and the array (06 R165 to R181, chapters 07 and 08): groups, the array queue, stationary loads,
streams and convoys, accumulator updates, drains.
-/
namespace Sys2Proof.Machine

/-- The gallery's wing is in S0, the gallery holds its grant and is not stalled: its array advances (01 R21; 02 R39, R51). -/
def galRuns (h : Hw) (g : Nat) : Bool := decide ((wing h (g / 8)).sleep = 0) && !(gal h g).stalled && galPowered h g

/-- Unused fields of format X are zero (06 R165): C, E, PS, FN, the reserved bits, F1 and F2 as asked. -/
def xZero (f : Fields) (c e ps fn fx : Bool) : Bool :=
  f.rx == 0 && (!c || f.c == 0) && (!e || f.e == 0) && (!ps || f.psx == 0) && (!fn || f.fn == 0) && (!fx || (f.f1 == 0 && f.f2 == 0))

/-- TDESC (06 R171). -/
def tdescBody (th : Thr) (f : Fields) (_ : Nat) (h : Hw) : IRes :=
  let q := f.mod.toNat % 4
  if f.m 3 || f.b ≠ 0 || !xZero f true true true true true then .fault cIllegalOperand
  else if f.m 2 then
    if !tileOk f.a then .fault cIllegalOperand
    else .next (modThr h th (fun T => T.setS f.d ((T.treg f.a).extractLsb' (64 * q) 64))) 1
  else if !tileOk f.d then .fault cIllegalOperand
  else .next (modThr h th (fun T =>
    let old := (T.treg f.d).toNat
    let cur := ((T.treg f.d).extractLsb' (64 * q) 64).toNat
    T.setT f.d (BitVec.ofNat 256 (old - cur * 2 ^ (64 * q) + (T.sreg f.a).toNat * 2 ^ (64 * q))))) 1

/-! ## Operand pairs (03 R64) -/

def isInt8 (f : Fmt) : Bool := f = .int8 || f = .uint8
def mx8or6 (f : Fmt) : Bool := f = .e4m3 || f = .e5m2 || f = .e3m2 || f = .e2m3 || f = .mxint8

/-- The pair is in the table (03 R64). -/
def pairOk (wf sf : Fmt) : Bool :=
  (isInt8 wf && isInt8 sf) || (wf = .int4 && isInt8 sf) || (mx8or6 wf && sf.isMx) || (wf = .e2m1 && sf.isMx)
    || (wf = .bf16 && sf = .bf16)

/-- Two rows per cycle (03 R64). -/
def doubleRate (wf sf : Fmt) : Bool := wf = .int4 || (wf = .e2m1 && sf ≠ .e2m1)

/-- INT32 accumulation (03 R64). -/
def isIntPair (wf : Fmt) : Bool := isInt8 wf || wf = .int4

/-! ## TOPEN (04 R105, R108, 06 R173) -/

/-- The context's threads may open a group: it is the running context and no pre-emption of it is decided (12 R327, R330). -/
def mayOpen (h : Hw) (c : Nat) : Bool :=
  (part h (c / 4)).running == some (c % 4) && (part h (c / 4)).switch.isNone && !(ctx h c).stopped

/-- The lease is granted: registers, active set and recorded sources are recorded, a committed scale bank is adopted, every
accumulator is zero. -/
def openGroup (th : Thr) (c fw fs pc : Nat) (h : Hw) : Hw :=
  let T := thread h th
  let h := adoptBank th.g c h
  modGal h th.g (fun G => { G with
    group := some { holder := th.t, fw, fs, code := T.code, pc, s := T.s, p := T.p, t := T.t, stack := T.stack, active := G.active
                    rec0 := tget G.recs (2 * (c % 4)), rec1 := tget G.recs (2 * (c % 4) + 1) }
    acc := [], accZero := true })

def topenBody (th : Thr) (f : Fields) (c : Nat) (h : Hw) : IRes :=
  if f.mod ≠ 0 || f.d ≠ 0 || f.a ≠ 0 || f.b ≠ 0 || !xZero f true true true true false then .fault cIllegalOperand
  else match fmtOf f.f1, fmtOf f.f2 with
    | some wf, some sf =>
      if !pairOk wf sf then .fault cIllegalOperand
      else if mayOpen h c && (gal h th.g).group.isNone && (gal h th.g).leaseWait.isEmpty then
        .next (openGroup th c f.f1 f.f2 (thread h th).pc h) 1
      else .block (modGal h th.g (fun G => { G with leaseWait := G.leaseWait ++ [th.t] })) (.lease f.f1 f.f2)
    | _, _ => .fault cIllegalOperand

/-- ARRAY_LEASE_GRANT (04 R105): with no group open, the first waiting thread whose context may open a group receives the lease. -/
def leaseGrant (g : Nat) (h : Hw) : Hw :=
  if (gal h g).group.isSome then h else
  let okT := fun (t : Nat) => match thrCtx h { g, t } with
    | some c => mayOpen h c
    | none => false
  match (gal h g).leaseWait.find? okT with
  | none => h
  | some t =>
    match thrCtx h { g, t }, (thread h { g, t }).st with
    | some c, .blocked (.lease fw fs) =>
      let h := modGal h g (fun G => { G with leaseWait := G.leaseWait.filter (fun x => x != t) })
      wake { g, t } id (openGroup { g, t } c fw fs ((thread h { g, t }).pc - 8) h)
    | _, _ => h

/-! ## The array queue (06 R172) -/

/-- The queue has room: one entry in progress and two waiting. -/
def queueRoom (G : Gallery) : Bool := decide (G.queue.length < 3)

/-- The tier of an address in a context, 0 when it names no object. -/
def tierOf (cx : Context) (a : DWord) : Nat :=
  match cx.objs.find? (fun o => o.handle = addrHandle a) with
  | some o => o.tier
  | none => 0

/-- The weight rows a stream has: MAJOR, or MINOR when transposed (06 R176, R177). -/
def ArrOp.rows (o : ArrOp) : Nat :=
  match o.kind with
  | .streamT => (tileOf o.desc).minor
  | _ => (tileOf o.desc).major

/-- The key of a convoy (07 R214): BASE, SBASE, STRIDE, MINOR, FMT and ZP, the stationary format and the context. -/
def sameKey (fs c : Nat) (d : BitVec 256) (v : Convoy) : Bool :=
  let a := tileOf d
  let b := tileOf v.desc
  !v.transposed && v.fs == fs && v.ctx == c && a.base == b.base && a.sbase == b.sbase && a.stride == b.stride
    && a.minor == b.minor && a.fmt == b.fmt && a.zp == b.zp

/-- A gallery's rows `lo` to `hi − 1` of a stream join the convoy of their key from its next row, missing the rows before it, or
form a new convoy (07 R214, R215, R217, R218). -/
def joinConvoy (g c fs : Nat) (op : ArrOp) (lo hi : Nat) (todo : List (Nat × Nat)) (h : Hw) : Hw :=
  modWing h (g / 8) (fun W =>
    let ok := fun (v : Convoy) => W.joinEn && op.kind != .streamT && sameKey fs c op.desc v && decide (lo ≤ v.next) && decide (v.next < hi)
    match W.convoys.findIdx? ok with
    | some i =>
      { W with convoys := W.convoys.modify i (fun v =>
          { v with members := v.members ++ [{ g, upto := hi, todo := todo ++ (if lo < v.next then [(lo, v.next)] else []), missed := none }] }) }
    | none =>
      { W with convoyNext := W.convoyNext + 1
               convoys := W.convoys ++ [{ desc := op.desc, fs, ctx := c, transposed := op.kind == .streamT, next := lo
                                          order := W.convoyNext, members := [{ g, upto := hi, todo, missed := none }] }] })

/-- The entry that reaches the in-progress position starts (07 R214, 08 R239): ROW8 follows with AUTO, a stream from the atrium or
work tier joins or forms a convoy; a TSWAP is applied once no load runs, and the next entry follows it. -/
def startHead (g c : Nat) : Nat → Hw → Hw
  | 0, h => h
  | k + 1, h =>
    let G := gal h g
    match G.queue, G.group with
    | op :: rest, some gr =>
      if op.started then h else
      match op.kind with
      | .swap =>
        let sh := shadowMode h g
        if G.loader.isSome then h
        else startHead g c k (modGal h g (fun G => { G with queue := rest, active := 1 - G.active, actOf := tput G.actOf (c % 4) (1 - G.active)
                                                            portFree := max G.portFree (G.cycle + (if sh then 1 else 8)) }))
      | .stream | .streamT =>
        let h := modGal h g (fun G => { G with queue := { op with started := true, since := G.cycle } :: rest
                                               accRow8 := if G.accAuto then op.base / 8 % 256 else G.accRow8 })
        if tierOf (ctx h c) (tileOf op.desc).base = 0 then h else joinConvoy g c gr.fs op 0 op.rows [] h
      | .drain => modGal h g (fun G => { G with accRow8 := if G.accAuto then op.base / 8 % 256 else G.accRow8 })
      | _ => h
    | _, _ => h

/-- Put an entry at the end of the queue; the first may start. -/
def pushOp (g c : Nat) (op : ArrOp) (h : Hw) : Hw :=
  startHead g c 4 (modGal h g (fun G => { G with queue := G.queue ++ [op] }))

/-- An entry leaves the queue's in-progress position; a holder waiting for room may go on. -/
def popHead (g c : Nat) (h : Hw) : Hw :=
  wakeAgain g (fun w => w == .arrayFull) (startHead g c 4 (modGal h g (fun G => { G with queue := G.queue.drop 1 })))

/-- The tile operand of a tile instruction with its checks (06 R169, R170, then 04 R94): the descriptor, its format and the
register after ADV; or the cause. `own` is the instruction's own rule. -/
def tileOperand (raw : BitVec 256) (adv : Bool) (cx : Context) (need : Right) (tiers : List Nat) (own : Tile → Fmt → Bool) :
    Except Nat (Tile × BitVec 256) :=
  let t := tileOf raw
  match t.check with
  | .error e => .error e
  | .ok f =>
    if !own t f then .error cIllegalOperand
    else if addrOff t.base % 4 ≠ 0 then .error cMisaligned else
    match (if adv then t.advance raw else some raw) with
    | none => .error cOutOfBounds
    | some nxt =>
      match t.access f cx need tiers with
      | some e => .error e
      | none => .ok (t, nxt)

/-- The open group's formats. -/
def groupFmts (h : Hw) (g : Nat) : Nat × Nat :=
  match (gal h g).group with
  | some G => (G.fw, G.fs)
  | none => (0, 0)

/-- TLOAD (06 R174): the load is queued; a shadow load without the shadow-mode grant asks for the difference, once (07 R211). -/
def tloadBody (th : Thr) (f : Fields) (c : Nat) (h : Hw) : IRes :=
  let T := thread h th
  let zpv := f.m 2
  if f.m 3 || f.d ≠ 0 || !tileOk f.a || (if zpv then !vecOk f.b else f.b ≠ 0) || !xZero f true true true true true then .fault cIllegalOperand
  else match tileOperand (T.treg f.a) (f.m 1) (ctx h c) .r [0]
      (fun t _ => t.fmt == (groupFmts h th.g).2 && decide (t.major ≤ cols h th.g) && decide (t.minor ≤ 256)) with
    | .error e => .fault e
    | .ok (_, nxt) =>
      if !queueRoom (gal h th.g) then .again h .arrayFull else
      let zps := if zpv then some ((List.range 128).map (fun j => (lane (T.vreg f.b) j).toNat % 256)) else none
      let h := modThr h th (fun T => T.setT f.a nxt)
      let h := if f.m 0 && !shadowMode h th.g then grainRequest (.gallery th.g) 2 h else h
      .next (pushOp th.g c { kind := if f.m 0 then .loadShadow else .loadStall, desc := T.treg f.a, zps } h) 1

/-- TSWAP (06 R175). -/
def tswapBody (th : Thr) (f : Fields) (c : Nat) (h : Hw) : IRes :=
  if f.mod ≠ 0 || f.d ≠ 0 || f.a ≠ 0 || f.b ≠ 0 || f.low29 ≠ 0 then .fault cIllegalOperand
  else if !queueRoom (gal h th.g) then .again h .arrayFull
  else .next (pushOp th.g c { kind := .swap } h) 1

/-- TSTREAM and TSTREAMT (06 R176, R177). -/
def streamBody (transposed : Bool) (th : Thr) (f : Fields) (c : Nat) (h : Hw) : IRes :=
  let T := thread h th
  let base := (T.sreg f.b).toNat
  let rows := fun (t : Tile) => if transposed then t.minor else t.major
  let red := fun (t : Tile) => if transposed then t.major else t.minor
  let fmtFine := fun (k : Fmt) => !transposed || ((k = .int8 || k = .uint8 || k = .bf16) && (part h (c / 4)).ovl.ty = 4)
  if f.m 2 || f.m 3 || f.d ≠ 0 || !tileOk f.a || !xZero f true true true true true then .fault cIllegalOperand
  else match tileOperand (T.treg f.a) (f.m 1) (ctx h c) .r [0, 1, 2]
      (fun t k => t.fmt == (groupFmts h th.g).1 && decide (red t ≤ 256) && decide (base + rows t ≤ 2048) && fmtFine k) with
    | .error e => .fault e
    | .ok (_, nxt) =>
      if !queueRoom (gal h th.g) then .again h .arrayFull else
      .next (pushOp th.g c { kind := if transposed then .streamT else .stream, desc := T.treg f.a, base, add := f.m 0 }
        (modThr h th (fun T => T.setT f.a nxt))) 1

/-- TDRAIN (06 R178): queued, the holder blocked until the drain completes; from its issue the group is not abandoned by a
pre-emption (06 R180). -/
def tdrainBody (th : Thr) (f : Fields) (c : Nat) (h : Hw) : IRes :=
  let T := thread h th
  let base := (T.sreg f.b).toNat
  let mxs := f.m 0
  if f.m 2 || f.m 3 || !tileOk f.a || (!mxs && f.c ≠ 0) || !xZero f false true true true true then .fault cIllegalOperand
  else match tileOperand (T.treg f.a) (f.m 1) (ctx h c) .w [0, 1, 2]
      (fun t _ => decide (t.minor ≤ cols h th.g) && decide (base + t.major ≤ 2048)) with
    | .error e => .fault e
    | .ok (t, nxt) =>
      match (if mxs then (checkAccess (ctx h c) (T.sreg f.c) (8 * t.major) .w [0, 1, 2] 4).cause? else none) with
      | some e => .fault e
      | none =>
        if !queueRoom (gal h th.g) then .again h .arrayFull else
        let h := modThr h th (fun T => T.setT f.a nxt)
        let h := modGal h th.g (fun G => { G with group := G.group.map (fun x => { x with drainIssued := true }) })
        .block (pushOp th.g c { kind := .drain, desc := T.treg f.a, base, mxs := if mxs then some (T.sreg f.c) else none, d := f.d } h)
          (.drain f.d)

/-! ## Stationary loads (06 R174, 07 R208 to R212, R219) -/

/-- The context whose group is open on the gallery. -/
def groupCtx (h : Hw) (g : Nat) : Option Nat :=
  match (gal h g).group with
  | some G => thrCtx h { g, t := G.holder }
  | none => none

def statSet (G : Gallery) (k : Nat) : StatSet := if k = 0 then G.set0 else G.set1
def setStat (G : Gallery) (k : Nat) (s : StatSet) : Gallery := if k = 0 then { G with set0 := s } else { G with set1 := s }

/-- The columns of a stationary tile (06 R174): line j is logical column j, its zero point ZP or, with ZPV, lane j. -/
def tileCols (m ms : ObjMem) (t : Tile) (f : Fmt) (zps : Option (List Nat)) : Tbl StatCol :=
  (List.range t.major).map (fun j =>
    let (es, ss) := readLine m ms t f j
    let z : Int := match zps with
      | some l => match l[j]? with
        | some v => if t.fmt = 1 then (v : Int) else (BitVec.ofNat 8 v).toInt
        | none => t.zpInt
      | none => t.zpInt
    (j, { elems := es, scales := ss, zp := if f = .int8 || f = .uint8 then z else 0 }))

/-- Write a stationary set from a recorded load (04 R89, 06 R174); none when an element is uncorrectable (07 R225). -/
def loadSet (h : Hw) (c g : Nat) (r : TloadRec) (wc : Nat) : Option StatSet :=
  let t := tileOf r.desc
  match fmtOf t.fmt, (ctx h c).objs.find? (fun o => o.handle = addrHandle t.base) with
  | some f, some o =>
    let m := objMem h (objKey c o g)
    let ms := match (ctx h c).objs.find? (fun o => o.handle = addrHandle t.sbase) with
      | some os => objMem h (objKey c os g)
      | none => m
    let bad := (List.range t.major).any (fun j => m.isBad o.tier (addrOff t.base + j * t.stride) (t.lineBytes f)
      || (f.isMx && ms.isBad 0 (addrOff t.sbase + j * t.scaleStride f) (t.minor / 32)))
    let cs := tileCols m ms t f r.zps
    if bad then none else some { fmt := some t.fmt, cols := cs, witness := (tget cs (wc % t.major)).map (fun w => (wc % t.major, w)) }
  | _, _ => none

/-- Uncorrectable tile data (07 R225): the group is abandoned and the context stops with cause UNCORRECTABLE. -/
def tileUncorrectable (c g t : Nat) (h : Hw) : Hw :=
  stopContext c { cause := cUncorrectable, gallery := logicalOf h (c / 4) g, thread := t - (ctx h c).first, pc := (thread h { g, t }).pc } h

/-- A load is the last recorded one of its context into its set (04 R89). -/
def recordLoad (c set : Nat) (op : ArrOp) (G : Gallery) : Gallery :=
  { G with recs := tput G.recs (2 * (c % 4) + set) { desc := op.desc, zps := op.zps } }

/-- STATIONARY_LOAD_START (07 R208, R210, R211): the first entry of the queue that has not started is a load whose conditions hold:
a stall load at the in-progress position 3 cycles after the last row entered; a shadow load, with the shadow-mode grant,
once the last row that read its set has left the multiply stage; without the grant it takes the timing of a stall load
and 8 cycles more. The load is recorded (04 R89). -/
def loadStart (g : Nat) (h : Hw) : Hw :=
  if !galRuns h g then h else
  let G := gal h g
  match groupCtx h g, G.group, G.loader with
  | some c, some gr, none =>
    let i := (G.queue.takeWhile (fun o => o.started)).length
    match G.queue[i]? with
    | none => h
    | some op =>
      match op.kind with
      | .loadStall =>
        if i ≠ 0 ∨ G.cycle < G.lastEntry + 3 then h
        else modGal h g (fun G => recordLoad c G.active op { G with
          queue := G.queue.modify 0 (fun o => { o with started := true })
          loader := some { op, ctx := c, thr := gr.holder, set := G.active, since := G.cycle, extra := 0, stall := true } })
      | .loadShadow =>
        let tgt := 1 - G.active
        if shadowMode h g then
          if G.cycle < (tgetD G.lastRead tgt 0) + 3 then h
          else
            let h := modGal h g (fun G => recordLoad c tgt op { G with
              queue := G.queue.eraseIdx i
              loader := some { op, ctx := c, thr := gr.holder, set := tgt, since := G.cycle, extra := 0, stall := false } })
            wakeAgain g (fun w => w == .arrayFull) (startHead g c 4 h)
        else if i ≠ 0 ∨ G.cycle < G.lastEntry + 3 then h
        else modGal h g (fun G => recordLoad c tgt op { G with
          queue := G.queue.modify 0 (fun o => { o with started := true })
          loader := some { op, ctx := c, thr := gr.holder, set := tgt, since := G.cycle, extra := 8, stall := true } })
      | _ => h
  | _, _, _ => h

/-- Cycles of a stationary load (07 R209): 4 of setup, one line per cycle, or per 2 cycles for BF16. -/
def loadCycles (t : Tile) : Nat := 4 + t.major * (if t.fmt = 9 then 2 else 1)

/-- STATIONARY_LOAD_DONE (07 R209): the last line is written. The set holds the tile as the bay stands, the witness holds
logical column c mod MAJOR and c advances (07 R219); a stall load frees its queue entry. No group need be open any more (07 R208). -/
def loadDone (g : Nat) (h : Hw) : Hw :=
  if !galRuns h g then h else
  let G := gal h g
  match G.loader with
  | some L =>
    if G.cycle + 1 < L.since + L.extra + loadCycles (tileOf L.op.desc) then h else
    match loadSet h L.ctx g { desc := L.op.desc, zps := L.op.zps } G.witCount with
    | none => tileUncorrectable L.ctx g L.thr h
    | some s =>
      let h := modGal h g (fun G => setStat { G with loader := none, witCount := G.witCount + 1 } L.set s)
      if L.stall then popHead g L.ctx h else startHead g L.ctx 4 h
  | none => h

/-- The reload of 04 R89 for context `c` on a gallery: each recorded load is reissued from the bay as it stands, and a set with no
recorded load holds zeros. A load still running stops, being recorded; the designation of the active set is that of `c`. -/
def reloadSets (c g : Nat) (h : Hw) : Hw :=
  let h := modGal h g (fun G => { G with loader := none, active := tgetD G.actOf (c % 4) 0 })
  (List.range 2).foldl (fun h k =>
    match tget (gal h g).recs (2 * (c % 4) + k) with
    | none => modGal h g (fun G => setStat G k {})
    | some r =>
      match loadSet h c g r (gal h g).witCount with
      | some s => modGal h g (fun G => setStat { G with witCount := G.witCount + 1 } k s)
      | none => stopContext c { cause := cUncorrectable, gallery := logicalOf h (c / 4) g, thread := 0xFF, pc := 0 }
          (modGal h g (fun G => setStat G k { undef := true }))) h

/-! ## Streams: the wing's bursts (07 R213 to R218) -/

/-- A member of a convoy whose rows in it are all delivered catches up on the rows it missed, or leaves (07 R214, R215). -/
def settleMember (w c : Nat) (v : Convoy) (m : Member) (h : Hw) : Hw :=
  let less := fun (x : Convoy) => if x.order == v.order then { x with members := x.members.filter (fun y => y.g != m.g) } else x
  let drop := modWing h w (fun W => { W with convoys := (W.convoys.map less).filter (fun x => !x.members.isEmpty) })
  match m.todo with
  | [] => drop
  | (lo, hi) :: r =>
    match (gal h m.g).queue with
    | op :: _ => joinConvoy m.g c v.fs op lo hi r drop
    | [] => drop

/-- Rows a slot of 256 bytes carries, as (rows, slots): two rows for 4-bit formats, one row in two slots for BF16 (07 R213). -/
def rowsPerSlot (f : Fmt) : Nat × Nat :=
  match f with
  | .int4 | .e2m1 => (2, 1)
  | .bf16 => (1, 2)
  | _ => (1, 1)

/-- Slots of the FIFO in use by `n` rows. -/
def slotsOf (f : Fmt) (n : Nat) : Nat := let (r, s) := rowsPerSlot f; (n * s + r - 1) / r

/-- Weight row `n` of a tile (06 R176): line n; transposed, element n of every line (06 R177). -/
def weightRow (h : Hw) (c g : Nat) (desc : BitVec 256) (transposed : Bool) (n : Nat) : FifoRow :=
  let t := tileOf desc
  match fmtOf t.fmt, (ctx h c).objs.find? (fun o => o.handle = addrHandle t.base) with
  | some f, some o =>
    let m := objMem h (objKey c o g)
    if transposed then
      let w := f.bits / 8
      { row := n, elems := (List.range t.major).map (fun j => m.readLE (addrOff t.base + j * t.stride + n * w) w), scales := []
        bad := (List.range t.major).any (fun j => m.isBad o.tier (addrOff t.base + j * t.stride + n * w) w) }
    else
      let os := ((ctx h c).objs.find? (fun x => x.handle = addrHandle t.sbase)).getD o
      let ms := objMem h (objKey c os g)
      let (es, ss) := readLine m ms t f n
      { row := n, elems := es, scales := ss
        bad := m.isBad o.tier (addrOff t.base + n * t.stride) (t.lineBytes f)
          || (f.isMx && ms.isBad os.tier (addrOff t.sbase + n * t.scaleStride f) (t.minor / 32)) }
  | _, _ => { row := n, elems := [], scales := [], bad := false }

/-- BURST in slots (07 R227). -/
def burstSlots (b : Nat) : Nat := 8 * 2 ^ b

/-- The member's FIFO has room for the whole burst. -/
def hasRoom (h : Hw) (f : Fmt) (slots : Nat) (m : Member) : Bool := decide (slotsOf f (gal h m.g).fifo.length + slots ≤ 64)

/-- BURST_GRANT (07 R216, R217): at a burst boundary the next ready convoy after the one last served, in the order the convoys were
formed, delivers BURST slots. A member without room detaches at the boundary when another has room. -/
def burstGrant (w : Nat) (h : Hw) : Hw :=
  let W := wing h w
  if W.sleep ≠ 0 then h else
  let slots := burstSlots W.burst
  let fmt := fun (v : Convoy) => (fmtOf (tileOf v.desc).fmt).getD .int8
  let ready := fun (v : Convoy) => v.members.any (fun m => m.missed.isNone && hasRoom h (fmt v) slots m)
  let later := W.convoys.filter (fun v => decide (W.lastConvoy < v.order) && ready v)
  match later.head?.orElse (fun _ => (W.convoys.filter ready).head?) with
  | none => h
  | some v =>
    let f := fmt v
    let (rs, ss) := rowsPerSlot f
    let n := slots * rs / ss
    let ms := v.members.map (fun m => if m.missed.isNone && !hasRoom h f slots m then { m with missed := some v.next } else m)
    let active := ms.filter (fun m => m.missed.isNone)
    let h := active.foldl (fun h m =>
      let rows := (List.range n).filter (fun i => v.next + i < m.upto)
      modGal h m.g (fun G => { G with fifo := G.fifo ++ rows.map (fun i => weightRow h v.ctx m.g v.desc v.transposed (v.next + i)) })) h
    let v' : Convoy := { v with next := v.next + n, members := ms }
    let h := modWing h w (fun W => { W with lastConvoy := v.order
                                            convoys := W.convoys.map (fun x => if x.order == v.order then v' else x) })
    (active.filter (fun m => decide (m.upto ≤ v.next + n))).foldl (fun h m => settleMember w v.ctx v' m h) h

/-- A detached member with an empty FIFO rejoins its convoy from the convoy's next row as a late joiner, or, the convoy past its
rows, forms its own for the rows it missed (07 R217). -/
def rejoin (g : Nat) (h : Hw) : Hw :=
  if !(gal h g).fifo.isEmpty then h else
  match (wing h (g / 8)).convoys.find? (fun v => v.members.any (fun m => m.g == g && m.missed.isSome)) with
  | none => h
  | some v =>
    match v.members.find? (fun m => m.g == g) with
    | some { g := _, upto, todo, missed := some r } =>
      let m' : Member := if v.next < upto then { g, upto, todo := todo ++ (if r < v.next then [(r, v.next)] else []), missed := none }
        else { g, upto, todo := todo ++ [(r, upto)], missed := none }
      let h := modWing h (g / 8) (fun W => { W with convoys := W.convoys.map (fun x =>
        if x.order == v.order then { x with members := x.members.map (fun y => if y.g == g then m' else y) } else x) })
      if v.next < upto then h else settleMember (g / 8) v.ctx v m' h
    | _ => h

/-! ## Rows through the array (03 R68 to R73, 07 R205 to R207) -/

/-- The integer that reaches the cell (03 R68): the element minus its zero point. -/
def cellInt (f : Fmt) (zp : Int) (c : Nat) : Int :=
  (match f with
   | .uint8 => ((c % 256 : Nat) : Int)
   | .int4 => (BitVec.ofNat 4 c).toInt
   | _ => (BitVec.ofNat 8 c).toInt) - zp

/-- The E8M0 block scale (03 R62): the exponent, none for NaN. -/
def scaleExp (b : Nat) : Option Int := if b % 256 = 255 then none else some ((b % 256 : Nat) - 127)

/-- An integer column sum (03 R72): the products of the covered rows, exact. Rows the stationary tile does not cover present 0. -/
def intSum (wf sf : Fmt) (wz : Int) (row : List Nat) (col : StatCol) : Int :=
  ((row.zip col.elems).map (fun p => cellInt wf wz p.1 * cellInt sf col.zp p.2)).foldl (· + ·) 0

/-- A sum rounded to FP32 beside the flag that such a sum of finite operands became an infinity (03 R71, R74). -/
def sumTo (inf : Bool) (v : FVal) (r : Word) : Word × Bool :=
  (r, inf || (f32IsInf r && (match v with | .fin _ _ _ => true | _ => false)))

/-- The BF16 column sum (03 R73) with its INF flag: products in row order, each addition rounded, starting from +0. -/
def bf16Sum (row : List Nat) (col : StatCol) : Word × Bool :=
  (row.zip (col.elems ++ List.replicate (row.length - col.elems.length) 0)).foldl
    (fun acc p => let v := (f32Val acc.1).add ((elemVal .bf16 p.1).mul (elemVal .bf16 p.2)); sumTo acc.2 v (f32Of v)) (0, false)

/-- One MX block (03 R73) with its INF flag: the products summed exactly, times both block scales, rounded once (log 61). -/
def mxBlock (wf sf : Fmt) (ws ss : List Nat) (wsc ssc : Nat) : Word × Bool :=
  match scaleExp wsc, scaleExp ssc with
  | some a, some b =>
    let v := ((ws.zip ss).foldl (fun acc p => acc.add ((elemVal wf p.1).mul (elemVal sf p.2))) (FVal.fin false 0 0)).scale (a + b)
    sumTo false v (f32Of v)
  | _, _ => (f32NaN, false)

/-- The MX column sum (03 R73) with its INF flag: block results added in block order from +0, each addition rounded. -/
def mxSum (wf sf : Fmt) (row wsc : List Nat) (col : StatCol) : Word × Bool :=
  let pad := col.elems ++ List.replicate (row.length - col.elems.length) 0
  (List.range (row.length / 32)).foldl (fun acc b =>
    let k := mxBlock wf sf ((row.drop (32 * b)).take 32) ((pad.drop (32 * b)).take 32) ((wsc[b]?).getD 0) ((col.scales[b]?).getD 127)
    let v := (f32Val acc.1).add (f32Val k.1)
    sumTo (acc.2 || k.2) v (f32Of v)) (0, false)

/-- The column sum of logical column `j` for a weight row and its INF flag; a column not loaded presents 0. -/
def colSum (wf sf : Fmt) (wz : Int) (row wsc : List Nat) (s : StatSet) (j : Nat) : Word × Bool :=
  match tget s.cols j with
  | none =>
    if isIntPair wf then (0, false)
    else if wf = .bf16 then bf16Sum row { elems := [], scales := [], zp := 0 }
    else mxSum wf sf row wsc { elems := [], scales := [], zp := 0 }
  | some col =>
    if isIntPair wf then (BitVec.ofInt 32 (intSum wf sf wz row col), false)
    else if wf = .bf16 then bf16Sum row col else mxSum wf sf row wsc col

/-- L (07 R205). -/
def pipeLen (wf : Fmt) : Nat := if isIntPair wf then 10 else if wf = .bf16 then 18 else 14

/-- The cycles a row holds the row port (07 R206, R218), in cycles: BF16 4, transposed INT8 2, transposed BF16 8. -/
def portCycles (wf : Fmt) (transposed : Bool) : Nat :=
  if transposed then (if wf = .bf16 then 8 else 2) else if wf = .bf16 then 4 else 1

/-- The pipeline entry of one weight row against the active set; a set that was last loaded with another format, or lost, gives
undefined sums (06 R181, 07 R212). -/
def enterRow (G : Gallery) (gr : Group) (op : ArrOp) (r : FifoRow) (cs : Nat) (h : Hw) : PipeRow × Hw :=
  let t := tileOf op.desc
  let wf := (fmtOf gr.fw).getD .int8
  let sf := (fmtOf gr.fs).getD .int8
  let s := statSet G G.active
  let stale := s.undef || (match s.fmt with | some k => decide (k ≠ gr.fs) | none => false)
  let (u, h) := freeVal 4096 h
  let (ui, h) := freeVal 1 h
  let cols := (List.range (if stale then 0 else cs)).map (fun j => colSum wf sf t.zpInt r.elems r.scales s j)
  let sums := if stale then u else ofLanes (fun j => match cols[j]? with | some x => x.1 | none => 0)
  let nan := !isIntPair wf && (List.range cs).any (fun j => f32IsNaN (lane sums j))
  let inf := !isIntPair wf && (if stale then ui.getLsbD 0 else cols.any (fun x => x.2))
  ({ accRow := op.base + r.row, sums, add := op.add, nan, inf, wit := s.witness.map (fun x => x.1), entered := G.cycle + (if wf = .bf16 then 3 else 0) }, h)

/-- ROW_ENTRY (07 R206, R207): the stream in progress takes its next row, or two at double rate, from the bay or the stream FIFO when
the row port is free, no stall load runs, data is there and no update of the same accumulator row is in the pipeline.
An uncorrectable element abandons the group (07 R225). After the last row the stream leaves the queue. -/
def rowEntry (g : Nat) (h : Hw) : Hw :=
  if !galRuns h g then h else
  let G := gal h g
  match groupCtx h g, G.queue, G.group with
  | some c, op :: rest, some gr =>
    let wf := (fmtOf gr.fw).getD .int8
    let sf := (fmtOf gr.fs).getD .int8
    let transposed := op.kind == .streamT
    let isStream := op.kind == .stream || transposed
    let bay := tierOf (ctx h c) (tileOf op.desc).base = 0
    let want := if doubleRate wf sf && !transposed then 2 else 1
    let loading := match G.loader with
      | some L => L.stall
      | none => false
    let avail := if bay then (List.range (min want (op.rows - op.next))).map (fun i => weightRow h c g op.desc transposed (op.next + i))
      else G.fifo.take want
    let clash := avail.any (fun r => G.pipe.any (fun p => p.accRow == op.base + r.row))
    if !isStream || !op.started || loading || avail.isEmpty || clash || decide (G.cycle < G.portFree) then rejoin g h
    else if avail.any (fun r => r.bad) then tileUncorrectable c g gr.holder h
    else
      let (rows, h) := avail.foldl (fun (a : List PipeRow × Hw) r => let (p, h) := enterRow G gr op r (cols h g) a.2; (a.1 ++ [p], h)) ([], h)
      let n := rows.length
      let pr := satAdd 32 G.perfRows n
      let pb := satAdd 32 G.perfBusy 1
      let h := modGal h g (fun G => { G with
        pipe := G.pipe ++ rows, lastEntry := G.cycle + (if wf = .bf16 then 3 else 0), lastRead := tput G.lastRead G.active (G.cycle + (if wf = .bf16 then 3 else 0))
        portFree := G.cycle + portCycles wf transposed, fifo := if bay then G.fifo else G.fifo.drop n
        queue := { op with next := op.next + n } :: rest, perfRows := pr, perfBusy := pb })
      let h := saturated 32 (0x100044 + g * 0x1000) G.perfRows pr (saturated 32 (0x100048 + g * 0x1000) G.perfBusy pb h)
      if op.rows ≤ op.next + n then popHead g c (leaveConvoys g h) else rejoin g h
  | _, _, _ => h

/-- An accumulator row; a row not written since TOPEN holds 0, and outside a group's life the contents are undefined (08 R230). -/
def accRowOf (g : Nat) (G : Gallery) (r : Nat) : BitVec 4096 :=
  match tget G.acc r with
  | some v => v
  | none => if G.accZero then 0 else ofLanes (fun j => Config.undefWord (128 * G.accEpoch + g) r j)

/-- One column's update (08 R231): the new entry and the flags SAT, INF, NAN it sets (03 R72 to R74). -/
def accUpdate (int add : Bool) (old c : Word) : Word × Bool × Bool × Bool :=
  if int then
    if add then
      let x := old.toInt + c.toInt
      (clamp32 x, decide (x < -2147483648 ∨ 2147483647 < x), false, false)
    else (c, false, false, false)
  else if add then
    let r := f32Add old c
    (r, false, f32IsInf r && !f32IsInf old && !f32IsInf c && !f32IsNaN old && !f32IsNaN c, f32IsNaN r)
  else (c, false, false, f32IsNaN c)

/-- ACCUMULATOR_UPDATE (08 R231, R232): the oldest row L cycles after its entry lands, with its pair at double rate. `ecc` is what the read
of the entries found: 0 clean, 1 a corrected single-bit error, 2 an uncorrectable entry (08 R229). `wit` says that the
witness column's sum differed (07 R220): the gallery records the column, the group is abandoned and the partition awaits
its reset. -/
def accumulatorUpdate (g ecc : Nat) (wit : Bool) (h : Hw) : Hw :=
  if !galRuns h g then h else
  let G := gal h g
  match groupCtx h g, G.pipe, G.group with
  | some c, p :: _, some gr =>
    let wf := (fmtOf gr.fw).getD .int8
    if G.cycle < p.entered + pipeLen wf then h
    else
      if wit && !G.wdis && p.wit.isSome then
        let col := physCol G (p.wit.getD 0)
        let h := modGal h g (fun G => { G with colFault := true, lastCol := col, mismatches := tmod G.mismatches col 0 (· + 1)
                                               mismatch := some col, partFault := true })
        abandonGroup c g h
      else if ecc = 2 && p.add then
        tileUncorrectable c g gr.holder (sramUncorrectable (modGal h g (fun G => { G with accUncorr := true, accLastRow := p.accRow })))
      else
        let now_ := G.pipe.filter (fun q => q.entered == p.entered)
        let h := if ecc = 1 then
            let n := satAdd 16 G.accCorrected 1
            saturated 16 (0x100104 + g * 0x1000) G.accCorrected n
              (sramCorrected 3 (g + 2 ^ 7 * p.accRow) (modGal h g (fun G => { G with accCorrected := n, accLastRow := p.accRow })))
          else h
        now_.foldl (fun h q =>
          modGal h g (fun G =>
            let old := accRowOf g G q.accRow
            let us := (List.range 128).map (fun j => accUpdate (isIntPair wf) q.add (lane old j) (lane q.sums j))
            let row := ofLanes (fun j => match us[j]? with | some u => u.1 | none => 0)
            let sat := us.any (fun u => u.2.1)
            let inf := q.inf || us.any (fun u => u.2.2.1)
            let nan := q.nan || us.any (fun u => u.2.2.2)
            { G with acc := tput G.acc q.accRow row, pipe := G.pipe.filter (fun x => x != q)
                     sat := G.sat || sat, inf := G.inf || inf, nan := G.nan || nan
                     group := G.group.map (fun x => { x with sat := x.sat || sat, inf := x.inf || inf, nan := x.nan || nan }) })) h
  | _, _, _ => h

/-! ## The drain (06 R178, R179; 08 R233 to R237) -/

/-- DRAIN_START (08 R236): the drain at the in-progress position starts after the group's last accumulator update. Until it completes a reader
may see any subset of what it writes (08 R237): the destination is undefined. -/
def drainStart (g : Nat) (h : Hw) : Hw :=
  if !galRuns h g then h else
  let G := gal h g
  match groupCtx h g, G.queue with
  | some c, op :: rest =>
    if op.kind = .drain ∧ !op.started ∧ G.pipe.isEmpty then
      modGal (forgetDrain c g op h) g (fun G => { G with queue := { op with started := true, since := G.cycle } :: rest })
    else h
  | _, _ => h

/-- y of 08 R233: x × SCALE, plus OFFSET fused unless OFFSET is a zero. -/
def drainY (b : Bank) (j : Nat) (x : Word) : Word :=
  if f32IsZero (b.offAt j) then f32Mul x (b.scaleAt j) else f32Fma x (b.scaleAt j) (b.offAt j)

/-- One drained row: its x values (or INT32 entries), its y values, its element codes, scale bytes, NAN_ZEROED and CLAMPED. -/
structure DrainRow where
  ys : List Word
  elems : List Nat
  scales : List Nat
  nanZ : Nat
  clamped : Nat
deriving DecidableEq, Repr

/-- A drained row of `n` columns (08 R233). -/
def drainRow (int : Bool) (f : Fmt) (b : Bank) (row : BitVec 4096) (n : Nat) : DrainRow :=
  let es := (List.range n).map (fun j => lane row j)
  if int && f = .int32 then { ys := es.map (fun e => f32OfInt e.toInt), elems := es.map (fun e => e.toNat), scales := [], nanZ := 0, clamped := 0 }
  else
    let xs := if int then es.map (fun e => f32OfInt e.toInt) else es
    let ys := (xs.zip (List.range n)).map (fun p => drainY b p.2 p.1)
    if f.isMx then
      let blocks := (List.range (n / 32)).map (fun k => (ys.drop (32 * k)).take 32)
      let ks := blocks.map (fun bl => mxScale f bl)
      let nr := (blocks.zip ks).flatMap (fun p => p.1.map (fun y => narrowW f 0 p.2 y))
      { ys, elems := nr.map (fun r => r.code), scales := ks.map (fun k => (k + 127).toNat)
        nanZ := (nr.filter (fun r => r.nanZeroed)).length, clamped := (nr.filter (fun r => r.clamped)).length }
    else
      let zp := fun (j : Nat) => if f = .int8 then (b.zpAt j).toInt else if f = .uint8 then ((b.zpAt j).toNat : Int) else 0
      let nr := (ys.zip (List.range n)).map (fun p => narrowW f (zp p.2) 0 p.1)
      { ys, elems := nr.map (fun r => r.code), scales := [], nanZ := (nr.filter (fun r => r.nanZeroed)).length
        clamped := (nr.filter (fun r => r.clamped)).length }

/-- The .mxs statistics of a row (08 R235): maximum from column 0 under 03 R78, sum in column order from +0. -/
def rowStats (ys : List Word) : Word × Word :=
  (match ys with
   | [] => f32NaN
   | y :: r => r.foldl f32Max y,
   ys.foldl f32Add 0)

/-- The last write of a drain lands this many cycles after its start (08 R237). -/
def drainCycles (t : Tile) (f : Fmt) (mxs : Bool) : Nat :=
  let rowB := t.lineBytes f + (if f.isMx then t.minor / 32 else 0)
  12 + t.major * ((rowB + 255) / 256) + (if mxs then (t.major + 31) / 32 else 0)

/-- The writes of a store list into the object of an address; true when a word stayed uncorrectable (13 R356). -/
def storeObj (c g : Nat) (a : DWord) (ws : List (Nat × Byte)) (h : Hw) : Hw × Bool :=
  match (ctx h c).objs.find? (fun o => o.handle = addrHandle a) with
  | none => (h, false)
  | some o =>
    let (m, bad) := (objMem h (objKey c o g)).store o.tier ws
    (modMem h (objKey c o g) (fun _ => m), bad)

/-- DRAIN_COMPLETE (06 R178, R179, 08 R233 to R237): every element is written through the scale stage, the status word tells the group's
flags, the bank's version and NAN_ZEROED, the drain is observed (09 R255), and the group closes. `ecc` as for an update, in one of the
rows drained. -/
def drainComplete (g ecc : Nat) (h : Hw) : Hw :=
  if !galRuns h g then h else
  let G := gal h g
  match groupCtx h g, G.queue, G.group with
  | some c, op :: _, some gr =>
    let t := tileOf op.desc
    match fmtOf t.fmt with
    | none => h
    | some f =>
      let bay := tierOf (ctx h c) t.base = 0
      if op.kind ≠ .drain ∨ !op.started ∨ (bay && G.loader.isSome) ∨ G.cycle < op.since + drainCycles t f op.mxs.isSome then h
      else if ecc = 2 then
        let (k, h) := freePick t.major h
        tileUncorrectable c g gr.holder (sramUncorrectable (modGal h g (fun G => { G with accUncorr := true, accLastRow := op.base + k })))
      else
        let h := if ecc = 1 then
            let (k, h) := freePick t.major h
            let n := satAdd 16 G.accCorrected 1
            saturated 16 (0x100104 + g * 0x1000) G.accCorrected n
              (sramCorrected 3 (g + 2 ^ 7 * (op.base + k)) (modGal h g (fun G => { G with accCorrected := n, accLastRow := op.base + k })))
          else h
        let wf := (fmtOf gr.fw).getD .int8
        let b := (vsuOf G c).active
        let rows : List (Nat × DrainRow) := (List.range t.major).map (fun n => (n, drainRow (isIntPair wf) f b (accRowOf g G (op.base + n)) t.minor))
        let ws := rows.flatMap (fun (r : Nat × DrainRow) => bytesAt (addrOff t.base + r.1 * t.stride) (t.lineBytes f) (packElems f.bits r.2.elems))
        let ss := rows.flatMap (fun (r : Nat × DrainRow) => bytesAt (addrOff t.sbase + r.1 * t.scaleStride f) r.2.scales.length (packElems 8 r.2.scales))
        let (h, b1) := storeObj c g t.base ws h
        let (h, b2) := if f.isMx then storeObj c g t.sbase ss h else (h, false)
        let (h, b3) := match op.mxs with
          | none => (h, false)
          | some a => storeObj c g a (rows.flatMap (fun (r : Nat × DrainRow) => let (mx, sm) := rowStats r.2.ys
              bytesAt (addrOff a + 8 * r.1) 8 (mx.toNat + 2 ^ 32 * sm.toNat))) h
        let nz := rows.foldl (fun (n : Nat) (r : Nat × DrainRow) => n + r.2.nanZ) 0
        let skip : Bool := isIntPair wf && decide (f = Fmt.int32)
        let slotT := (slotOf h g c b.slot).target
        let cl := rows.foldl (fun (n : Nat) (r : Nat × DrainRow) => n + r.2.clamped) 0
        let ys := rows.flatMap (fun (r : Nat × DrainRow) => (List.range t.minor).zip r.2.ys)
        let h := if skip then h else
          if t.fmt = slotT then observe g c ys (t.major * t.minor) cl h else observe g c ys 0 0 h
        let code := if b1 || b2 || b3 then stUncorrectable else stOk
        let st := stWord [(code, 0), (bit gr.sat, 8), (bit gr.inf, 9), (bit gr.nan, 10), (b.ver, 16), (min nz 0xFFFF, 32)]
        let dr := satAdd 32 G.drainRows t.major
        let h := modGal h g (fun G => { G with group := none, queue := [], drainRows := dr })
        let h := saturated 32 (0x100108 + g * 0x1000) G.drainRows dr h
        wake { g, t := gr.holder } (fun T => T.setS op.d st) h
  | _, _, _ => h

/-! ## The commands -/

def execTdesc (th : Thr) (f : Fields) (s : State) : Host.Outcome State Fault Refusal :=
  act (okThr th) (runIsa .tdesc th f (tdescBody th f)) s
def execTopen (th : Thr) (f : Fields) (s : State) : Host.Outcome State Fault Refusal :=
  act (okThr th) (runIsa .topen th f (topenBody th f)) s
def execTload (th : Thr) (f : Fields) (s : State) : Host.Outcome State Fault Refusal :=
  act (okThr th) (runIsa .tload th f (tloadBody th f)) s
def execTswap (th : Thr) (f : Fields) (s : State) : Host.Outcome State Fault Refusal :=
  act (okThr th) (runIsa .tswap th f (tswapBody th f)) s
def execTstream (th : Thr) (f : Fields) (s : State) : Host.Outcome State Fault Refusal :=
  act (okThr th) (runIsa .tstream th f (streamBody false th f)) s
def execTstreamt (th : Thr) (f : Fields) (s : State) : Host.Outcome State Fault Refusal :=
  act (okThr th) (runIsa .tstreamt th f (streamBody true th f)) s
def execTdrain (th : Thr) (f : Fields) (s : State) : Host.Outcome State Fault Refusal :=
  act (okThr th) (runIsa .tdrain th f (tdrainBody th f)) s
def execArrayLeaseGrant (g : Nat) (s : State) : Host.Outcome State Fault Refusal := act (decide (g < 96)) (leaseGrant g) s
def execStationaryLoadStart (g : Nat) (s : State) : Host.Outcome State Fault Refusal := act (decide (g < 96)) (loadStart g) s
def execStationaryLoadDone (g : Nat) (s : State) : Host.Outcome State Fault Refusal := act (decide (g < 96)) (loadDone g) s
def execRowEntry (g : Nat) (s : State) : Host.Outcome State Fault Refusal := act (decide (g < 96)) (rowEntry g) s
def execAccumulatorUpdate (g ecc : Nat) (wit : Bool) (s : State) : Host.Outcome State Fault Refusal :=
  act (decide (g < 96)) (accumulatorUpdate g ecc wit) s
def execBurstGrant (w : Nat) (s : State) : Host.Outcome State Fault Refusal := act (decide (w < 12)) (burstGrant w) s
def execDrainStart (g : Nat) (s : State) : Host.Outcome State Fault Refusal := act (decide (g < 96)) (drainStart g) s
def execDrainComplete (g ecc : Nat) (s : State) : Host.Outcome State Fault Refusal := act (decide (g < 96)) (drainComplete g ecc) s

end Sys2Proof.Machine
end

