-- ==== Sys2Proof/Machine/Selection.lean ====
section
/-!
DEFINITION. Threshold compaction and top-k (chapter 10; 06 R191 to R194, R199): SELT, TOPK and MERGE, and the engine that runs them.
-/
namespace Sys2Proof.Machine

/-- A selection record (10 R266): its 16 bytes and whether they are uncorrectable. -/
structure SelRec where
  raw : Nat
  bad : Bool
deriving DecidableEq, Repr

def SelRec.key (r : SelRec) : Word := BitVec.ofNat 32 r.raw
def SelRec.id (r : SelRec) : Nat := r.raw / 2 ^ 64
/-- The reserved ID of sentinels (10 R267). -/
def SelRec.reserved (r : SelRec) : Bool := decide (r.id = 2 ^ 64 - 1)
def SelRec.isNaN (r : SelRec) : Bool := f32IsNaN r.key
/-- Neither skipped nor NaN (10 R275). -/
def SelRec.valid (r : SelRec) : Bool := !r.reserved && !r.isNaN
/-- KEY +∞, AUX 0, ID all ones (10 R267). -/
def sentinel : Nat := 0x7F800000 + (2 ^ 64 - 1) * 2 ^ 64

/-- `n` records at an object address seen from gallery `g`. -/
def readRecs (h : Hw) (c g : Nat) (a : DWord) (n : Nat) : List SelRec :=
  match (ctx h c).objs.find? (fun o => o.handle = addrHandle a) with
  | none => []
  | some o =>
    let m := objMem h (objKey c o g)
    (List.range n).map (fun i => { raw := m.readLE (addrOff a + 16 * i) 16, bad := m.isBad o.tier (addrOff a + 16 * i) 16 })

/-- The order-preserving image of a key (10 R274). -/
def ordinal (w : Word) : Nat :=
  let w := if f32IsZero w then 0 else w
  if w.msb then (w ^^^ 0xFFFFFFFF).toNat else (w ^^^ 0x80000000).toNat

/-- What a selection instruction leaves: records written, COUNT, SHORT, TIE, OVERFLOW, NAN_DROPPED. -/
structure SelOut where
  recs : List Nat
  count : Nat
  short : Bool := false
  tie : Bool := false
  overflow : Bool := false
  nans : Nat

/-- The selection status word (06 R191). -/
def SelOut.status (o : SelOut) (code : Nat) : DWord :=
  stWord [(code, 0), (bit o.short, 8), (bit o.tie, 9), (bit o.overflow, 10), (min o.nans 0xFFFF, 16), (o.count, 32)]

/-! ## SELT (10 R273, 06 R192) -/

def seltOut (strict : Bool) (thr : Word) (cap : Nat) (rs : List SelRec) : SelOut :=
  let live := rs.filter (fun r => !r.reserved)
  let keep := live.filter (fun r => !r.isNaN && (if strict then f32Lt r.key thr else f32Le r.key thr))
  { recs := (keep.take cap).map (fun r => r.raw), count := min cap keep.length, overflow := decide (cap < keep.length)
    nans := (live.filter (fun r => r.isNaN)).length }

/-! ## TOPK (10 R275, R276) -/

/-- The state of the refinement: boundary prefix, count below it, whether the store holds the candidates, the candidates that the
store kept, the last bin's count, whether it ended early, the levels run (the prefix's bytes). -/
structure Refine where
  pre : Nat := 0
  below : Nat := 0
  inStore : Bool := false
  kept : List SelRec := []
  last : Nat := 0
  early : Bool := false
  levels : Nat := 0

/-- One level of 10 R275: the histogram of the level's byte over matching records, the smallest bin that reaches k, the
compaction pass when what is left fits the store. -/
def refineLevel (k : Nat) (valid : List SelRec) (r : Refine) (level : Nat) : Refine :=
  if r.early then r else
  let src := if r.inStore then r.kept else valid
  let sh := 8 * (4 - level)
  let mt := src.filter (fun x => ordinal x.key / 2 ^ sh = r.pre)
  let byte := fun (x : SelRec) => ordinal x.key / 2 ^ (sh - 8) % 256
  let count := fun (b : Nat) => (mt.filter (fun x => byte x = b)).length
  let upto := fun (b : Nat) => (mt.filter (fun x => byte x < b)).length
  let b := ((List.range 256).find? (fun b => k ≤ r.below + upto (b + 1))).getD 255
  let below := r.below + upto b
  let pre := r.pre * 256 + b
  let fit := !r.inStore && decide (below + count b ≤ 8192)
  let kept := if fit then valid.filter (fun x => ordinal x.key / 2 ^ (sh - 8) ≤ pre) else r.kept
  { pre, below, inStore := r.inStore || fit, kept, last := count b, early := decide (below + count b = k), levels := level + 1 }

/-- Records in an unspecified order: each gets a free rank. -/
def freeRank (n : Nat) (rs : List SelRec) : List (Nat × SelRec) := (List.range rs.length |>.map (fun i => Config.freeChoice n i)).zip rs

def insRec (lt : Nat × SelRec → Nat × SelRec → Bool) (x : Nat × SelRec) : List (Nat × SelRec) → List (Nat × SelRec)
  | [] => [x]
  | y :: r => if lt x y then x :: y :: r else y :: insRec lt x r
def sortRec (lt : Nat × SelRec → Nat × SelRec → Bool) (l : List (Nat × SelRec)) : List (Nat × SelRec) := l.foldr (insRec lt) []

/-- Ascending key order, records of equal key in an unspecified order (10 R275; log 10). -/
def sortByKey (n : Nat) (rs : List SelRec) : List SelRec :=
  (sortRec (fun a b => f32Lt a.2.key b.2.key || (f32Eq a.2.key b.2.key && decide (a.1 < b.1))) (freeRank n rs)).map (fun x => x.2)

/-- `j` of the records, which ones unspecified (10 R275; log 10). -/
def chooseSome (n j : Nat) (rs : List SelRec) : List SelRec :=
  ((sortRec (fun a b => decide (a.1 < b.1)) (freeRank n rs)).take j).map (fun x => x.2)

def topkOut (n k : Nat) (rs : List SelRec) : SelOut :=
  let live := rs.filter (fun r => !r.reserved)
  let nans := (live.filter (fun r => r.isNaN)).length
  let valid := live.filter (fun r => !r.isNaN)
  if valid.length < k then
    { recs := (sortByKey n valid).map (fun r => r.raw) ++ List.replicate (k - valid.length) sentinel, count := valid.length, short := true, nans }
  else
    let r := [0, 1, 2, 3].foldl (refineLevel k valid) {}
    let sh := 8 * (4 - r.levels)
    let sure := valid.filter (fun x => ordinal x.key / 2 ^ sh < r.pre)
    let cand := valid.filter (fun x => ordinal x.key / 2 ^ sh = r.pre)
    let cand := if r.inStore then cand else cand.take (8192 - r.below)
    let chosen := sure ++ chooseSome (n + 1) (k - r.below) cand
    { recs := (sortByKey n chosen).map (fun r => r.raw), count := k, tie := !r.early && decide (k - r.below < r.last), nans }

/-! ## MERGE (10 R278 to R280) -/

/-- The state of a merge: the rest of each list, the records written (latest first), NaNs, TIE, an uncorrectable record met. -/
structure Merge where
  lists : List (List SelRec)
  out : List SelRec := []
  nans : Nat := 0
  tie : Bool := false
  bad : Bool := false
  done : Bool := false

/-- Skip the NaN and reserved records at a list's head, counting the NaN ones. -/
def stripHead : List SelRec → List SelRec × Nat
  | [] => ([], 0)
  | r :: t => if r.bad then (r :: t, 0) else if r.reserved then stripHead t
    else if r.isNaN then ((stripHead t).1, (stripHead t).2 + 1) else (r :: t, 0)

/-- One record read (10 R278): of the smallest head keys, one that the manual does not name. -/
def mergeStep (dedup : Bool) (k n : Nat) (m : Merge) : Merge :=
  if m.done then m else
  let ls := m.lists.map stripHead
  let m := { m with lists := ls.map (fun (x : List SelRec × Nat) => x.1), nans := ls.foldl (fun (a : Nat) (x : List SelRec × Nat) => a + x.2) m.nans }
  let heads : List SelRec := m.lists.filterMap (fun (l : List SelRec) => l.head?)
  if heads.any (fun r => r.bad) then { m with bad := true, done := true } else
  match heads with
  | [] => { m with done := true }
  | r0 :: rest =>
    let best := rest.foldl (fun (b : Word) (r : SelRec) => if f32Lt r.key b then r.key else b) r0.key
    if decide (k ≤ m.out.length) && (match m.out.head? with | some z => f32Lt z.key best | none => false) then { m with done := true } else
    let idx := (List.range m.lists.length).filter (fun i => match ((m.lists[i]?).getD []).head? with
      | some r => f32Eq r.key best
      | none => false)
    let i := (idx[Config.freeChoice n (m.out.length + m.nans) % max 1 idx.length]?).getD 0
    let l := (m.lists[i]?).getD []
    let m' := { m with lists := m.lists.set i l.tail }
    match l.head? with
    | none => { m with done := true }
    | some r =>
      if dedup && m.out.any (fun z => z.id == r.id) then m'
      else if m.out.length < k then { m' with out := r :: m.out } else { m' with tie := true }

/-- The list is in ascending key order, NaN and reserved records aside (10 R278). -/
def ascending (l : List SelRec) : Bool :=
  let v := l.filter (fun r => r.valid && !r.bad)
  (v.zip v.tail).all (fun (p : SelRec × SelRec) => !f32Lt p.2.key p.1.key)

def mergeRun (dedup : Bool) (k n : Nat) (lists : List (List SelRec)) : Merge :=
  (List.range (lists.foldl (fun a l => a + l.length) 1)).foldl (fun m i => mergeStep dedup k (n + i) m) { lists }

def mergeOut (k : Nat) (m : Merge) : SelOut :=
  let out := m.out.reverse
  { recs := out.map (fun r => r.raw) ++ List.replicate (k - out.length) sentinel, count := out.length
    short := decide (out.length < k), tie := m.tie, nans := m.nans }

/-! ## Issue -/

/-- Two byte ranges of the context's objects overlap (10 R268). -/
def overlap (a : DWord) (n : Nat) (b : DWord) (m : Nat) : Bool :=
  addrHandle a == addrHandle b && n != 0 && m != 0 && decide (addrOff a < addrOff b + m) && decide (addrOff b < addrOff a + n)

/-- The bytes of the ranges a selection instruction uses (10 R269). -/
def selBytes (h : Hw) (c g : Nat) (rs : List (DWord × Nat)) : List Nat :=
  rs.map (fun r => match (ctx h c).objs.find? (fun o => o.handle = addrHandle r.1) with
    | none => 0
    | some o => (objMem h (objKey c o g)).readLE (addrOff r.1) r.2)

def SelJob.ranges (j : SelJob) : List (DWord × Nat) := (j.output, 16 * j.cap) :: j.lists.map (fun l => (l.1, 16 * l.2))

/-- A checked selection instruction enters the engine's queue and its thread blocks (10 R270). -/
def queueSel (th : Thr) (c : Nat) (j : SelJob) (h : Hw) : IRes :=
  .block (modGal h th.g (fun G => { G with sel := G.sel ++ [{ j with before := selBytes h c th.g j.ranges }] })) .select

def seltBody (th : Thr) (f : Fields) (c : Nat) (h : Hw) : IRes :=
  let T := thread h th
  let (inp, par, out, cap) := (T.sreg f.a, T.sreg f.b, T.sreg f.c, (T.sreg f.e).toNat)
  let n := par.toNat % 2 ^ 32
  if !decide (f.mod.toNat < 2) || !xZero f false false true true true then .fault cIllegalOperand
  else match checkAccess (ctx h c) inp (16 * n) .r [0, 1, 2] 8, checkAccess (ctx h c) out (16 * cap) .w [0, 1, 2] 8 with
    | .bad e, _ => .fault e
    | _, .bad e => .fault e
    | .ok _ _, .ok _ _ =>
      if inp ≠ out ∧ overlap inp (16 * n) out (16 * cap) then .fault cIllegalOperand
      else queueSel th c { kind := .selt, thr := th.t, ctx := c, flag := f.m 0, param := par, output := out, cap, d := f.d, lists := [(inp, n)] } h

def selK (par : DWord) : Nat := par.toNat / 2 ^ 32 % 2 ^ 16

def topkBody (th : Thr) (f : Fields) (c : Nat) (h : Hw) : IRes :=
  let T := thread h th
  let (inp, par, out) := (T.sreg f.a, T.sreg f.b, T.sreg f.c)
  let n := par.toNat % 2 ^ 32
  let k := selK par
  if f.mod ≠ 0 || !xZero f false true true true true || k = 0 || decide (4096 < k) then .fault cIllegalOperand
  else match checkAccess (ctx h c) inp (16 * n) .r [0, 1, 2] 8, checkAccess (ctx h c) out (16 * k) .w [0, 1, 2] 8 with
    | .bad e, _ => .fault e
    | _, .bad e => .fault e
    | .ok _ _, .ok _ _ =>
      if overlap inp (16 * n) out (16 * k) then .fault cIllegalOperand
      else queueSel th c { kind := .topk, thr := th.t, ctx := c, flag := false, param := par, output := out, cap := k, d := f.d, lists := [(inp, n)] } h

def mergeBody (th : Thr) (f : Fields) (c : Nat) (h : Hw) : IRes :=
  let T := thread h th
  let (tab, par, out) := (T.sreg f.a, T.sreg f.b, T.sreg f.c)
  let n := par.toNat % 256
  let k := selK par
  if !decide (f.mod.toNat < 2) || !xZero f false true true true true || decide (n < 2) || decide (16 < n) || k = 0 || decide (4096 < k)
  then .fault cIllegalOperand
  else match checkAccess (ctx h c) tab (16 * n) .r [0, 1, 2] 8, checkAccess (ctx h c) out (16 * k) .w [0, 1, 2] 8 with
    | .bad e, _ => .fault e
    | _, .bad e => .fault e
    | .ok o off, .ok _ _ =>
      let m := objMem h (objKey c o th.g)
      let job : SelJob := { kind := .merge, thr := th.t, ctx := c, flag := f.m 0, param := par, output := out, cap := k, d := f.d, lists := [] }
      if m.isBad o.tier off (16 * n) then queueSel th c { job with tableBad := true } h else
      let ents := (List.range n).map (fun i => (BitVec.ofNat 64 (m.readLE (off + 16 * i) 8), m.readLE (off + 16 * i + 8) 4, m.readLE (off + 16 * i + 12) 4))
      let fault := ents.findSome? (fun (e : DWord × Nat × Nat) =>
        if e.2.2 ≠ 0 then some cIllegalOperand else (checkAccess (ctx h c) e.1 (16 * e.2.1) .r [0, 1, 2] 8).cause?)
      match fault with
      | some e => .fault e
      | none =>
        if overlap tab (16 * n) out (16 * k) || ents.any (fun (e : DWord × Nat × Nat) => overlap e.1 (16 * e.2.1) out (16 * k)) then .fault cIllegalOperand
        else queueSel th c { job with lists := ents.map (fun (e : DWord × Nat × Nat) => (e.1, e.2.1)) } h

/-! ## The engine -/

/-- The instruction the engine works on: the first that is not paused and whose context runs (10 R270). -/
def selCurrent (h : Hw) (g : Nat) : Option SelJob := (gal h g).sel.find? (fun j => !j.paused && mayRun h j.ctx g)

/-- The instruction of a context that becomes HELD pauses (06 R199, 10 R270). -/
def pauseSel (c g : Nat) (h : Hw) : Hw :=
  match selCurrent h g with
  | some j => if j.ctx = c then modGal h g (fun G => { G with sel := G.sel.map (fun x => if x == j then { x with paused := true } else x) }) else h
  | none => h

/-- SELECTION_RESUME (06 R199, 10 R270): a paused instruction of a context that runs again goes to the head of the queue. -/
def selResume (g : Nat) (h : Hw) : Hw :=
  match (gal h g).sel.find? (fun j => j.paused && mayRun h j.ctx g) with
  | none => h
  | some j => modGal h g (fun G => { G with sel := { j with paused := false } :: G.sel.erase j })

/-- What the manual leaves undefined of a selection's result (10 R269, R272; 06 R194): the output's bytes. -/
def forgetOut (c g : Nat) (j : SelJob) (h : Hw) : Hw :=
  match (ctx h c).objs.find? (fun o => o.handle = addrHandle j.output) with
  | none => h
  | some o => let (e, h) := freshEpoch h; modMem h (objKey c o g) (fun m => m.forget (addrOff j.output) (16 * j.cap) e)

/-- SELECTION_COMPLETE (10 R270 to R280): the output and the status word are written and the thread is released. An uncorrectable
input record ends it with MEDIA_UNCORRECTABLE (10 R272). Ranges written meanwhile (10 R269) or a list out of order (06 R194) leave
the output undefined and the status word's other fields open. -/
def selComplete (g : Nat) (h : Hw) : Hw :=
  if !galRuns h g then h else
  match selCurrent h g with
  | none => h
  | some j =>
    let c := j.ctx
    let h := modGal h g (fun G => { G with sel := G.sel.erase j })
    let done := fun (st : DWord) (h : Hw) => wake { g, t := j.thr } (fun T => T.setS j.d st) h
    let lists := j.lists.map (fun l => readRecs h c g l.1 l.2)
    let input := lists.flatten
    let k := selK j.param
    let mg := mergeRun j.flag k h.free lists
    let bad := j.tableBad || (if j.kind = .merge then mg.bad else input.any (fun r => r.bad))
    if selBytes h c g j.ranges ≠ j.before ∨ (j.kind = .merge ∧ !lists.all ascending) then
      let h := forgetOut c g j h
      let (st, h) := freeVal 56 h
      done (st ++ BitVec.ofNat 8 stOk) h
    else if bad then done (stWord [(stUncorrectable, 0)]) (forgetOut c g j h)
    else
      let o := match j.kind with
        | .selt => seltOut j.flag (BitVec.ofNat 32 (j.param.toNat / 2 ^ 32)) j.cap input
        | .topk => topkOut h.free k input
        | .merge => mergeOut k mg
      let h := { h with free := h.free + 2 + input.length }
      let (h, lost) := storeObj c g j.output ((List.range o.recs.length).zip o.recs |>.flatMap (fun (p : Nat × Nat) => bytesAt (addrOff j.output + 16 * p.1) 16 p.2)) h
      done (o.status stOk) (if lost then noteFailure { g, t := j.thr } stUncorrectable h else h)

/-! ## The commands -/

def execSelt (th : Thr) (f : Fields) (s : State) : Host.Outcome State Fault Refusal :=
  act (okThr th) (runIsa .selt th f (seltBody th f)) s
def execTopk (th : Thr) (f : Fields) (s : State) : Host.Outcome State Fault Refusal :=
  act (okThr th) (runIsa .topk th f (topkBody th f)) s
def execMerge (th : Thr) (f : Fields) (s : State) : Host.Outcome State Fault Refusal :=
  act (okThr th) (runIsa .merge th f (mergeBody th f)) s
def execSelectionResume (g : Nat) (s : State) : Host.Outcome State Fault Refusal := act (decide (g < 96)) (selResume g) s
def execSelectionComplete (g : Nat) (s : State) : Host.Outcome State Fault Refusal := act (decide (g < 96)) (selComplete g) s

end Sys2Proof.Machine
end

