-- ==== Sys2Proof/Machine/Jobs.lean ====
section
/-!
DEFINITION. What jobs, threads and partitions share (chapter 12; 05 R138, R149 to R159; 19 R513, R514): semaphores, inboxes, fences and
barriers, halting, incarnations and their completions, the running context, lends, teardown.
-/
namespace Sys2Proof.Machine

def modJst (f : Jst → Jst) (h : Hw) : Hw := { h with jst := f h.jst }

/-- A bit of JST_EVT set (12 R341; 18 R595): 0 ABANDON, 1 LEND_TIMEOUT, 2 TEARDOWN, 3 PART_RESET. -/
def setJstEvt (b p : Nat) (h : Hw) : Hw :=
  if h.jst.evt.testBit b then h
  else raiseEvent 3 b (if b = 3 then 1 else 0) p 0 (modJst (fun j => { j with evt := j.evt + 2 ^ b }) h)

/-- The class a thread carries (12 R330): the waiter's while its context is lent on its gallery, else its context's. -/
def thrClass (h : Hw) (c g : Nat) : Nat :=
  match (part h (c / 4)).lends.find? (fun l => l.ctx = c && l.g = g) with
  | some l => l.cls
  | none => (ctx h c).cls

/-! ## Semaphores (05 R149 to R152) -/

def semOf (h : Hw) (p n : Nat) : Sem := tgetD (part h p).sems n {}
def modSem (p n : Nat) (f : Sem → Sem) (h : Hw) : Hw := modPart h p (fun P => { P with sems := tmod P.sems n {} f })

/-- A waiter's place: by class from URGENT down, then in order of SEMA (05 R150). -/
def queueWaiter (w : Nat × Nat × Nat) : List (Nat × Nat × Nat) → List (Nat × Nat × Nat)
  | [] => [w]
  | x :: r => if x.2.2 < w.2.2 then w :: x :: r else x :: queueWaiter w r

/-- A lend goes on while its owner thread holds a semaphore that a thread which may run waits for (12 R331, R332). -/
def lendNeeded (h : Hw) (p : Nat) (l : Lend) : Bool :=
  (part h p).sems.any (fun e => e.2.owner == some (l.g, l.t) && e.2.queue.any (fun w => match thrCtx h { g := w.1, t := w.2.1 } with
    | some c => mayRun h c w.1 && c != l.ctx
    | none => false))

/-- Lends that are no longer needed end; the end of one is a scheduling point (12 R325). -/
def endLends (p : Nat) (h : Hw) : Hw :=
  if (part h p).lends.all (fun l => lendNeeded h p l) then h
  else modPart h p (fun P => { P with lends := P.lends.filter (fun l => lendNeeded h p l), schedDue := true })

/-- Semaphore `n` released (05 R151, R152): it passes to the head of its queue in the same cycle, or becomes free; `ab` marks it
abandoned. -/
def releaseSem (p n : Nat) (ab : Bool) (h : Hw) : Hw :=
  let s := semOf h p n
  let mark := s.abandoned || ab
  let h := match s.queue with
    | [] => modSem p n (fun s => { s with owner := none, abandoned := mark }) h
    | (g, t, _) :: r =>
      let h := modSem p n (fun s => { s with owner := some (g, t), queue := r, abandoned := false }) h
      match (thread h { g, t }).st with
      | .blocked (.sem _ d) => wake { g, t } (fun T => T.setS d (stWord [(if mark then stSemAbandoned else stOk, 0)])) h
      | _ => h
  endLends p h

/-- Every semaphore that threads of a set hold is released. -/
def releaseOwned (p : Nat) (mine : Nat × Nat → Bool) (ab : Bool) (h : Hw) : Hw :=
  (part h p).sems.foldl (fun h e => match (semOf h p e.1).owner with
    | some o => if mine o then releaseSem p e.1 ab h else h
    | none => h) h

/-! ## Posted operations and fences (04 R103; 05 R154, R155, R159) -/

def hasPosts (h : Hw) (th : Thr) : Bool := (gal h th.g).post.any (fun p => p.thr = th.t)

/-- The FENCE's status word: the first failure, which it consumes (05 R155). -/
def fenceStatus (T : Thread) : Nat := T.failure.getD stOk

/-! ## Fabric barriers of a member (19 R513, R514) -/

/-- The members of a context's fabric barriers: this module and every module that a remote-tier object names. -/
def membersOf (h : Hw) (c : Nat) : List Nat :=
  ((ctx h c).objs.filter (fun o => o.tier = 4)).foldl (fun l o => let m := o.bindId % 2 ^ 14; if l.contains m then l else l ++ [m]) [h.ffu.id]
def rootOf (h : Hw) (c : Nat) : Nat := (membersOf h c).foldl min 0x3FFF
def epochOf (h : Hw) (c n : Nat) : Nat := tgetD (ctx h c).epochs n 0

/-- Threads of a context that have started and not halted. -/
def liveThreads (h : Hw) (c : Nat) : List Thr :=
  (ctxThreads h c).filter (fun th => let s := (thread h th).st; s != .free && s != .halted)

/-- The thread has arrived at a barrier (05 R153). -/
def arrivedAt (h : Hw) (scope n : Nat) (th : Thr) : Bool :=
  match (thread h th).st with
  | .blocked (.barrier s m _ _) => s == scope && m == n
  | _ => false

/-- Threads that have arrived at a barrier go on, with the status of their fence or the one given (05 R153, 19 R514). -/
def releaseBarrier (scope n : Nat) (st : Option Nat) (ths : List Thr) (h : Hw) : Hw :=
  ths.foldl (fun h th => match (thread h th).st with
    | .blocked (.barrier s m d x) => if s = scope ∧ m = n then wake th (fun T => T.setS d (stWord [(st.getD x, 0)])) h else h
    | _ => h) h

/-- A fabric barrier's instance ends at this member: its threads go on and its epoch advances (19 R514). -/
def endFabricBarrier (c n : Nat) (st : Option Nat) (h : Hw) : Hw :=
  let h := releaseBarrier 2 n st (liveThreads h c) h
  modCtx h c (fun x => { x with epochs := tput x.epochs n ((epochOf h c n + 1) % 65536), arrived := tdel x.arrived n })

def rootRec (h : Hw) (c n : Nat) : Root := tgetD h.ffu.roots (c * 16 + n) {}
def modRoot (c n : Nat) (f : Root → Root) (h : Hw) : Hw := modFfu (fun u => { u with roots := tmod u.roots (c * 16 + n) {} f }) h

/-- The answer to each remote member's ARRIVE of the current epoch. -/
def answerMembers (c n ty status reason : Nat) (h : Hw) : Hw :=
  let r := rootRec h c n
  r.cur.foldl (fun h m => match tget r.tags m with
    | some t => reply { dest := h.ffu.id, src := m, ty := 0x04, tag := t, peer := c / 4 + 16 * (c % 4) } ty status reason h
    | none => h) h

/-- The next epoch becomes the current one at the root. -/
def advanceRoot (c n : Nat) (h : Hw) : Hw :=
  modRoot c n (fun r => { r with cur := r.next, next := [], curSince := r.nextSince, nextSince := none }) h

/-- Every member has arrived, those that have halted counting as arrived: the root releases them (19 R513, R514). -/
def tryRelease (c n : Nat) (h : Hw) : Hw :=
  let r := rootRec h c n
  if r.cur.isEmpty ∨ !(membersOf h c).all (fun m => r.cur.contains m || (rootRec h c 0).halted.contains m) then h
  else endFabricBarrier c n none (advanceRoot c n (answerMembers c n 0x84 stOk 0 h))

/-- An arrival counted at the root for its current epoch or the next (19 R514). -/
def rootArrive (c n m epoch : Nat) (h : Hw) : Hw :=
  let e := epochOf h c n
  let h := modRoot c n (fun r =>
    if epoch = e then { r with cur := r.cur ++ [m], curSince := r.curSince.or (some (now h)) }
    else { r with next := r.next ++ [m], nextSince := r.nextSince.or (some (now h)) }) h
  tryRelease c n h

/-- ARRIVE sent to the root, or counted here by the root itself (19 R513, R514). Without a credit it waits for one; without a route the
barrier ends with REMOTE_UNREACHABLE. -/
def sendArrive (c n : Nat) (halted : Bool) (h : Hw) : Hw :=
  let e := epochOf h c n
  if rootOf h c = h.ffu.id then
    if halted then
      let h := modRoot c 0 (fun r => { r with halted := if r.halted.contains h.ffu.id then r.halted else r.halted ++ [h.ffu.id] }) h
      (List.range 16).foldl (fun h n => tryRelease c n h) h
    else rootArrive c n h.ffu.id e h
  else
    let body := n + (if halted then 256 else 0) + 65536 * e
    let h := if halted then h else modCtx h c (fun x => { x with arrived := tput x.arrived n (now h) })
    match issueReq c (.arrive n) (rootOf h c) 0x04 8 body h with
    | .sent h _ => h
    | .unreachable => if halted then h else endFabricBarrier c n (some stUnreachable) h
    | .noCredit =>
      let p : Packet := { dest := rootOf h c, src := h.ffu.id, ty := 0x04, tag := freeReqTag h, peer := c / 4 + 16 * (c % 4), len := 8, body }
      modFfu (fun u => { u with reqs := u.reqs ++ [{ tag := p.tag, ctx := c, kind := .arrive n, pkt := p, resend := some (now h), since := now h }] }) h

/-- This member has arrived at a fabric barrier: every thread that has started and not halted is there, and its ARRIVE is not sent yet. -/
def memberArrive (c n : Nat) (h : Hw) : Hw :=
  let ths := liveThreads h c
  let sent := (tget (ctx h c).arrived n).isSome || (rootOf h c = h.ffu.id && (rootRec h c n).cur.contains h.ffu.id)
  if ths.isEmpty ∨ sent ∨ !ths.all (arrivedAt h 2 n) then h else sendArrive c n false h

/-- A FENCE, or the FENCE of a BAR, whose posted operations have all completed (05 R154, R155). -/
def resolveFence (th : Thr) (h : Hw) : Hw :=
  match (thread h th).st with
  | .blocked (.fence d bar) =>
    if hasPosts h th then h else
    let st := fenceStatus (thread h th)
    let h := modThr h th (fun T => { T with failure := none })
    match bar with
    | none => wake th (fun T => T.setS d (stWord [(st, 0)])) h
    | some (scope, n) =>
      let h := modThr h th (fun T => { T with st := .blocked (.barrier scope n d st) })
      match scope, thrCtx h th with
      | 2, some c => memberArrive c n h
      | _, _ => h
  | _ => h

/-! ## Messages (05 R157, R158) -/

/-- A message copied to the bay and its status word (05 R158): the context, the RECV's operands. -/
def recvDo (th : Thr) (c : Nat) (addr : DWord) (limit : Nat) (m : Msg) (h : Hw) : Hw × DWord :=
  let n := min m.len limit
  let (h, lost) := storeObj c th.g addr (bytesAt (addrOff addr) n m.data) h
  let h := if lost then noteFailure th stUncorrectable h else h
  let code := if limit < m.len then stTruncated else stOk
  (h, if m.remote then stWord [(code, 0), (m.len, 8), (1, 17), (m.srcModule, 48)] else stWord [(code, 0), (m.len, 8), (m.sg, 32), (m.st, 40)])

/-- A message enters a thread's inbox; a thread blocked in RECV takes it (05 R157, R158). -/
def deliver (th : Thr) (m : Msg) (h : Hw) : Hw :=
  match (thread h th).st, thrCtx h th with
  | .blocked (.recv a lim d), some c => let (h, st) := recvDo th c a lim m h; wake th (fun T => T.setS d st) h
  | _, _ => modThr h th (fun T => { T with inbox := T.inbox ++ [m] })

/-- Senders blocked on the inbox of a thread that halted: their messages are discarded, reported at their next FENCE (05 R157). -/
def releaseSenders (th : Thr) (h : Hw) : Hw :=
  (List.range 96).foldl (fun h g => (gal h g).post.foldl (fun h p => match p.kind with
    | .send g' t' _ =>
      if g' = th.g ∧ t' = th.t ∧ !p.arrived then
        let h := arrivePost g p.id stNotPermitted h
        match (thread h { g, t := p.thr }).st with
        | .blocked (.inboxFull i) => if i = p.id then wake { g, t := p.thr } id h else h
        | _ => h
      else h
    | _ => h) h) h

/-! ## Incarnations -/

/-- CHECKPOINT_ID and RECORDS of the progress record (18 R484); 0 without one. -/
def progressOf (h : Hw) (c : Nat) (hd off : Nat) : Nat × Nat :=
  if hd = 0 then (0, 0) else
  match (ctx h c).objs.find? (fun o => o.handle = hd) with
  | none => (0, 0)
  | some o => let m := objMem h (objKey c o 0); (m.readLE off 8, m.readLE (off + 8) 8)

/-- The JOB_SUBMIT completion (18 R485): GALLERY and THREAD name the fault record's only for the causes of R117 and UNCORRECTABLE. -/
def completeJob (c status : Nat) (rec0 : FaultRec) (lost : Bool) (reason : Nat) (h : Hw) : Hw :=
  match (ctx h c).submit with
  | none => h
  | some s =>
    let (ck, rs) := if lost then (0, 0) else progressOf h c s.progHandle s.progOff
    let named := decide (1 ≤ rec0.cause) && (decide (rec0.cause ≤ 0x0B) || rec0.cause == cUncorrectable)
    finishCmd s.cmd
      { status, aux := (ctx h c).restarts
        result := bytesOf [(0, 8, ck), (8, 8, rs), (16, 1, rec0.cause), (17, 1, if named then rec0.gallery else 0xFF),
          (18, 1, if named then rec0.thread else 0xFF), (19, 1, bit lost), (20, 1, reason)] } h

/-- The threads of a context are FREE; what an LDA was still writing is undefined (12 R335 step 3). -/
def freeThreads (c : Nat) (h : Hw) : Hw :=
  let ths := ctxThreads h c
  let h := ths.foldl (fun h th => modGal h th.g (fun G => { dropLatch th.t G with
    thr := tdel G.thr th.t, leaseWait := G.leaseWait.filter (· ≠ th.t), post := G.post.filter (fun p => p.thr ≠ th.t) })) h
  (partGals h (c / 4)).foldl (fun h g => (ctx h c).objs.foldl (fun h o =>
    if o.tier = 0 then modMem h (objKey c o g) (fun m =>
      m.flight.foldl (fun m r => m.forget r.lo r.len r.epoch) { m with flight := [] })
    else h) h) h

/-- The context of a partition that runs no more: a scheduling point follows (12 R325). -/
def leaveRunning (c : Nat) (h : Hw) : Hw :=
  modPart h (c / 4) (fun P => { P with
    running := if P.running = some (c % 4) then none else P.running, lends := P.lends.filter (fun l => l.ctx ≠ c), schedDue := true })

/-- The incarnation is over: the context is LOADED (12 R324, R335 step 7). -/
def endIncarnation (c : Nat) (h : Hw) : Hw :=
  let h := freeThreads c (leaveRunning c (dropLoads c h))
  modCtx h c (fun x => { x with st := .loaded, submit := none, started := false, ranBefore := false, stopped := false, mailStore := [] })

/-- The start of an incarnation (12 R324; 04 R122, R123; 05 R160; 06 R174; 08 R230, R234; 09 R254): ZERO objects are zero-filled, the
threads of every entry point stand at their start on every gallery, the page pool is whole, no TLOAD is recorded, banks and
calibration slots hold their start values. The context is QUEUED. -/
def startIncarnation (c : Nat) (h : Hw) : Hw :=
  let x := ctx h c
  let gs := partGals h (c / 4)
  let h := x.objs.foldl (fun h o =>
    if !o.zero then h
    else if o.tier = 0 then gs.foldl (fun h g => modMem h (objKey c o g) (fun _ => { zero := true })) h
    else modMem h (objKey c o 0) (fun _ => { zero := true })) h
  let start := fun (i : Nat) => x.entries.find? (fun e => decide (e.first ≤ i) && decide (i < e.first + e.count))
  let h := gs.foldl (fun h g => modGal h g (fun G => { G with
    thr := (List.range x.threads).foldl (fun t i => match start i with
      | some e => tput t (x.first + i) { st := .ready, code := e.handle, pc := e.off }
      | none => tdel t (x.first + i)) G.thr
    actOf := tdel G.actOf (c % 4)
    recs := tdel (tdel G.recs (2 * (c % 4))) (2 * (c % 4) + 1)
    vsu := tdel G.vsu (c % 4) })) h
  modCtx h c (fun x => { x with
    st := .queued, started := true, ranBefore := false, stopped := false, incarnation := x.incarnation + 1
    poolFree := List.range x.poolPages, poolPend := [], mailStore := [], epochs := [], arrived := [] })

/-- The context becomes the running one (12 R327 step 5, R331; 04 R89): its recorded stationary loads are reissued and its threads
leave HELD. -/
def makeRunning (c : Nat) (h : Hw) : Hw :=
  let h := modPart h (c / 4) (fun P => { P with running := some (c % 4), switch := none, lends := P.lends.filter (fun l => l.ctx ≠ c) })
  let h := modCtx h c (fun x => { x with st := .running, ranBefore := true })
  (partGals h (c / 4)).foldl (fun h g => if (wing h (g / 8)).sleep = 2 then h else reloadSets c g h) h

/-- The order of a context's JOB_SUBMIT. -/
def submitOrder (h : Hw) (c : Nat) : Nat := match (ctx h c).submit with
  | some s => s.order
  | none => 0

/-- QUEUED and PREEMPTED contexts of a partition, by class and then by JOB_SUBMIT order (12 R325). -/
def candidates (h : Hw) (p : Nat) : List Nat :=
  let cs := ((List.range 4).map (fun i => 4 * p + i)).filter (fun c => ((ctx h c).st = .queued || (ctx h c).st = .preempted) && !(ctx h c).stopped)
  let first := fun (a b : Nat) => decide ((ctx h b).cls < (ctx h a).cls) || ((ctx h a).cls == (ctx h b).cls && decide (submitOrder h a ≤ submitOrder h b))
  cs.foldl (fun (l : List Nat) c => l.takeWhile (fun d => first d c) ++ [c] ++ l.dropWhile (fun d => first d c)) []

/-- GROUP_LIMIT in force for pre-emptions decided now (12 R341). -/
def groupLimitOf (h : Hw) : Nat := min 6000000 (max 10000 h.jst.groupLimit)

/-- SCHEDULING_POINT (12 R325, R327, R329): with no running context the first candidate runs; a strictly higher class pre-empts, unless
PREEMPT_EN is 0; while a pre-emption waits nothing is chosen. -/
def schedulingPoint (p : Nat) (h : Hw) : Hw :=
  let P := part h p
  if !P.schedDue ∨ P.resetting.isSome ∨ P.switch.isSome then h else
  let h := modPart h p (fun P => { P with schedDue := false })
  match candidates h p, P.running with
  | [], _ => h
  | c :: _, none => makeRunning c h
  | c :: _, some r =>
    if (ctx h (4 * p + r)).cls < (ctx h c).cls ∧ h.jst.preemptEn then
      modPart h p (fun P => { P with switch := some { incoming := c % 4, limit := groupLimitOf h, counted := [] } })
    else h

/-- Galleries of a partition whose open group belongs to a context. -/
def openGroups (h : Hw) (c : Nat) : List Nat :=
  (partGals h (c / 4)).filter (fun g => match (gal h g).group with
    | some G => thrCtx h { g, t := G.holder } == some c
    | none => false)

/-- GROUP_LIMIT_EXPIRY (12 R327 step 3): an outgoing group that has not issued its TDRAIN within the limit of counted cycles is abandoned. -/
def groupLimitExpiry (g : Nat) (h : Hw) : Hw :=
  match galPart h g with
  | none => h
  | some p =>
    match (part h p).switch, (part h p).running, (gal h g).group with
    | some s, some r, some G =>
      if s.limit ≤ tgetD s.counted g 0 ∧ !G.drainIssued ∧ thrCtx h { g, t := G.holder } = some (4 * p + r) then
        let n := satAdd 32 (part h p).abandons 1
        let h := saturated 32 (0x40180 + 4 * p) (part h p).abandons n (modPart h p (fun P => { P with abandons := n }))
        setJstEvt 0 p (abandonGroup (4 * p + r) g h)
      else h
    | _, _, _ => h

/-- PREEMPTION_SWITCH (12 R327 steps 4 and 5, R329): every outgoing group is closed or abandoned; the outgoing context is PREEMPTED and
its selections pause; the first candidate runs. -/
def preemptionSwitch (p : Nat) (h : Hw) : Hw :=
  let P := part h p
  match P.switch with
  | none => h
  | some _ =>
    let go := match P.running with
      | some r => (openGroups h (4 * p + r)).isEmpty
      | none => true
    if !go then h else
    let h := match P.running with
      | some r =>
        let c := 4 * p + r
        let h := (partGals h p).foldl (fun h g => pauseSel c g h) h
        modPart (modCtx h c (fun x => { x with st := .preempted })) p (fun P => { P with running := none })
      | none => h
    let n := satAdd 32 P.preempts 1
    let h := modPart h p (fun P => { P with switch := none, preempts := n, schedDue := true })
    let h := saturated 32 (0x40140 + 4 * p) P.preempts n h
    match candidates h p with
    | [] => h
    | c :: _ => makeRunning c h

/-! ## Lends (12 R330 to R333) -/

def lendLimitOf (h : Hw) : Nat := min 1000000 (max 100 h.jst.lendLimit)

/-- LEND_START (12 R330, R332): a thread that may run waits for semaphore `n`, whose owner's context is PREEMPTED. A lend of the same owner
thread that is in progress serves it. -/
def lendStart (p n : Nat) (h : Hw) : Hw :=
  let s := semOf h p n
  match s.owner with
  | none => h
  | some (g, t) =>
    match thrCtx h { g, t } with
    | none => h
    | some c =>
      let waiter := s.queue.find? (fun w => match thrCtx h { g := w.1, t := w.2.1 } with
        | some wc => mayRun h wc w.1 && wc != c
        | none => false)
      match waiter with
      | none => h
      | some w =>
        if (ctx h c).st ≠ .preempted ∨ !h.jst.lendEn ∨ (part h p).lends.any (fun l => l.g = g && l.t = t) then h else
        let k := satAdd 16 (ctx h c).lends 1
        let h := saturated 16 (0x40204 + 0x10 * c) (ctx h c).lends k (modCtx h c (fun x => { x with lends := k }))
        modPart h p (fun P => { P with lends := P.lends ++ [{ ctx := c, g, t, cls := w.2.2, since := now h, limit := lendLimitOf h }] })

/-- LEND_LIMIT_EXPIRY (12 R331, R333): the waiters of contexts that run leave the queues of the owner thread's semaphores with
SEM_LEND_TIMEOUT, and the lend ends. -/
def lendExpiry (p g t : Nat) (h : Hw) : Hw :=
  match (part h p).lends.find? (fun l => l.g = g && l.t = t) with
  | none => h
  | some l =>
    if now h < l.since + 100 * l.limit then h else
    let mine := fun (w : Nat × Nat × Nat) => match thrCtx h { g := w.1, t := w.2.1 } with
      | some c => mayRun h c w.1 && c != l.ctx
      | none => false
    let h := (part h p).sems.foldl (fun h e =>
      if e.2.owner == some (g, t) then
        let h := modSem p e.1 (fun s => { s with queue := s.queue.filter (fun w => !mine w) }) h
        (e.2.queue.filter mine).foldl (fun h w => match (thread h { g := w.1, t := w.2.1 }).st with
          | .blocked (.sem _ d) => wake { g := w.1, t := w.2.1 } (fun T => T.setS d (stWord [(stLendTimeout, 0)])) h
          | _ => h) h
      else h) h
    let k := satAdd 16 (ctx h l.ctx).timeouts 1
    let h := saturated 16 (0x40204 + 0x10 * l.ctx) (ctx h l.ctx).timeouts k (modCtx h l.ctx (fun x => { x with timeouts := k }))
    setJstEvt 1 p (modPart h p (fun P => { P with lends := P.lends.filter (fun x => !(x.g = g && x.t = t)), schedDue := true }))

/-! ## Tickets (04 R97 to R100) -/

/-- The ticket of an LDA is retired: an OK load whose destination no store met writes its bytes; otherwise they are undefined (04 R99,
R100). `keep` is false when no WAITA returns it. -/
def retireLda (th : Thr) (c : Nat) (l : Lda) (keep : Bool) (h : Hw) : Hw :=
  let h := modThr h th (fun T => { T with lda := T.lda.filter (fun x => x.seq ≠ l.seq) })
  match (ctx h c).objs.find? (fun o => o.handle = addrHandle l.dst) with
  | none => h
  | some o =>
    let k := objKey c o th.g
    let id := th.t * 65536 + l.seq
    let m := objMem h k
    match m.flight.find? (fun r => r.id = id) with
    | none => h
    | some r =>
      let m := { m with flight := m.flight.filter (fun x => x.id ≠ id) }
      if keep && l.done == some stOk && !r.spoiled then
        let (m, lost) := m.store 0 (bytesAt r.lo r.len l.data)
        let h := modMem h k (fun _ => m)
        if lost then noteFailure th stUncorrectable h else h
      else modMem h k (fun _ => m.forget r.lo r.len r.epoch)

/-! ## Halting (05 R138, R152) -/

/-- The started threads of the context have all halted: the incarnation ends (04 R87, 12 R324); its fabric barriers are told (19 R513). -/
def tryEnd (c : Nat) (h : Hw) : Hw :=
  let ths := ctxThreads h c
  if (ctx h c).stopped ∨ !(ctx h c).started ∨ !ths.all (fun th => let s := (thread h th).st; s == .free || s == .halted) then h else
  let h := if (membersOf h c).length ≤ 1 then h else sendArrive c 0 true h
  endIncarnation c (completeJob c stOk { cause := 0, gallery := 0, thread := 0, pc := 0 } false 0 h)

/-- The thread's scans have ended (06 R200). -/
def scansEnded (h : Hw) (th : Thr) : Bool := !h.probe.scans.any (fun s => s.th == th && !s.ended)

/-- HALT goes on once its LDAs, posted operations and scans are over (05 R138): tickets retired, errors discarded, semaphores released,
inbox discarded, the thread HALTED. -/
def tryHalt (th : Thr) (h : Hw) : Hw :=
  match (thread h th).st, thrCtx h th with
  | .blocked .halt, some c =>
    if (thread h th).lda.any (fun l => l.done.isNone) || hasPosts h th || !scansEnded h th then h else
    let h := { h with probe := { h.probe with scans := h.probe.scans.filter (fun s => s.th ≠ th) } }
    let h := (thread h th).lda.foldl (fun h l => retireLda th c l false h) h
    let h := releaseOwned (c / 4) (fun o => o == (th.g, th.t)) false h
    let h := modThr h th (fun T => { T with st := .halted, lda := [], failure := none, inbox := [] })
    let h := releaseSenders th h
    let h := (List.range 16).foldl (fun h n => memberArrive c n h) h
    tryEnd c h
  | _, _ => h

/-! ## Teardown (12 R334, R335) -/

/-- The scans and walks of a context are cancelled (11 R307): their result buffers are undefined. -/
def dropScans (c : Nat) (h : Hw) : Hw :=
  let h := (h.probe.scans.filter (fun s => s.ctx = c && !s.ended)).foldl (fun h s =>
    let buf : DWord := BitVec.ofNat 64 (s.hdr / 256 ^ 48)
    match (ctx h c).objs.find? (fun o => o.handle = addrHandle buf) with
    | none => h
    | some o => let (e, h) := freshEpoch h; modMem h (objKey c o s.th.g) (fun m => m.forget (addrOff buf) (o.size - addrOff buf) e)) h
  { h with probe := { h.probe with scans := h.probe.scans.filter (fun s => s.ctx ≠ c), walks := h.probe.walks.filter (fun w => w.ctx ≠ c) } }

/-- Steps 1 to 5 of a teardown (12 R335): groups abandoned, scans cancelled, LDAs discarded, posted operations that have left the gallery
applied and the others discarded, requests to other modules cancelled (19 R516), semaphores abandoned, inboxes emptied. -/
def stopWork (c : Nat) (h : Hw) : Hw :=
  let p := c / 4
  let h := abandonAll c (modCtx h c (fun x => { x with stopped := true }))
  let h := (partGals h p).foldl (fun h g =>
    let h := (gal h g).sel.foldl (fun h j => if j.ctx = c then forgetOut c g j h else h) h
    modGal h g (fun G => { G with sel := G.sel.filter (fun j => j.ctx ≠ c) })) h
  let h := dropScans c h
  let ths := ctxThreads h c
  let h := (partGals h p).foldl (fun h g => (gal h g).post.foldl (fun h q =>
    if ths.contains { g, t := q.thr } then memorySideAdd g q.id h else h) h) h
  let h := modFfu (fun u => { u with reqs := u.reqs.filter (fun r => r.ctx ≠ c) }) h
  let mine := fun (o : Nat × Nat) => ths.contains { g := o.1, t := o.2 }
  let h := modPart h p (fun P => { P with sems := P.sems.map (fun e => (e.1, { e.2 with queue := e.2.queue.filter (fun w => !mine (w.1, w.2.1)) })) })
  let h := releaseOwned p mine true h
  modWmc (fun w => { w with chans := w.chans.map (fun e => (e.1, { e.2 with queue := e.2.queue.filter (fun r => match r.thr with
    | some th => !ths.contains th
    | none => true) })) }) h

/-- A context returns to FREE: its reservation is released (12 R324, 13 R348). -/
def freeContext (c : Nat) (h : Hw) : Hw :=
  let h := { h with mem := h.mem.filter (fun e => e.1 / 128 / 4096 ≠ c) }
  modCtx h c (fun x => { lends := x.lends, timeouts := x.timeouts })

/-- A JOB_CANCEL that waits for a context's teardown completes; with RELEASE the context is FREE (12 R324, R338; 18 R483). -/
def finishCancel (c : Nat) (h : Hw) : Hw :=
  match (ctx h c).cancel with
  | none => h
  | some (cmd, rel) =>
    let h := endCmd cmd stOk (modCtx h c (fun x => { x with cancel := none }))
    if rel then freeContext c h else h

/-- CONTEXT_TEARDOWN (12 R335): a stopped context's work ends, its job completes with JOB_FAULT and its fault record, and the context is
LOADED. -/
def contextTeardown (c : Nat) (h : Hw) : Hw :=
  let x := ctx h c
  if !x.stopped ∨ (part h (c / 4)).resetting.isSome then h else
  let r := x.fault.getD { cause := cCancelled, gallery := 0, thread := 0, pc := 0 }
  let h := stopWork c h
  let h := completeJob c stJobFault r false 0 h
  let h := modCtx h c (fun x => { x with poolFree := List.range x.poolPages, poolPend := [] })
  setJstEvt 2 (c / 4) (finishCancel c (endIncarnation c h))

/-! ## The commands -/

def okPart (p : Nat) : Bool := decide (p < 8)
def execSchedulingPoint (p : Nat) (s : State) : Host.Outcome State Fault Refusal := act (okPart p) (schedulingPoint p) s
def execGroupLimitExpiry (g : Nat) (s : State) : Host.Outcome State Fault Refusal := act (decide (g < 96)) (groupLimitExpiry g) s
def execPreemptionSwitch (p : Nat) (s : State) : Host.Outcome State Fault Refusal := act (okPart p) (preemptionSwitch p) s
def execLendStart (p n : Nat) (s : State) : Host.Outcome State Fault Refusal := act (okPart p && decide (n < 256)) (lendStart p n) s
def execLendLimitExpiry (p g t : Nat) (s : State) : Host.Outcome State Fault Refusal :=
  act (okPart p && decide (g < 96) && decide (t < 64)) (lendExpiry p g t) s
def execContextTeardown (c : Nat) (s : State) : Host.Outcome State Fault Refusal := act (decide (c < 32)) (contextTeardown c) s

end Sys2Proof.Machine
end

