-- ==== Sys2Proof/Machine/IsaControl.lean ====
section
/-!
DEFINITION. Control and scalar arithmetic (05 R134 to R136, R139; 04 R83, R84, R86): branches, calls, YIELD and the scalar
instructions.
-/
namespace Sys2Proof.Machine

/-- The result of comparing two scalars under condition codes 0 to 5 (05 R129); none for another code. -/
def condOf (cc : Nat) (a b : DWord) : Option Bool :=
  match cc with
  | 0 => some (a == b)
  | 1 => some (a != b)
  | 2 => some (a.slt b)
  | 3 => some (!a.slt b)
  | 4 => some (a.ult b)
  | 5 => some (!a.ult b)
  | _ => none

/-- A relative target (05 R134): PC + 8 × offset, never wrapping. -/
def relTarget (pc : Nat) (off : Int) : Option Nat :=
  let t : Int := (pc : Int) + 8 * off
  if 0 ≤ t ∧ t < 2 ^ 48 then some t.toNat else none

/-- The branch of BR and CALL (05 R134): relative with MOD 0, to the object address in s[A] with MOD 1. -/
def branchTo (th : Thr) (f : Fields) (h : Hw) : IRes :=
  let T := thread h th
  if f.mod = 0 then
    match relTarget T.pc f.off44 with
    | some t => .goto h T.code t
    | none => .fault cOutOfBounds
  else .goto h (addrHandle (T.sreg f.a)) (addrOff (T.sreg f.a))

/-- MOD and the unused fields of BR and CALL (05 R126, R128, R129). -/
def branchFieldsOk (f : Fields) : Bool :=
  f.mod == 0 || (f.mod == 1 && f.d == 0 && f.b == 0 && f.low29 == 0)

/-- The fields of format S that must be 0 when unused. -/
def sZero (f : Fields) (d a b : Bool) : Bool :=
  (!d || f.d == 0) && (!a || f.a == 0) && (!b || f.b == 0) && f.low29 == 0

def brBody (th : Thr) (f : Fields) (_ : Nat) (h : Hw) : IRes :=
  if branchFieldsOk f then branchTo th f h else .fault cIllegalOperand

def callBody (th : Thr) (f : Fields) (_ : Nat) (h : Hw) : IRes :=
  let T := thread h th
  if !branchFieldsOk f then .fault cIllegalOperand
  else if 16 ≤ T.stack.length then .fault cReturnStack
  else branchTo th f (modThr h th (fun T => { T with stack := mkAddr T.code (T.pc + 8) :: T.stack }))

def retBody (th : Thr) (f : Fields) (_ : Nat) (h : Hw) : IRes :=
  if !(f.mod == 0 && sZero f true true true) then .fault cIllegalOperand
  else match (thread h th).stack with
    | [] => .fault cReturnStack
    | a :: r => .goto (modThr h th (fun T => { T with stack := r })) (addrHandle a) (addrOff a)

/-- The condition of BRC (05 R129, R135): none when it is not permitted or a field rule is broken. -/
def brcCond (T : Thread) (f : Fields) : Option Bool :=
  if f.d ≠ 0 then none else
  match f.mod.toNat with
  | 6 => if predOk f.a && f.b == 0 then some ((T.preg f.a).getLsbD 0) else none
  | 7 => if predOk f.a && f.b == 0 then some (!(T.preg f.a).getLsbD 0) else none
  | cc => condOf cc (T.sreg f.a) (T.sreg f.b)

def brcBody (th : Thr) (f : Fields) (_ : Nat) (h : Hw) : IRes :=
  let T := thread h th
  match brcCond T f with
  | none => .fault cIllegalOperand
  | some false => .next h 1
  | some true =>
    match relTarget T.pc f.off29 with
    | some t => .goto h T.code t
    | none => .fault cOutOfBounds

/-- YIELD (04 R86): READY at the back of the round robin, where the thread that issued last already stands. -/
def yieldBody (_ : Thr) (f : Fields) (_ : Nat) (h : Hw) : IRes :=
  if f.mod == 0 && sZero f true true true then .next h 1 else .fault cIllegalOperand

/-! ## Scalar arithmetic (05 R139) -/

/-- The second operand: s[B] in format S, the sign-extended IMM34 in format I (05 R139). -/
def opB (T : Thread) (f : Fields) : DWord := if f.m 0 then f.imm else T.sreg f.b

/-- The field rules of the two-operand forms (05 R127 to R129): MOD bits [3:1] as permitted, and in format S bits [28:0] zero. -/
def scalarOk (f : Fields) : Bool := decide (f.mod.toNat < 2) && (f.m 0 || f.low29 == 0)

/-- A scalar instruction that writes `op s[A] b` to s[D] (05 R139), the next issue `delay` cycles later (05 R131). -/
def scalarBody (op : DWord → DWord → DWord) (delay : Nat) (th : Thr) (f : Fields) (_ : Nat) (h : Hw) : IRes :=
  if !scalarOk f then .fault cIllegalOperand
  else .next (modThr h th (fun T => T.setS f.d (op (T.sreg f.a) (opB T f)))) delay

def smin (a b : DWord) : DWord := if b.slt a then b else a
def smax (a b : DWord) : DWord := if a.slt b then b else a
/-- Shift amounts are bits [5:0] of the second operand. -/
def shamt (b : DWord) : Nat := b.toNat % 64

/-- SMOV (05 R139): copy, load the sign-extended immediate, or load the upper bits. -/
def smovBody (th : Thr) (f : Fields) (_ : Nat) (h : Hw) : IRes :=
  match f.mod.toNat with
  | 0 => if f.b = 0 ∧ f.low29 = 0 then .next (modThr h th (fun T => T.setS f.d (T.sreg f.a))) 1 else .fault cIllegalOperand
  | 1 => if f.a = 0 then .next (modThr h th (fun T => T.setS f.d f.imm)) 1 else .fault cIllegalOperand
  | 2 =>
    if f.a = 0 ∧ f.imm34.extractLsb' 30 4 = 0 then
      .next (modThr h th (fun T => T.setS f.d ((f.imm34.extractLsb' 0 30) ++ ((T.sreg f.d).extractLsb' 0 34)))) 1
    else .fault cIllegalOperand
  | _ => .fault cIllegalOperand

/-- SCMP (05 R139, 04 R83): every lane bit of the predicate named by D becomes the result; p0 ignores it. -/
def scmpBody (th : Thr) (f : Fields) (_ : Nat) (h : Hw) : IRes :=
  let T := thread h th
  if !(predOk f.d && (f.m 0 || f.low29 == 0)) then .fault cIllegalOperand
  else match condOf (f.mod.toNat / 2) (T.sreg f.a) (opB T f) with
    | none => .fault cIllegalOperand
    | some r => .next (modThr h th (fun T => T.setP f.d (if r then BitVec.allOnes 128 else 0))) 1

def execBr (th : Thr) (f : Fields) (s : State) : Host.Outcome State Fault Refusal :=
  act (okThr th) (runIsa .br th f (brBody th f)) s
def execBrc (th : Thr) (f : Fields) (s : State) : Host.Outcome State Fault Refusal :=
  act (okThr th) (runIsa .brc th f (brcBody th f)) s
def execCall (th : Thr) (f : Fields) (s : State) : Host.Outcome State Fault Refusal :=
  act (okThr th) (runIsa .call th f (callBody th f)) s
def execRet (th : Thr) (f : Fields) (s : State) : Host.Outcome State Fault Refusal :=
  act (okThr th) (runIsa .ret th f (retBody th f)) s
def execYield (th : Thr) (f : Fields) (s : State) : Host.Outcome State Fault Refusal :=
  act (okThr th) (runIsa .yield th f (yieldBody th f)) s
def execSmov (th : Thr) (f : Fields) (s : State) : Host.Outcome State Fault Refusal :=
  act (okThr th) (runIsa .smov th f (smovBody th f)) s
def execSadd (th : Thr) (f : Fields) (s : State) : Host.Outcome State Fault Refusal :=
  act (okThr th) (runIsa .sadd th f (scalarBody (· + ·) 1 th f)) s
def execSsub (th : Thr) (f : Fields) (s : State) : Host.Outcome State Fault Refusal :=
  act (okThr th) (runIsa .ssub th f (scalarBody (· - ·) 1 th f)) s
def execSmul (th : Thr) (f : Fields) (s : State) : Host.Outcome State Fault Refusal :=
  act (okThr th) (runIsa .smul th f (scalarBody (· * ·) 3 th f)) s
def execSand (th : Thr) (f : Fields) (s : State) : Host.Outcome State Fault Refusal :=
  act (okThr th) (runIsa .sand th f (scalarBody (· &&& ·) 1 th f)) s
def execSor (th : Thr) (f : Fields) (s : State) : Host.Outcome State Fault Refusal :=
  act (okThr th) (runIsa .sor th f (scalarBody (· ||| ·) 1 th f)) s
def execSxor (th : Thr) (f : Fields) (s : State) : Host.Outcome State Fault Refusal :=
  act (okThr th) (runIsa .sxor th f (scalarBody (· ^^^ ·) 1 th f)) s
def execSshl (th : Thr) (f : Fields) (s : State) : Host.Outcome State Fault Refusal :=
  act (okThr th) (runIsa .sshl th f (scalarBody (fun a b => a <<< shamt b) 1 th f)) s
def execSshr (th : Thr) (f : Fields) (s : State) : Host.Outcome State Fault Refusal :=
  act (okThr th) (runIsa .sshr th f (scalarBody (fun a b => a >>> shamt b) 1 th f)) s
def execSsra (th : Thr) (f : Fields) (s : State) : Host.Outcome State Fault Refusal :=
  act (okThr th) (runIsa .ssra th f (scalarBody (fun a b => a.sshiftRight (shamt b)) 1 th f)) s
def execSmin (th : Thr) (f : Fields) (s : State) : Host.Outcome State Fault Refusal :=
  act (okThr th) (runIsa .smin th f (scalarBody smin 1 th f)) s
def execSmax (th : Thr) (f : Fields) (s : State) : Host.Outcome State Fault Refusal :=
  act (okThr th) (runIsa .smax th f (scalarBody smax 1 th f)) s
def execScmp (th : Thr) (f : Fields) (s : State) : Host.Outcome State Fault Refusal :=
  act (okThr th) (runIsa .scmp th f (scmpBody th f)) s

end Sys2Proof.Machine
end

