-- ==== Sys2Proof/Machine/IsaSync.lean ====
section
/-!
DEFINITION. Synchronisation, messages, batch memory, geometry and HALT (05 R138, R149 to R162).
-/
namespace Sys2Proof.Machine

/-! ## Semaphores (R149 to R151) -/

/-- SEMA: acquire, or queue by class; NOT_PERMITTED for the owner thread itself, BUSY with try. -/
def semaBody (th : Thr) (f : Fields) (c : Nat) (h : Hw) : IRes :=
  let n := ((thread h th).sreg f.a).toNat
  if 1 < f.mod.toNat || !sZero f false false true || decide ((ctx h c).sems ≤ n) then .fault cIllegalOperand else
  let p := c / 4
  let s := semOf h p n
  let done := fun (st : Nat) (h : Hw) => IRes.next (modThr h th (fun T => T.setS f.d (stWord [(st, 0)]))) 1
  match s.owner with
  | none => done (if s.abandoned then stSemAbandoned else stOk) (modSem p n (fun s => { s with owner := some (th.g, th.t), abandoned := false }) h)
  | some o =>
    if o = (th.g, th.t) then done stNotPermitted h
    else if f.m 0 then done stBusy h
    else .block (modSem p n (fun s => { s with queue := queueWaiter (th.g, th.t, thrClass h c th.g) s.queue }) h) (.sem n f.d)

/-- SEMR: release, passing the semaphore to the head of its queue. -/
def semrBody (th : Thr) (f : Fields) (c : Nat) (h : Hw) : IRes :=
  let n := ((thread h th).sreg f.a).toNat
  if f.mod ≠ 0 || !sZero f false false true || decide ((ctx h c).sems ≤ n) then .fault cIllegalOperand else
  let own := (semOf h (c / 4) n).owner == some (th.g, th.t)
  let h := if own then releaseSem (c / 4) n false h else h
  .next (modThr h th (fun T => T.setS f.d (stWord [(if own then stOk else stNotPermitted, 0)]))) 1

/-! ## Barriers and fences (R153 to R155) -/

/-- FENCE: at once when nothing is outstanding. -/
def fenceBody (th : Thr) (f : Fields) (_ : Nat) (h : Hw) : IRes :=
  if f.mod ≠ 0 || !sZero f false true true then .fault cIllegalOperand
  else if hasPosts h th then .block h (.fence f.d none)
  else .next (modThr h th (fun T => { T.setS f.d (stWord [(fenceStatus T, 0)]) with failure := none })) 1

/-- BAR: its FENCE first, then it waits at the barrier. -/
def barBody (th : Thr) (f : Fields) (_ : Nat) (h : Hw) : IRes :=
  let scope := f.mod.toNat
  let n := f.imm34.toNat
  if 2 < scope ∨ f.a ≠ 0 ∨ 15 < n then .fault cIllegalOperand
  else if hasPosts h th then .block h (.fence f.d (some (scope, n)))
  else
    let st := fenceStatus (thread h th)
    .block (modThr h th (fun T => { T with failure := none })) (.barrier scope n f.d st)

/-- BAR carried out: a fabric barrier's last arrival sends ARRIVE (19 R514). -/
def barRun (th : Thr) (f : Fields) (h : Hw) : Hw :=
  let h' := runIsa .bar th f (barBody th f) h
  match (thread h' th).st, thrCtx h' th with
  | .blocked (.barrier 2 n _ _), some c => if issued h th .bar f && (thread h th).st == .ready then memberArrive c n h' else h'
  | _, _ => h'

/-- BARRIER_COMPLETE (R153): every thread of the scope that has started and not halted has arrived; `g` is the gallery of a scope 0
barrier. -/
def barrierComplete (c scope n g : Nat) (h : Hw) : Hw :=
  let ths := (liveThreads h c).filter (fun th => scope = 1 || th.g = g)
  if scope < 2 ∧ !ths.isEmpty ∧ ths.all (arrivedAt h scope n) then releaseBarrier scope n none ths h else h

/-- POSTED_OP_COMPLETE (R159): a completed post frees its slot; its failure waits for the thread's next FENCE; a FENCE, a BAR, a HALT or
a thread that waits for a slot goes on. -/
def postedOpComplete (g id : Nat) (h : Hw) : Hw :=
  match (gal h g).post.find? (fun p => p.id = id && p.arrived) with
  | none => h
  | some p =>
    let th : Thr := { g, t := p.thr }
    let h := modGal h g (fun G => { G with post := G.post.filter (fun q => q.id ≠ id) })
    let h := if p.status = stOk then h else noteFailure th p.status h
    let h := wakeAgain g (fun w => w == .postSlot) h
    tryHalt th (resolveFence th h)

/-! ## Messages (R156 to R158) -/

/-- A posted operation takes a slot (R159). -/
def addPost (th : Thr) (k : PostKind) (arrived : Bool) (status : Nat) (h : Hw) : Hw × Nat :=
  let id := (gal h th.g).postNext
  (modGal h th.g (fun G => { G with postNext := id + 1, post := G.post ++ [{ id, thr := th.t, kind := k, arrived, status }] }), id)

def slotFree (h : Hw) (g : Nat) : Bool := decide ((gal h g).post.length < 64)

/-- A MAIL of a thread to a module waits while an earlier one is outstanding (19 R512): its packet is held back. -/
def holdMail (th : Thr) (dest tag : Nat) (h : Hw) : Hw :=
  let earlier := h.ffu.reqs.any (fun r => r.tag ≠ tag && r.pkt.dest = dest && (match r.kind with | .mail t _ => t == th | _ => false))
  if earlier then modFfu (fun u => { u with
    wait := u.wait.filter (fun p => !(p.tag = tag && p.ty = 0x03 && p.src = u.id))
    reqs := u.reqs.map (fun r => if r.tag = tag then { r with queued := true } else r) }) h
  else h

/-- The fields of SEND's destination word that must be 0 (R156). -/
def sendRsvOk (w : Nat) : Bool :=
  if 2 ^ 63 ≤ w then w / 2 ^ 46 % 2 ^ 17 = 0 && w / 2 ^ 15 % 2 ^ 17 = 0 && w / 2 ^ 8 % 2 ^ 7 = 0
  else w / 2 ^ 15 = 0 && w / 2 ^ 6 % 4 = 0

/-- SEND: to an inbox of the own context or to a mailbox of another module. -/
def sendBody (th : Thr) (f : Fields) (c : Nat) (h : Hw) : IRes :=
  let T := thread h th
  let n := f.low29.toNat
  let w := (T.sreg f.d).toNat
  let gs := partGals h (c / 4)
  let (lg, lt) := (w / 256 % 128, w % 64)
  if f.mod ≠ 0 || f.psm ≠ 0 || f.rm ≠ 0 || n < 8 || 256 < n || n % 8 ≠ 0 || !sendRsvOk w then .fault cIllegalOperand
  else if w < 2 ^ 63 ∧ (gs.length ≤ lg ∨ (ctx h c).threads ≤ lt) then .fault cIllegalOperand
  else match checkAccess (ctx h c) (T.sreg f.a) n .r [0] 8 with
    | .bad e => .fault e
    | .ok o off =>
      if !slotFree h th.g then .again h .postSlot else
      let m := objMem h (objKey c o th.g)
      if m.isBad 0 off n then .next (addPost th (.send 0 0 { len := 0, data := 0, remote := false, sg := 0, st := 0, srcModule := 0 }) true stUncorrectable h).1 1
      else
        let data := m.readLE off n
        if 2 ^ 63 ≤ w then
          let dest := w / 2 ^ 32 % 2 ^ 14
          match issueReq c (.mail th (gal h th.g).postNext) dest 0x03 (8 + n) (w % 256 + data * 256 ^ 8) h with
          | .noCredit => .again h .credit
          | .unreachable => .next (addPost th (.remote 0) true stUnreachable h).1 1
          | .sent h tag => .next (holdMail th dest tag (addPost th (.remote tag) false stOk h).1) 1
        else
          let tg : Thr := { g := (gs[lg]?).getD 0, t := (ctx h c).first + lt }
          let msg : Msg := { len := n, data, remote := false, sg := logicalOf h (c / 4) th.g, st := th.t - (ctx h c).first, srcModule := 0 }
          let st := (thread h tg).st
          if st == .free || st == .halted then .next (addPost th (.send tg.g tg.t msg) true stNotPermitted h).1 1
          else if (thread h tg).inbox.length < 4 then .next (deliver tg msg (addPost th (.send tg.g tg.t msg) true stOk h).1) 1
          else let (h, id) := addPost th (.send tg.g tg.t msg) false stOk h; .block h (.inboxFull id)

/-- INBOX_DELIVERY (R157): a message whose sender is blocked arrives whole once a slot of the inbox is free. -/
def inboxDelivery (g id : Nat) (h : Hw) : Hw :=
  match (gal h g).post.find? (fun p => p.id = id && !p.arrived) with
  | some { kind := .send g' t' m, thr, .. } =>
    if 4 ≤ (thread h { g := g', t := t' }).inbox.length then h else
    let h := arrivePost g id stOk (deliver { g := g', t := t' } m h)
    match (thread h { g, t := thr }).st with
    | .blocked (.inboxFull i) => if i = id then wake { g, t := thr } (fun T => T) h else h
    | _ => h
  | _ => h

/-- RECV: the oldest message of the inbox. -/
def recvBody (th : Thr) (f : Fields) (c : Nat) (h : Hw) : IRes :=
  let T := thread h th
  let lim := f.low29.toNat
  if 1 < f.mod.toNat || f.psm ≠ 0 || f.rm ≠ 0 || 511 < lim then .fault cIllegalOperand
  else match checkAccess (ctx h c) (T.sreg f.a) lim .w [0] 8 with
    | .bad e => .fault e
    | .ok _ _ =>
      match T.inbox with
      | [] => if f.m 0 then .next (modThr h th (fun T => T.setS f.d (stWord [(stBusy, 0)]))) 1 else .block h (.recv (T.sreg f.a) lim f.d)
      | m :: r =>
        let (h, st) := recvDo th c (T.sreg f.a) lim m (modThr h th (fun T => { T with inbox := r }))
        .next (modThr h th (fun T => T.setS f.d st)) 1

/-! ## The page pool (R160, R161) -/

def insNat (n : Nat) (l : List Nat) : List Nat := l.takeWhile (fun x => decide (x < n)) ++ [n] ++ l.dropWhile (fun x => decide (x < n))

def pgallocBody (th : Thr) (f : Fields) (c : Nat) (h : Hw) : IRes :=
  if f.mod ≠ 0 || !sZero f false true true || (ctx h c).poolPages = 0 then .fault cIllegalOperand
  else match (ctx h c).poolFree with
    | [] => .next (modThr h th (fun T => T.setS f.d (stWord [(stPoolEmpty, 0)]))) 1
    | k :: r => .next (modThr (modCtx h c (fun x => { x with poolFree := r })) th (fun T => T.setS f.d (stWord [(stOk, 0), (k, 8)]))) 1

def pgfreeBody (th : Thr) (f : Fields) (c : Nat) (h : Hw) : IRes :=
  let x := ctx h c
  let k := ((thread h th).sreg f.a).toNat
  if f.mod ≠ 0 || !sZero f false false true || x.poolPages = 0 then .fault cIllegalOperand
  else if x.poolPages ≤ k ∨ x.poolFree.contains k ∨ x.poolPend.contains k then .next (modThr h th (fun T => T.setS f.d (stWord [(stPageNotHeld, 0)]))) 1
  else .next (modThr (modCtx h c (fun x => { x with poolPend := insNat k x.poolPend })) th (fun T => T.setS f.d (stWord [(stOk, 0)]))) 1

def stependBody (th : Thr) (f : Fields) (c : Nat) (h : Hw) : IRes :=
  let x := ctx h c
  if f.mod ≠ 0 || !sZero f false true true || x.poolPages = 0 then .fault cIllegalOperand
  else
    let all := x.poolPend.foldl (fun l k => insNat k l) x.poolFree
    .next (modThr (modCtx h c (fun x => { x with poolFree := all, poolPend := [] })) th (fun T => T.setS f.d (stWord [(stOk, 0), (all.length, 8)]))) 1

/-! ## GEOM (04 R111 to R113; 05 R162) -/

/-- A geometry item as a thread sees it (04 R111). -/
def geomItem (h : Hw) (th : Thr) (c item : Nat) : Nat :=
  let gs := partGals h (c / 4)
  let lg := logicalOf h (c / 4) th.g
  match item with
  | 0x00 => 0x00010000
  | 0x01 => 256
  | 0x02 => cols h th.g
  | 0x03 => gs.foldl (fun n g => min n (cols h g)) 128
  | 0x04 => 128
  | 0x05 => 32
  | 0x06 => 32
  | 0x07 => gs.length
  | 0x08 => lg
  | 0x09 => gs.length / 8
  | 0x0A => lg / 8
  | 0x0B => 8
  | 0x0C => (ctx h c).threads
  | 0x0D => th.t - (ctx h c).first
  | 0x0E => (ctx h c).bayBytes
  | 0x0F => (ctx h c).atrBytes
  | 0x10 => 4
  | 0x11 => 128
  | 0x12 => c / 4
  | 0x13 => c % 4
  | 0x14 => h.ffu.id
  | _ => 0

def geomBody (th : Thr) (f : Fields) (c : Nat) (h : Hw) : IRes :=
  let T := thread h th
  let bad := match f.mod.toNat with
    | 0 => decide (f.a ≠ 0) || decide (255 < f.imm34.toNat)
    | 1 => decide (f.imm34 ≠ 0)
    | _ => true
  if bad then .fault cIllegalOperand
  else
    let item := if f.m 0 then (T.sreg f.a).toNat % 256 else f.imm34.toNat
    .next (modThr h th (fun T => T.setS f.d (BitVec.ofNat 64 (geomItem h th c item)))) 1

/-! ## HALT (R138) -/

def haltBody (_ : Thr) (f : Fields) (_ : Nat) (h : Hw) : IRes :=
  if f.mod ≠ 0 || !sZero f true true true then .fault cIllegalOperand else .block h .halt

/-- HALT waits, and is over at once when nothing is outstanding. -/
def haltRun (th : Thr) (f : Fields) (h : Hw) : Hw :=
  let h' := runIsa .halt th f (haltBody th f) h
  if issued h th .halt f && (thread h th).st == .ready then tryHalt th h' else h'

/-! ## The commands -/

def execSema (th : Thr) (f : Fields) (s : State) : Host.Outcome State Fault Refusal :=
  act (okThr th) (runIsa .sema th f (semaBody th f)) s
def execSemr (th : Thr) (f : Fields) (s : State) : Host.Outcome State Fault Refusal :=
  act (okThr th) (runIsa .semr th f (semrBody th f)) s
def execFence (th : Thr) (f : Fields) (s : State) : Host.Outcome State Fault Refusal :=
  act (okThr th) (runIsa .fence th f (fenceBody th f)) s
def execBar (th : Thr) (f : Fields) (s : State) : Host.Outcome State Fault Refusal := act (okThr th) (barRun th f) s
def execSend (th : Thr) (f : Fields) (s : State) : Host.Outcome State Fault Refusal :=
  act (okThr th) (runIsa .send th f (sendBody th f)) s
def execRecv (th : Thr) (f : Fields) (s : State) : Host.Outcome State Fault Refusal :=
  act (okThr th) (runIsa .recv th f (recvBody th f)) s
def execPgalloc (th : Thr) (f : Fields) (s : State) : Host.Outcome State Fault Refusal :=
  act (okThr th) (runIsa .pgalloc th f (pgallocBody th f)) s
def execPgfree (th : Thr) (f : Fields) (s : State) : Host.Outcome State Fault Refusal :=
  act (okThr th) (runIsa .pgfree th f (pgfreeBody th f)) s
def execStepend (th : Thr) (f : Fields) (s : State) : Host.Outcome State Fault Refusal :=
  act (okThr th) (runIsa .stepend th f (stependBody th f)) s
def execGeom (th : Thr) (f : Fields) (s : State) : Host.Outcome State Fault Refusal :=
  act (okThr th) (runIsa .geom th f (geomBody th f)) s
def execHalt (th : Thr) (f : Fields) (s : State) : Host.Outcome State Fault Refusal := act (okThr th) (haltRun th f) s
def execBarrierComplete (c scope n g : Nat) (s : State) : Host.Outcome State Fault Refusal :=
  act (decide (c < 32) && decide (g < 96)) (barrierComplete c scope n g) s
def execPostedOpComplete (g id : Nat) (s : State) : Host.Outcome State Fault Refusal := act (decide (g < 96)) (postedOpComplete g id) s
def execInboxDelivery (g id : Nat) (s : State) : Host.Outcome State Fault Refusal := act (decide (g < 96)) (inboxDelivery g id) s

end Sys2Proof.Machine
end

