-- ==== Sys2Proof/Machine/Flash.lean ====
section
/-!
DEFINITION. The flash array (chapter 14): dies, blocks and the wear window, the program check, the die schedulers and channel
controllers, read levels, the landing links.
-/
namespace Sys2Proof.Machine

/-! ## Dies and blocks (R364, R379) -/

def modFlash (f : Flash → Flash) (h : Hw) : Hw := { h with flash := f h.flash }
def die (h : Hw) (d : Nat) : Die := tgetD h.flash.dies d {}
def modDie (d : Nat) (f : Die → Die) (h : Hw) : Hw := modFlash (fun F => { F with dies := tmod F.dies d {} f }) h
def landing (h : Hw) (l : Nat) : Landing := tgetD h.flash.landings l {}
def modLanding (l : Nat) (f : Landing → Landing) (h : Hw) : Hw := modFlash (fun F => { F with landings := tmod F.landings l {} f }) h
def fchan (h : Hw) (c : Nat) : FChan := tgetD h.flash.chans c {}
def modFchan (c : Nat) (f : FChan → FChan) (h : Hw) : Hw := modFlash (fun F => { F with chans := tmod F.chans c {} f }) h
/-- A physical block of a die. -/
def blk (h : Hw) (d p : Nat) : Blk := tgetD (die h d).blks p {}
def modBlk (d p : Nat) (f : Blk → Blk) (h : Hw) : Hw := modDie d (fun D => { D with blks := tmod D.blks p {} f }) h

/-- The physical block of a logical block (R379). -/
def physOf (D : Die) (b : Nat) : Nat :=
  let q := (b + D.offset) % 7451
  if D.gap ≤ q then q + 1 else q

/-- The logical block on a physical block; none on the gap (R379). -/
def logicalBlk (D : Die) (p : Nat) : Option Nat :=
  if p = D.gap then none else some (((if D.gap < p then p - 1 else p) + 7451 - D.offset) % 7451)

/-- Bit of a die in its landing's LND_RAW_OWN (R397). -/
def owned (h : Hw) (d : Nat) : Bool := (landing h (d / 32)).own.getLsbD (d % 32)

/-- The die is out of service (15 R421): lost, its landing lost or in loop-back, in raw ownership, or not yet rebuilt. -/
def dieOut (h : Hw) (d : Nat) : Bool :=
  (die h d).lost || (die h d).rebuild || (landing h (d / 32)).lost || (landing h (d / 32)).loopLink != 0 || owned h d

/-- Operations of the die cannot run at all: it, or its landing, is lost. -/
def dieDead (h : Hw) (d : Nat) : Bool := (die h d).lost || (landing h (d / 32)).lost || (landing h (d / 32)).loopLink != 0

/-- Pages of a block by its mode (R364). -/
def blkPages (pslc : Bool) : Nat := if pslc then 512 else 2048

/-! ## Erase state (R387 to R390) -/

/-- The program check (R388): none when the program may start. A block that failed takes no program until it is erased (log 32). -/
def progCheck (B : Blk) (p : Nat) (pslc : Bool) : Option Nat :=
  if B.st = 0 then (if p = 0 then none else some 0xA9)
  else if B.st = 1 then
    if B.failed then some 0xAB
    else if B.pslc != pslc then some 0xA8
    else if p < B.next then some stNotErased
    else if p = B.next then none else some 0xA9
  else some stNotErased

/-- A program pulse starts (R388). -/
def progStart (B : Blk) (p : Nat) (pslc : Bool) : Blk := { B with st := 1, pslc, inProg := some p, next := if B.st = 0 then 0 else B.next }

/-- A program ends (R388): on failure the entry stays OPEN with NEXT unchanged and the block takes nothing further. -/
def progDone (B : Blk) (p : Nat) (x : FPage) (ok : Bool) (t : Nat) : Blk :=
  if ok then { B with
    st := if p + 1 = blkPages B.pslc then 2 else 1
    next := p + 1
    inProg := none
    since := if p = 0 then t else B.since
    pages := tput B.pages p x }
  else { B with inProg := none, failed := true }

/-- An erase ends (R388, 15 R422): the entry is ERASED, or the block is reported for retirement. -/
def eraseDone (B : Blk) (ok : Bool) : Blk :=
  if ok then { B with
    st := 0
    pslc := false
    indet := 0
    next := 0
    inProg := none
    erasing := false
    failed := false
    erases := B.erases + 1
    wear := B.wear + (if B.st = 0 then 0 else if B.pslc then 1 else 10)
    t2 := 0
    t3 := 0
    limit := 0
    pages := [] }
  else { B with erasing := false, retired := true }

/-- A program that a reset or power loss stopped (R389). -/
def progStopped (B : Blk) (p : Nat) : Blk := { B with st := 3, indet := if B.pslc then p else 4 * (p / 4), inProg := none }
/-- An erase that was stopped (R389). -/
def eraseStopped (B : Blk) : Blk := { B with st := 3, indet := 0, next := blkPages B.pslc, erasing := false }

/-- A page of a TORN block at or beyond INDET_FROM returns no data (R389). -/
def indeterminate (B : Blk) (p : Nat) : Bool := B.st == 3 && decide (B.indet ≤ p)

/-- LANDING_BOOT_CHECK (R390): every OPEN block of the landing's dies gets NEXT, or becomes TORN when the journal does not record the
program of the last page found as complete. `fresh` lists (die, block) whose stopped program left the page reading as erased: NEXT is that
page, and the block stays OPEN. -/
def bootCheck (l : Nat) (fresh : List (Nat × Nat)) (h : Hw) : Hw :=
  if (landing h l).booted || (landing h l).lost then h else
  let one := fun (d : Nat) (e : Nat × Blk) =>
    let B := e.2
    (e.1, if B.erasing then eraseStopped B else match B.inProg with
      | none => B
      | some p => if fresh.contains (d, e.1) then { B with inProg := none, st := 1 } else progStopped B p)
  let h := (List.range 32).foldl (fun h i =>
    match tget h.flash.dies (32 * l + i) with
    | none => h
    | some _ => modDie (32 * l + i) (fun D => { D with blks := D.blks.map (one (32 * l + i)) }) h) h
  modLanding l (fun L => { L with booted := true }) h

/-! ## Read levels (R383 to R386) -/

/-- Retention band of a block: 0 under 1 h, 1 under 24 h, 2 under 30 days, 3 older. -/
def retentionBand (age : Nat) : Nat :=
  if age < 360000000000 then 0 else if age < 8640000000000 then 1 else if age < 259200000000000 then 2 else 3

/-- The calibration group of a block (R383; log 33). -/
def calGroup (B : Blk) (t : Nat) : Nat :=
  if B.pslc then 32 + retentionBand (t - B.since) else 4 * min 7 (B.erases / 375) + retentionBand (t - B.since)

def calSet (h : Hw) (d g : Nat) : CalSet := tgetD (die h d).cal g {}
def modCal (d g : Nat) (f : CalSet → CalSet) (h : Hw) : Hw := modDie d (fun D => { D with cal := tmod D.cal g {} f }) h

/-- WINDOW in codewords, and one probe read in how many (R397). -/
def calWindow (L : Landing) : Nat := 16 * max 1 L.calWindow
def calRate (L : Landing) : Nat := max 4 L.calRate

/-- A read is issued with its group's set and version, and is a probe read once in PROBE_RATE of those that sense the probe's level
(R384, R385). -/
def calIssue (o : FOp) (p : Nat) (h : Hw) : FOp × Hw :=
  let B := blk h o.die p
  let g := calGroup B (now h)
  let S := calSet h o.die g
  let L := landing h (o.die / 32)
  let o := { o with group := g, ver := S.ver }
  if !L.calEn || !(B.pslc || Config.senses (o.page % 4) S.level) then (o, h) else
  let n := S.reads + 1
  ({ o with probe := decide (n % calRate L = 0) }, modCal o.die g (fun S => { S with reads := n % calRate L }) h)

/-- The levels of a group's set (R383). -/
def calLevels (g : Nat) : Nat := if g < 32 then 15 else 1

/-- READ_LEVEL_STEP (R384): once enough codewords are counted the level moves if the probe's mean is at most 97 % of the base's; the
counts restart and the probe moves on to the next direction, then the next level. -/
def calStep (L : Landing) (g : Nat) (S : CalSet) : CalSet :=
  if S.probeCw < calWindow L ∨ S.baseCw < S.probeCw then S else
  let better := decide (100 * S.probeBits * S.baseCw ≤ 97 * S.baseBits * S.probeCw)
  let d : Int := if S.down then -1 else 1
  { S with
    offs := if better then tput S.offs S.level (max (-64) (min 63 (tgetD S.offs S.level 0 + d))) else S.offs
    ver := if better then (S.ver + 1) % 65536 else S.ver
    down := !S.down
    level := if S.down then (S.level + 1) % calLevels g else S.level
    probeCw := 0
    probeBits := 0
    baseCw := 0
    baseBits := 0 }

/-- The corrected bits of a read's codewords are counted (R384): those of a probe read that fails the first tier count 256 each. Counts of a read
whose version is no longer current are discarded (R385). -/
def calCount (o : FOp) (errs : List (Option Nat)) (h : Hw) : Hw :=
  let L := landing h (o.die / 32)
  if !L.calEn || (calSet h o.die o.group).ver != o.ver then h else
  let good := errs.filterMap id
  let sum := fun (l : List Nat) => l.foldl (· + ·) 0
  modCal o.die o.group (fun S => calStep L o.group (
    if o.probe then { S with
      probeCw := S.probeCw + errs.length
      probeBits := S.probeBits + (if good.length = errs.length then sum good else 256 * errs.length)
      weekCw := S.weekCw + errs.length }
    else { S with baseCw := S.baseCw + good.length, baseBits := S.baseBits + sum good })) h

/-! ## The landing links (R368 to R371) -/

/-- The receiver's buffer of a class, in flits (R369). -/
def lndBuffer (up : Bool) (cls : Nat) : Nat :=
  if up then (match cls with | 0 => 64 | 1 => 1024 | 2 => 256 | _ => 16) else (match cls with | 0 => 64 | 1 => 512 | _ => 16)

def lndDir (L : Landing) (up : Bool) : LndDir := if up then L.up else L.dn
def setDir (L : Landing) (up : Bool) (x : LndDir) : Landing := if up then { L with up := x } else { L with dn := x }

/-- Flits go while their class holds credits and the 128-flit replay buffer has room (R369, R370). -/
def lndPump (up : Bool) (t : Nat) : List Nat → LndDir → LndDir
  | [], x => x
  | c :: r, x =>
    if tgetD x.used c 0 < lndBuffer up c && decide (x.replay.length < 128) then
      lndPump up t r { x with
        txNext := (x.txNext + 1) % 4096
        replay := x.replay ++ [(x.txNext, c, t)]
        used := tput x.used c (tgetD x.used c 0 + 1) }
    else
      let y := lndPump up t r x
      { y with wait := c :: y.wait }

/-- `n` flits of a class are sent over a landing's link (14 R368; log 34). -/
def lndSend (l : Nat) (up : Bool) (cls n : Nat) (h : Hw) : Hw :=
  modLanding l (fun L =>
    let x := lndDir L up
    setDir L up (lndPump up (now h) (x.wait ++ List.replicate n cls) { x with wait := [] })) h

/-- `a` comes at or before `b` in 12-bit order (00 R10). -/
def seq12Le (a b : Nat) : Bool := decide ((b + 4096 - a % 4096) % 4096 < 2048)

/-- LANDING_FLIT_RECEIVE (R370): a flit that fails its CRC is dropped, and every later one until its number comes again; a good one is
acknowledged; its ACK frees the other direction's replay buffer, and its credits return. -/
def lndReceive (l : Nat) (up : Bool) (x : LndFlit) (h : Hw) : Hw :=
  if (landing h l).lost then h else
  if !x.good then modLanding l (fun L => setDir L up { lndDir L up with dropping := true }) h
  else if x.seq ≠ (lndDir (landing h l) up).rxNext then h
  else
    let h := modLanding l (fun L => setDir L up { lndDir L up with dropping := false, rxNext := (x.seq + 1) % 4096 }) h
    modLanding l (fun L =>
      let y := lndDir L (!up)
      let freed := y.replay.any (fun r => seq12Le r.1 x.ack)
      let y := { y with
        replay := y.replay.filter (fun r => !seq12Le r.1 x.ack)
        replayRun := if freed then 0 else y.replayRun
        used := tput y.used x.crSel (tgetD y.used x.crSel 0 - x.crCount) }
      setDir L (!up) (lndPump (!up) (now h) y.wait { y with wait := [] })) h

/-- LANDING_REPLAY_TIMEOUT (R370): the oldest flit has been unacknowledged for 1.0 µs; the sender replays from it. -/
def lndReplay (l : Nat) (up : Bool) (h : Hw) : Hw :=
  let L := landing h l
  match (lndDir L up).replay with
  | [] => h
  | r :: _ =>
    if L.lost || decide (now h - r.2.2 < 100) then h else
    let n := satAdd 16 L.replays 1
    let h := saturated 16 (0x200008 + l * 0x10000) L.replays n h
    modLanding l (fun L =>
      let x := lndDir L up
      setDir { L with replays := n } up { x with
        replay := x.replay.map (fun (y : Nat × Nat × Nat) => (y.1, y.2.1, now h))
        replayRun := x.replayRun + 1 }) h

/-- LANDING_LINK_RETRAIN (R370): after 8 consecutive replays the link retrains; `lanes` pass. No flit of a replay buffer is lost. -/
def lndRetrain (l lanes : Nat) (h : Hw) : Hw :=
  let L := landing h l
  if L.lost || (decide (L.dn.replayRun < 8) && decide (L.up.replayRun < 8) && L.failRuns = 0) then h else
  let n := satAdd 8 L.retrains 1
  let h := saturated 8 (0x200008 + l * 0x10000) L.retrains n h
  modLanding l (fun L => { L with
    retrains := n
    width := if 4 ≤ lanes then 4 else if 2 ≤ lanes then 2 else 0
    failRuns := if 2 ≤ lanes then 0 else L.failRuns + 1
    dn := { L.dn with replayRun := if 2 ≤ lanes then 0 else L.dn.replayRun }
    up := { L.up with replayRun := if 2 ≤ lanes then 0 else L.up.replayRun } }) h

/-! ## Die schedulers and channel controllers (R367, R375, R376) -/

/-- Queue an operation; it takes the next place in its die's class. -/
def flashQueue (o : FOp) (h : Hw) : Hw :=
  let h := lndSend (o.die / 32) false 0 1 h
  let h := if o.kind = .program then lndSend (o.die / 32) false 1 228 h else h
  modFlash (fun F => { F with ops := F.ops ++ [{ o with id := F.nextOp, since := now h }], nextOp := F.nextOp + 1 }) h

def flashOp (h : Hw) (id : Nat) : Option FOp := h.flash.ops.find? (fun o => o.id = id)
def modOp (id : Nat) (f : FOp → FOp) (h : Hw) : Hw :=
  modFlash (fun F => { F with ops := F.ops.map (fun o => if o.id = id then f o else o) }) h
def dropOp (id : Nat) (h : Hw) : Hw := modFlash (fun F => { F with ops := F.ops.filter (fun o => o.id ≠ id) }) h

/-- The physical block of an operation. -/
def opPhys (h : Hw) (o : FOp) : Nat := if o.win then physOf (die h o.die) o.blk else o.blk
def FOp.waits (o : FOp) : Bool := o.st == .queued || o.st == .grains
def FOp.isRunning (o : FOp) : Bool := match o.st with | .running _ => true | _ => false
def FOp.isSuspended (o : FOp) : Bool := match o.st with | .suspended _ => true | _ => false

/-- Typical time of an operation on the die in 10 ns (R364). -/
def opTime (o : FOp) : Nat :=
  match o.kind with
  | .read => if o.pslc then 2500 else 4500
  | .program => if o.pslc then 18000 else 160000
  | .erase => 800000

/-- The die holds the extra grains of the pulse (R367). -/
def pulseGranted (h : Hw) (o : FOp) : Bool :=
  let x := h.wdn.vflash
  (match o.kind with
   | .read => true
   | .program => decide (10 ≤ x.heldBy (.dieProgram o.die))
   | .erase => decide (20 ≤ x.heldBy (.dieErase o.die))) && !pulsesWithheld h.wdn

/-- A write to the channel's settings waits to take effect (R374). -/
def cfgPending (x : FChan) : Bool := x.vccq != x.vccqAct || x.rate != x.rateAct || x.rlat != x.rlatAct || x.rpre != x.rpreAct

/-- The operation may start now (R365, R374, R375, R382): it is the first of its class at its die, its plane is free, the die runs no other
erase, it is not aimed at a moving block, its grains are held, and the boot checks have ended. -/
def opEligible (h : Hw) (o : FOp) : Bool :=
  let p := opPhys h o
  let mine := h.flash.ops.filter (fun x => x.die = o.die && x.id != o.id)
  let first := !(h.flash.ops.takeWhile (fun x => x.id != o.id)).any (fun x => x.die = o.die && x.cls = o.cls && x.waits)
  let plane := !mine.any (fun x => opPhys h x % 4 = p % 4 && (x.isRunning || (o.kind != .read && x.isSuspended)))
  let erase := o.kind != .erase || !mine.any (fun x => x.kind = .erase && (x.isRunning || x.isSuspended))
  let moving := match (die h o.die).moving with
    | some b => o.kind != .read && (if o.win then o.blk = b else logicalBlk (die h o.die) o.blk = some b)
    | none => false
  let L := landing h (o.die / 32)
  o.waits && first && plane && erase && !moving && !dieDead h o.die && (o.st != .grains || pulseGranted h o)
    && !cfgPending (fchan h (o.die / 8)) && (o.cls != 0 || L.booted) && !L.loopPad.getLsbD (o.die / 8 % 4)

/-- The operation that a channel's controller serves next (R375): one that has waited its limit; a class B that is due one grant in
four; then by class, and in order of arrival. -/
def channelNext (h : Hw) (c : Nat) : Option FOp :=
  let es := h.flash.ops.filter (fun o => o.die / 8 = c && opEligible h o)
  let ofCls := fun (k : Nat) => es.find? (fun o => o.cls = k)
  match es.find? (fun o => o.front) with
  | some o => some o
  | none =>
    let byClass := (ofCls 0).or ((ofCls 1).or ((ofCls 2).or (ofCls 3)))
    if 3 ≤ (fchan h c).sinceB then (ofCls 1).or byClass else byClass

/-- A grant counts toward class B's one in four while a class B operation waits (R375). -/
def countGrant (c cls : Nat) (h : Hw) : Hw :=
  let waits := h.flash.ops.any (fun o => o.die / 8 = c && o.cls = 1 && o.waits)
  modFchan c (fun x => { x with sinceB := if cls = 1 || !waits then 0 else x.sinceB + 1 }) h

/-- An operation that has waited its class's limit is served next (R375): 1 ms in class C, 10 ms in class D. -/
def waitExpiry (c cls limit : Nat) (h : Hw) : Hw :=
  match h.flash.ops.find? (fun o => o.die / 8 = c && o.cls = cls && o.waits && !o.front && decide (limit ≤ now h - o.since)) with
  | none => h
  | some o => modOp o.id (fun o => { o with front := true }) h

/-- A READ_LEVEL brings its own level offsets (R392). -/
def ownLevels (h : Hw) (o : FOp) : Bool :=
  match o.owner with
  | .raw cmd => (h.host.cmds.find? (fun c => c.id = cmd)).any (fun c => c.fld 24 1 == 3)
  | _ => false

/-- An operation starts on its die: a read with its read-level set (a probe read's re-read keeps the one it was issued with, R384); a program or erase pulse with its entry's change (R385, R388). -/
def opStart (o : FOp) (h : Hw) : Hw :=
  let p := opPhys h o
  match o.kind with
  | .read =>
    let (o', h) := if ownLevels h o || o.again then (o, h) else calIssue o p h
    modOp o.id (fun _ => { o' with st := .running (now h), pslc := (blk h o.die p).pslc }) h
  | .program => modOp o.id (fun o => { o with st := .running (now h) }) (modBlk o.die p (fun B => progStart B o.page o.pslc) h)
  | .erase => modOp o.id (fun o => { o with st := .running (now h) }) (modBlk o.die p (fun B => { B with erasing := true }) h)

/-- The grains of a pulse are asked for over the link's MGT class (R367). -/
def askPulse (o : FOp) (h : Hw) : Hw :=
  let r : Requester := if o.kind = .erase then .dieErase o.die else .dieProgram o.die
  modOp o.id (fun o => { o with st := .grains }) (grainRequest r 0 (lndSend (o.die / 32) true 3 1 h))

/-- The grains of a die's pulses are released when none of the kind is left on it (R367, R43). -/
def releasePulse (d : Nat) (k : FKind) (h : Hw) : Hw :=
  if k = .read ∨ h.flash.ops.any (fun o => o.die = d && o.kind = k && (o.isRunning || o.isSuspended || o.st == .grains)) then h
  else grainRelease (if k = .erase then .dieErase d else .dieProgram d) 0 h

/-- PROGRAM_SUSPEND (R376): a class A or B read needs the plane of a pulse with at least 200 µs of its typical time left that has not
been suspended too often. -/
def programSuspend (d plane : Nat) (h : Hw) : Hw :=
  if !(landing h (d / 32)).suspendEn then h else
  match h.flash.ops.find? (fun o => o.die = d && opPhys h o % 4 = plane && o.kind != .read && o.isRunning) with
  | none => h
  | some o =>
    let since := match o.st with | .running t => t | _ => now h
    let ran := o.ran + (now h - since)
    let wanted := h.flash.ops.any (fun x => x.die = d && x.kind = .read && decide (x.cls ≤ 1) && x.waits && opPhys h x % 4 = plane)
    if !wanted || decide (opTime o < ran + 20000) || decide ((if o.kind = .erase then 16 else 4) ≤ o.suspends) then h else
    let n := satAdd 8 (fchan h (d / 8)).suspends 1
    let h := saturated 8 (0x200108 + d / 32 * 0x10000 + 0x20 * (d / 8 % 4)) (fchan h (d / 8)).suspends n h
    modFchan (d / 8) (fun x => { x with suspends := n }) (modOp o.id (fun o => { o with st := .suspended (now h), ran, suspends := o.suspends + 1 }) h)

/-- SUSPEND_RESUME (R376): reads have run on the die for 500 µs, or none waits for the plane; the pulse goes on. -/
def suspendResume (d plane : Nat) (h : Hw) : Hw :=
  match h.flash.ops.find? (fun o => o.die = d && opPhys h o % 4 = plane && o.isSuspended) with
  | none => h
  | some o =>
    let since := match o.st with | .suspended t => t | _ => now h
    let mine := h.flash.ops.filter (fun x => x.die = d && x.kind = .read && opPhys h x % 4 = plane)
    if mine.any (fun x => x.isRunning) || (decide (now h - since < 50000) && mine.any (fun x => x.waits && decide (x.cls ≤ 1))) then h
    else modOp o.id (fun o => { o with st := .running (now h) }) h

/-! ## The read buffer (R377) -/

/-- A unit leaves every read buffer (R377). -/
def bufDrop (vol lba n : Nat) (h : Hw) : Hw :=
  modFlash (fun F => { F with landings := F.landings.map (fun e =>
    (e.1, { e.2 with buf := e.2.buf.filter (fun b => !(b.vol = vol && decide (lba ≤ b.lba) && decide (b.lba < lba + n))) })) }) h

/-- A prefetched unit enters the buffer of its landing; when it is full the oldest leaves (R377). -/
def bufPut (l : Nat) (u : BufUnit) (h : Hw) : Hw :=
  modLanding l (fun L => { L with buf := (L.buf ++ [u]).drop (L.buf.length + 1 - 8192) }) h

/-- The buffer that holds a unit. -/
def bufFind (h : Hw) (vol lba : Nat) : Option BufUnit :=
  (h.flash.landings.flatMap (fun e => e.2.buf)).find? (fun b => b.vol = vol && b.lba = lba)

/-- READ_BUFFER_EXPIRY (R377): units that arrived 2 ms ago leave. -/
def bufExpiry (l : Nat) (h : Hw) : Hw :=
  modLanding l (fun L => { L with buf := L.buf.filter (fun b => decide (now h - b.since < 200000)) }) h

/-- CALIBRATION_IDLE_CHECK (R386): a group whose blocks hold data and that counted fewer than WINDOW probe codewords in 7 days gets
calibration reads of at most 2 × WINDOW codewords, in class D. -/
def calIdle (d g : Nat) (h : Hw) : Hw :=
  let S := calSet h d g
  let L := landing h (d / 32)
  if !L.calEn || decide (now h - S.weekFrom < 60480000000000) then h else
  let pages := ((die h d).blks.filter (fun e => calGroup e.2 (now h) = g && e.2.st != 0 && e.2.st != 3)).flatMap (fun e =>
    e.2.pages.map (fun (p : Nat × FPage) => (e.1, p.1)))
  let h' := modCal d g (fun S => { S with weekFrom := now h, weekCw := 0 }) h
  if calWindow L ≤ S.weekCw ∨ pages = [] then h' else
  (List.range (2 * calWindow L / 8)).foldl (fun h i =>
    let p := (pages[i % pages.length]?).getD (0, 0)
    flashQueue { id := 0, die := d, cls := 3, kind := .read, win := false, blk := p.1, page := p.2, cws := List.range 8, owner := .calib g, since := 0 } h) h'

def execLandingFlitReceive (l : Nat) (up : Bool) (x : LndFlit) (s : State) : Host.Outcome State Fault Refusal :=
  act (decide (l < 16)) (lndReceive l up x) s
def execLandingReplayTimeout (l : Nat) (up : Bool) (s : State) : Host.Outcome State Fault Refusal := act (decide (l < 16)) (lndReplay l up) s
def execLandingLinkRetrain (l lanes : Nat) (s : State) : Host.Outcome State Fault Refusal := act (decide (l < 16)) (lndRetrain l lanes) s
def execClassCWaitExpiry (c : Nat) (s : State) : Host.Outcome State Fault Refusal := act (decide (c < 64)) (waitExpiry c 2 100000) s
def execClassDWaitExpiry (c : Nat) (s : State) : Host.Outcome State Fault Refusal := act (decide (c < 64)) (waitExpiry c 3 1000000) s
def execProgramSuspend (d p : Nat) (s : State) : Host.Outcome State Fault Refusal := act (decide (d < 512) && decide (p < 4)) (programSuspend d p) s
def execSuspendResume (d p : Nat) (s : State) : Host.Outcome State Fault Refusal := act (decide (d < 512) && decide (p < 4)) (suspendResume d p) s
def execReadBufferExpiry (l : Nat) (s : State) : Host.Outcome State Fault Refusal := act (decide (l < 16)) (bufExpiry l) s
def execCalibrationIdleCheck (d g : Nat) (s : State) : Host.Outcome State Fault Refusal := act (decide (d < 512) && decide (g < 36)) (calIdle d g) s
def execLandingBootCheck (l : Nat) (fresh : List (Nat × Nat)) (s : State) : Host.Outcome State Fault Refusal :=
  act (decide (l < 16)) (bootCheck l fresh) s

end Sys2Proof.Machine
end

