-- ==== Sys2Proof/Machine/Mdm.lean ====
section
/-!
DEFINITION. The Media Manager's map, superblocks, streams, journal and checkpoints (15 R402 to R415), writes and their tally records
(18 R490 to R493).
-/
namespace Sys2Proof.Machine

def modMdm (f : Mdm → Mdm) (h : Hw) : Hw := { h with mdm := f h.mdm }
def modMap (f : MapSt → MapSt) (h : Hw) : Hw := modMdm (fun M => { M with map := f M.map }) h
def volume (h : Hw) (v : Nat) : Option Volume := tget h.mdm.map.vols v

/-- A bit of MDM_EVT set (15 R430; 18 R595): 0 SPARE_WARN, 1 SPARE_CRIT, 2 READ_ONLY, 3 SANITIZE_DONE, 4 MAP_RELOAD. -/
def setMdmEvt (b : Nat) (h : Hw) : Hw :=
  if h.mdm.evt.testBit b then h
  else raiseEvent 7 b (if b = 1 ∨ b = 2 then 2 else if b = 3 then 0 else 1) 0 0 (modMdm (fun M => { M with evt := M.evt + 2 ^ b }) h)

/-- A 64-bit count of the health log at its offset (15 R429; 00 R9). -/
def countUp (off n : Nat) (get : Mdm → Nat) (set : Nat → Mdm → Mdm) (h : Hw) : Hw :=
  let v := satAdd 64 (get h.mdm) n
  saturated 64 off (get h.mdm) v (modMdm (set v) h)

/-! ## Die sets and superblocks (R403 to R406) -/

/-- The die at a position of a die set (R403). -/
def setDie (s pos : Nat) : Nat := (4 * (pos / 2) + 2 * (s / 8) + pos % 2) * 8 + s % 8
/-- The die set and position of a die (R403). -/
def dieSet (d : Nat) : Nat × Nat := (d / 8 % 4 / 2 * 8 + d % 8, 2 * (d / 32) + d / 8 % 2)

/-- The die and logical block of a superblock's member (R403). -/
def memberAt (M : MapSt) (sb pos : Nat) : Nat × Nat :=
  let b := match tget M.sbs sb with
    | some S => (tget S.members pos).getD (24 + sb % 7427)
    | none => 24 + sb % 7427
  (setDie (sb / 7427) pos, b)

/-- Positions in service of a superblock, ascending. -/
def inSvc (S : Sblk) : List Nat := (List.range 32).filter (fun p => S.inSvc.getLsbD p)
/-- The mirror pairs in service of a landing-zone superblock (R406). -/
def pairs (S : Sblk) : List Nat := (List.range 16).filter (fun k => S.inSvc.getLsbD k && S.inSvc.getLsbD (k + 16))

/-- Data pages of a superblock (R404, R406). -/
def sbPages (S : Sblk) : Nat := if S.zone then (pairs S).length * 512 else ((inSvc S).length - 2) * 2048

/-- The parity members of a row (R404): indices among the members in service. -/
def parityOf (n r : Nat) : Nat × Nat := (2 * r % n, (2 * r + 1) % n)

/-- The data members of a row in order, as positions (R404). -/
def dataMembers (S : Sblk) (r : Nat) : List Nat :=
  let ms := inSvc S
  let (pa, pb) := parityOf (max 1 ms.length) r
  ((List.range ms.length).filter (fun i => i ≠ pa && i ≠ pb)).map (fun i => (ms[i]?).getD 0)

/-- Where data page `j` lies: its positions (two in the landing zone) and the page of the blocks (R404, R406). -/
def pagePlace (S : Sblk) (j : Nat) : List Nat × Nat :=
  if S.zone then
    let ps := pairs S
    let k := (ps[j % max 1 ps.length]?).getD 0
    ([k, k + 16], j / max 1 ps.length)
  else
    let d := max 1 ((inSvc S).length - 2)
    ([((dataMembers S (j / d))[j % d]?).getD 0], j / d)

/-- The copies of a data page: die, logical block, page. -/
def pageCopies (M : MapSt) (sb j : Nat) : List (Nat × Nat × Nat) :=
  match tget M.sbs sb with
  | none => []
  | some S =>
    let (ps, r) := pagePlace S j
    ps.map (fun p => ((memberAt M sb p).1, (memberAt M sb p).2, r))

/-- A page's contents on a die. -/
def flashPage (h : Hw) (d b r : Nat) : Option FPage := tget (blk h d (physOf (die h d) b)).pages r

/-- A data page's contents: of its first copy that holds any and whose block is not torn there (R389, R414). -/
def dataPage (h : Hw) (sb j : Nat) : Option FPage :=
  (pageCopies h.mdm.map sb j).findSome? (fun x =>
    if indeterminate (blk h x.1 (physOf (die h x.1) x.2.1)) x.2.2 then none else flashPage h x.1 x.2.1 x.2.2)

/-! ## The map (R408, R409) -/

/-- The place of the `i`-th unit from an entry: consecutive units, 8 to a page. -/
def entAdd (e : MapEnt) (i : Nat) : MapEnt :=
  match e with
  | .located z sb pg u => .located z sb (pg + (u + i) / 8) ((u + i) % 8)
  | e => e

/-- The entry of a logical block (R408). -/
def unitEnt (M : MapSt) (vol lba : Nat) : MapEnt :=
  match tget M.vols vol with
  | none => .unmapped
  | some V =>
    match tgetD V.spans (lba / 16) .unmapped with
    | .nailed t => match tget M.nails t with
      | some N => tgetD N.ents (lba % 16) .unmapped
      | none => .unmapped
    | e => entAdd e (lba % 16)

/-- The span entry of a volume (R408). -/
def spanEnt (M : MapSt) (vol span : Nat) : MapEnt :=
  match tget M.vols vol with
  | none => .unmapped
  | some V => tgetD V.spans span .unmapped

def setSpan (M : MapSt) (vol span : Nat) (e : MapEnt) : MapSt :=
  { M with vols := match tget M.vols vol with
    | none => M.vols
    | some V => tput M.vols vol { V with spans := if e = .unmapped then tdel V.spans span else tput V.spans span e } }

/-- The nail table of a span, made from its old entry when it has none (R409). -/
def nailOf (M : MapSt) (vol span : Nat) : Nat × MapSt :=
  match tget M.vols vol with
  | none => (0, M)
  | some V =>
    match tgetD V.spans span .unmapped with
    | .nailed t => (t, M)
    | e =>
      let N : Nail := { vol, span, ents := if e = .unmapped then [] else (List.range 16).map (fun i => (i, entAdd e i)) }
      let t := M.nailNext
      (t, setSpan { M with nails := tput M.nails t N, nailNext := t + 1 } vol span (.nailed t))

/-- A span's 16 nail entries are one chunk in order: the entry that locates it (R408). -/
def chunkOf (N : Nail) : Option MapEnt :=
  match tgetD N.ents 0 .unmapped with
  | .located z sb pg 0 =>
    if pg % 2 = 0 ∧ (List.range 16).all (fun i => tgetD N.ents i .unmapped == entAdd (.located z sb pg 0) i) then some (.located z sb pg 0) else none
  | _ => none

/-- A nailed span becomes LOCATED, or UNMAPPED when none of its units is mapped (R409). -/
def foldSpan (M : MapSt) (vol span : Nat) : MapSt :=
  match spanEnt M vol span with
  | .nailed t =>
    match tget M.nails t with
    | none => M
    | some N =>
      if N.ents.all (fun e => e.2 == .unmapped) then setSpan { M with nails := tdel M.nails t } vol span .unmapped
      else match chunkOf N with
        | some e => setSpan { M with nails := tdel M.nails t } vol span e
        | none => M
  | _ => M

/-- Give `n` units from a logical block, all in one span, the places from an entry (R409). -/
def mapPut (M : MapSt) (vol lba n : Nat) (e : MapEnt) (whole : Bool) : MapSt :=
  if (tget M.vols vol).isNone then M else
  if n = 16 ∧ lba % 16 = 0 then
    let M := match spanEnt M vol (lba / 16) with
      | .nailed t => { M with nails := tdel M.nails t }
      | _ => M
    setSpan M vol (lba / 16) e
  else
    let (t, M) := nailOf M vol (lba / 16)
    let M := { M with nails := tmod M.nails t { vol, span := lba / 16 } (fun N =>
      { N with ents := (List.range n).foldl (fun (l : Tbl MapEnt) i => tput l (lba % 16 + i) (entAdd e i)) N.ents }) }
    if whole then foldSpan M vol (lba / 16) else M

/-- A list page's place in the directory of its volume. -/
def listPut (M : MapSt) (vol n p : Nat) (x : ListPage) : MapSt :=
  match tget M.vols vol with
  | none => M
  | some V =>
    let l := tgetD V.dir n []
    { M with vols := tput M.vols vol { V with dir := tput V.dir n (if p < l.length then l.set p x else l ++ [x]), seq := V.seq + 1 } }

def listEnt (M : MapSt) (vol n p : Nat) : MapEnt :=
  match tget M.vols vol with
  | none => .unmapped
  | some V => (((tgetD V.dir n [])[p]?).map (fun (x : ListPage) => x.loc)).getD .unmapped

/-- A journal record applied (R412, R414, R418): a copy's record changes nothing when the entry no longer points to what was copied. -/
def applyChange (M : MapSt) : JChange → MapSt
  | .map vol lba n e old whole =>
    match old with
    | some o => if (List.range n).all (fun i => unitEnt M vol (lba + i) == entAdd o i) then mapPut M vol lba n e whole else M
    | none => mapPut M vol lba n e whole
  | .fold vol span => foldSpan M vol span
  | .volume v new => { M with vols := match new with | some V => tput M.vols v V | none => tdel M.vols v
                              nails := if new.isNone then M.nails.filter (fun e => e.2.vol ≠ v) else M.nails }
  | .list vol n p x old =>
    match old with
    | some o => if listEnt M vol n p = o then listPut M vol n p x else M
    | none => listPut M vol n p x
  | .tombs vol ids => { M with vols := match tget M.vols vol with | some V => tput M.vols vol { V with tombs := ids } | none => M.vols }

/-- Every mapped unit and list page of a superblock: (volume, logical block, 0, entry), or (volume, list, page + 1, entry). -/
def mappedIn (M : MapSt) (sb : Nat) : List (Nat × Nat × Nat × MapEnt) :=
  let here := fun (e : MapEnt) => match e with | .located _ s _ _ => s == sb | _ => false
  M.vols.flatMap (fun v =>
    (v.2.spans.flatMap (fun s => ((List.range 16).map (fun i => (v.1, 16 * s.1 + i, 0, unitEnt M v.1 (16 * s.1 + i)))).filter (fun x => here x.2.2.2)))
    ++ (v.2.dir.flatMap (fun l => ((List.range l.2.length).map (fun p => (v.1, l.1, p + 1, listEnt M v.1 l.1 p))).filter (fun x => here x.2.2.2))))

/-- Valid units of a superblock (R416): a list page holds 8. -/
def validUnits (M : MapSt) (sb : Nat) : Nat := (mappedIn M sb).foldl (fun n x => n + (if x.2.2.1 = 0 then 1 else 8)) 0

/-! ## Space (R416, R423) -/

/-- A logical block of a die belongs to a superblock in use. -/
def blockUsed (M : MapSt) (d b : Nat) : Bool :=
  let (s, pos) := dieSet d
  M.sbs.any (fun e => e.1 / 7427 = s && e.2.st != 3 && e.2.inSvc.getLsbD pos && (memberAt M e.1 pos).2 = b)

/-- The block is retired: a move or a failure put it on the grown-defect list (R381, R419, R420). -/
def blockRetired (h : Hw) (d b : Nat) : Bool := (blk h d (physOf (die h d) b)).retired

/-- A loose block of a die (R419): a pool block of no superblock in use, not retired, not being moved. -/
def looseBlock (h : Hw) (d : Nat) : Option Nat :=
  (List.range 7427).map (fun i => 24 + i) |>.find? (fun b =>
    !blockUsed h.mdm.map d b && !blockRetired h d b && (die h d).moving != some b)

/-- Free superblocks of a die set (R416): numbers not in use. -/
def freeCount (M : MapSt) (s : Nat) : Nat := 7427 - (M.sbs.filter (fun e => e.1 / 7427 = s)).length

/-- A free superblock with a given h, in any of its die sets; which one is open (log 35). -/
def pickFree (h : Hw) (hh : Nat) : Option Nat :=
  let k := Config.freeChoice h.free (8 * 7427) % (8 * 7427)
  ((List.range (8 * 7427)).map (fun i => (i + k) % (8 * 7427))).find? (fun i => !(h.mdm.map.sbs.any (fun e => e.1 = (8 * hh) * 7427 + i)))
    |>.map (fun i => (8 * hh) * 7427 + i)

/-- Open a superblock (R403, R421): the members in service are those on dies in service that have a good block; its own when it is
loose, else another loose one. -/
def openSb (sb : Nat) (zone : Bool) (h : Hw) : Hw :=
  let blockFor := fun (pos : Nat) =>
    let d := setDie (sb / 7427) pos
    let b := 24 + sb % 7427
    if dieOut h d then none
    else if !blockUsed h.mdm.map d b && !blockRetired h d b && (die h d).moving != some b then some b
    else looseBlock h d
  let ms := (List.range 32).filterMap (fun p => (blockFor p).map (fun b => (p, b)))
  let svc := ms.foldl (fun (n : Nat) (x : Nat × Nat) => n + 2 ^ x.1) 0
  let S : Sblk := { st := 1, zone, members := ms, inSvc := BitVec.ofNat 32 svc }
  modMap (fun M => { M with sbs := tput M.sbs sb S }) { h with free := h.free + 1 }

/-- Members in service a superblock would have now (R423). -/
def svcNow (h : Hw) (s : Nat) : Nat := ((List.range 32).filter (fun p => !dieOut h (setDie s p))).length

/-- Spare (R423): the data capacity of the in-service pool superblocks less the user capacity and the headroom. -/
def spare (h : Hw) : Int :=
  let cap := (List.range 16).foldl (fun (n : Nat) s =>
    n + (7427 - (h.mdm.map.sbs.filter (fun e => e.1 / 7427 = s && e.2.st = 3)).length) * (svcNow h s - 2) * 67108864) 0
  (cap : Int) - 216000000000000 - 322122547200

/-- Spare space left, percent (R423). -/
def spareLeft (h : Hw) : Nat := if spare h ≤ 0 then 0 else 100 * (spare h).toNat / h.mdm.spareFirst

/-- Wear used, percent (R422): the mean wear units of the in-service blocks of every die. -/
def wearUsed (h : Hw) : Nat :=
  let n := 512 * 7451 - h.mdm.defects.length
  let total := h.flash.dies.foldl (fun n d => d.2.blks.foldl (fun n b => if b.2.retired then n else n + b.2.wear) n) 0
  min 255 (100 * total / n / 30000)

/-- SPARE_WARN below 10 and SPARE_CRIT below 2, each once (R424). -/
def spareWatch (h : Hw) : Hw :=
  let n := spareLeft h
  let h := if n < 10 ∧ !h.mdm.warned then setMdmEvt 0 (modMdm (fun M => { M with warned := true }) h) else h
  if n < 2 ∧ !h.mdm.critted then setMdmEvt 1 (modMdm (fun M => { M with critted := true }) h) else h

/-- A block goes onto the grown-defect list. -/
def growDefect (d p : Nat) (h : Hw) : Hw :=
  let h := modBlk d p (fun B => { B with retired := true, retiredAt := now h }) h
  if h.mdm.defects.contains (d, p) then h else modMdm (fun M => { M with defects := M.defects ++ [(d, p)] }) h

/-! ## Streams (R405 to R407) -/

/-- Landing-zone superblocks in use, and their limit (R406, R430). -/
def zoneCount (M : MapSt) : Nat := (M.sbs.filter (fun e => e.2.zone && e.2.st != 3)).length
def lzMax (M : Mdm) : Nat := max 16 (min 128 M.lzMax)

/-- The stream has an open superblock of an h with room, or one can be opened; its number. -/
def streamSb (st : Stream) (hh : Nat) (zone : Bool) (h : Hw) : Option (Nat × Hw) :=
  let cur := (if hh = 0 then st.open0 else st.open1).bind (fun sb => (tget h.mdm.map.sbs sb).bind (fun S =>
    if S.st = 1 ∧ S.used.length + 1 < sbPages S then some sb else none))
  match cur with
  | some sb => some (sb, h)
  | none =>
    if zone ∧ lzMax h.mdm ≤ zoneCount h.mdm.map then none else
    match pickFree h hh with
    | none => none
    | some sb =>
      let h := match (if hh = 0 then st.open0 else st.open1) with
        | some old => modMap (fun M => { M with sbs := match tget M.sbs old with | some S => tput M.sbs old { S with st := max 2 S.st } | none => M.sbs }) h
        | none => h
      some (sb, openSb sb zone h)

/-- Take data pages of a superblock; it is full when none is left. -/
def usePages (sb : Nat) (js : List Nat) (h : Hw) : Hw :=
  modMap (fun M => { M with sbs := match tget M.sbs sb with
    | none => M.sbs
    | some S =>
      let S := { S with used := S.used ++ js }
      tput M.sbs sb { S with st := if sbPages S ≤ S.used.length then 2 else S.st } }) h

/-- The next data page of a stream's chunk (R405): chunk `c` goes to the superblock of h = c mod 2 and takes its next two data pages.
A page that begins a span takes a new chunk. -/
def takePage (get : Mdm → Stream) (set : Stream → Mdm → Mdm) (zone fresh : Bool) (h : Hw) : Option ((Nat × Nat) × Hw) :=
  let st := get h.mdm
  let half := st.half.filter (fun x => match tget h.mdm.map.sbs x.1 with | some S => !S.evict | none => false)
  match (if fresh then none else half) with
  | some x => some (x, modMdm (fun M => set { st with half := none } M) h)
  | none =>
    let hh := st.chunk % 2
    match streamSb st hh zone h with
    | none => none
    | some (sb, h) =>
      let j := match tget h.mdm.map.sbs sb with | some S => (S.used.foldl max 0 + (if S.used = [] then 0 else 1)) | none => 0
      let j := j + j % 2
      let h := usePages sb [j, j + 1] h
      let st := if hh = 0 then { st with open0 := some sb } else { st with open1 := some sb }
      some ((sb, j), modMdm (fun M => set { st with chunk := st.chunk + 1, half := some (sb, j + 1) } M) h)

def takeLz (fresh : Bool) (h : Hw) : Option ((Nat × Nat) × Hw) := takePage (fun M => M.lz) (fun s M => { M with lz := s }) true fresh h

/-- Queue the two copies of a landing-zone page (R406, R410). A copy on a dead die fails at once (21 R541). -/
def lzWrite (sb j data : Nat) (recs : List JRec) (h : Hw) : Hw :=
  let id := h.mdm.nextId
  let cs := pageCopies h.mdm.map sb j
  let copies := cs.map (fun x => if dieDead h x.1 then 2 else 0)
  let h := modMdm (fun M => { M with nextId := id + 1, lzPages := M.lzPages ++ [{ id, sb, page := j, data, recs, copies }] }) h
  (List.range cs.length).foldl (fun h i =>
    let x := (cs[i]?).getD (0, 0, 0)
    if dieDead h x.1 then h else
    flashQueue { id := 0, die := x.1, cls := 2, kind := .program, win := true, blk := x.2.1, page := x.2.2, pslc := true
                 data := { data }, owner := .lz id i, since := 0 } h) h

/-! ## The journal (R410, R412) -/

/-- A record joins the journal page that is forming (R412); a page of 2,044 records takes no more. -/
def addRec (r : JRec) (h : Hw) : Hw :=
  modMdm (fun M => match M.forming with
    | some P =>
      if P.recs.length < 2044 then { M with forming := some { P with recs := P.recs ++ [r] } }
      else { M with journal := M.journal ++ [{ P with programming := true }]
                    forming := some { seq := M.jseq, recs := [r], since := now h }
                    jseq := M.jseq + 1 }
    | none => { M with forming := some { seq := M.jseq, recs := [r], since := now h }, jseq := M.jseq + 1 }) h

/-- The first unit of a command not yet durable. -/
def firstOpen (w : Writing) : Nat :=
  (w.durable.foldl (fun (n : Nat) _ => match w.durable.find? (fun d => d.1 ≤ n && decide (n < d.1 + d.2)) with | some d => d.1 + d.2 | none => n) 0)

def writing (h : Hw) (cmd : Nat) : Option Writing := h.mdm.writes.find? (fun w => w.cmd = cmd)
def modWriting (cmd : Nat) (f : Writing → Writing) (h : Hw) : Hw :=
  modMdm (fun M => { M with writes := M.writes.map (fun w => if w.cmd = cmd then f w else w) }) h

/-- A record's units lie in the window of its command (18 R490): among the 256 units from the first not yet durable. -/
def inWindow (h : Hw) (r : JRec) : Bool :=
  match r.whom with
  | .units cmd i n => match writing h cmd with
    | some w => decide (i + n ≤ firstOpen w + 256)
    | none => true
  | _ => true

/-- A page's journal records are formed, and the page is done with. -/
def formRecs (p : LzPage) (h : Hw) : Hw :=
  let h := p.recs.foldl (fun h r => addRec r h) h
  modMdm (fun M => { M with lzPages := M.lzPages.filter (fun x => x.id ≠ p.id) }) h

/-- The records that only their window held back are formed once it has moved on (18 R490). -/
def formReady (h : Hw) : Hw :=
  h.mdm.lzPages.foldl (fun (h : Hw) (p : LzPage) => if p.ready && p.recs.all (inWindow h) then formRecs p h else h) h

/-- LZ_PAGE_PROGRAMMED (R410): both copies of a data page have been programmed; the records that map its units are formed, once they lie
in their command's window. -/
def lzProgrammed (id : Nat) (h : Hw) : Hw :=
  match h.mdm.lzPages.find? (fun p => p.id = id && p.copies.all (fun c => c == 1)) with
  | none => h
  | some p =>
    if p.recs.all (inWindow h) then formRecs p h
    else modMdm (fun M => { M with lzPages := M.lzPages.map (fun x => if x.id = id then { x with ready := true } else x) }) h

/-- JOURNAL_PAGE_START (R412): the forming page starts programming. -/
def journalStart (h : Hw) : Hw :=
  if h.wdn.voteSplit then h else
  modMdm (fun M => match M.forming with
    | some P => { M with journal := M.journal ++ [{ P with programming := true }], forming := none }
    | none => M) h

/-! ## Ends of WRITE and TRIM (18 R490, R492) -/

/-- RESULT of a WRITE or TRIM: COMMITTED_UNITS and INDETERMINATE_TAIL (18 R476). -/
def writeResult (committed tail : Nat) : Nat := committed + tail * 2 ^ 32

/-- A unit of a WRITE has become durable, or been dropped, after its command completed: its tally record follows (18 R492); a record with
no unit pending is settled. -/
def tallyUnits (cmd i n st : Nat) (h : Hw) : Hw :=
  { h with host := { h.host with tallies := h.host.tallies.map (fun t =>
      if t.cmd ≠ cmd ∨ t.settled then t else
      { t with map := (List.range t.map.length).map (fun k =>
          let old := (t.map[k]?).getD 0
          if old = 2 ∧ i ≤ t.committed + k ∧ t.committed + k < i + n then st else old) }) } }

/-- TALLY_SETTLE (18 R492): every tail unit of a completed command is resolved. -/
def tallySettle (q cid : Nat) (h : Hw) : Hw :=
  { h with host := { h.host with tallies := h.host.tallies.map (fun t =>
      if t.q = q ∧ t.cid = cid ∧ !t.settled ∧ t.map.all (fun s => s != 2) then { t with settled := true, settledAt := now h } else t) } }

/-- A tally record (18 R491, R493): at most 4,096 are held, the oldest going first. -/
def addTally (t : Tally) (h : Hw) : Hw :=
  { h with host := { h.host with tallies := (h.host.tallies ++ [t]).drop (h.host.tallies.length + 1 - 4096) } }

/-- A WRITE or TRIM ends without OK (18 R490): its units in the window whose pages are placed may still become durable; every other
is dropped. A TRIM has no tail. -/
def endWrite (w : Writing) (c : Cmd) (st : Nat) (h : Hw) : Hw :=
  let com := min w.n (firstOpen w)
  let isTail := fun (i : Nat) => h.mdm.lzPages.any (fun p => p.recs.any (fun r => match r.whom with
      | .units k a n => k = w.cmd && decide (a ≤ i) && decide (i < a + n) && decide (a + n ≤ com + 256)
      | _ => false))
    || (h.mdm.journal ++ h.mdm.forming.toList).any (fun P => P.recs.any (fun r => match r.whom with
      | .units k a n => k = w.cmd && decide (a ≤ i) && decide (i < a + n) && decide (a + n ≤ com + 256)
      | _ => false))
  let durable := fun (i : Nat) => w.durable.any (fun d => d.1 ≤ i && decide (i < d.1 + d.2))
  let top := if w.trim then com else ((List.range 256).map (fun i => com + i)).foldl (fun m i => if i < w.n ∧ (isTail i ∨ durable i) then i + 1 else m) com
  let tail := top - com
  let map := (List.range tail).map (fun k => if durable (com + k) then 1 else if isTail (com + k) then 2 else 0)
  let dropRec := fun (r : JRec) => match r.whom with
    | .units k a n => !(k = w.cmd && decide (top < a + n))
    | _ => true
  let h := modMdm (fun M => { M with
    writes := M.writes.filter (fun x => x.cmd ≠ w.cmd)
    lzPages := M.lzPages.map (fun p => { p with recs := p.recs.filter dropRec }) }) h
  let h := if tail = 0 then h else
    addTally { q := c.q, cid := c.cid, cmd := c.id, status := st, settled := false, volume := w.vol, units := w.n, lba := w.lba
               committed := com, created := now h, map } h
  finishCmd c.id { status := st, flags := if tail = 0 then 0 else 1, result := writeResult com tail } h

/-- A record of a journal page has become durable: its command's units are durable, and the command completes when all are (R410, 18
R490). -/
def unitsDurable (cmd i n : Nat) (h : Hw) : Hw :=
  let trim : Bool := match writing h cmd with
    | some w => w.trim
    | none => false
  let h := if trim then h else countUp 16 n (fun M => M.unitsWritten) (fun v M => { M with unitsWritten := v }) h
  match writing h cmd with
  | none => tallyUnits cmd i n 1 h
  | some w =>
    let w := { w with durable := w.durable ++ [(i, n)] }
    let h := modWriting cmd (fun _ => w) h
    match h.host.cmds.find? (fun c => c.id = cmd) with
    | none => h
    | some c =>
      if firstOpen w = w.n then
        finishCmd cmd { status := stOk, result := writeResult w.n 0 } (modMdm (fun M => { M with writes := M.writes.filter (fun x => x.cmd ≠ cmd) }) h)
      else match w.stop with
        | some st => if w.trim ∧ firstOpen w = w.placed then endWrite w c st h else h
        | none => h

/-- The units that a change gives a new place leave the read buffers, and their span was written now (14 R377, 15 R409). -/
def changeSeen (x : JChange) (h : Hw) : Hw :=
  match x with
  | .map vol lba n _ old _ =>
    let h := bufDrop vol lba n h
    if old.isSome then h else modMdm (fun M => { M with spanAt := tput M.spanAt (vol * 2 ^ 32 + lba / 16) (now h) }) h
  | _ => h

/-- The entries of an APPEND that a record makes durable (11 R290). -/
def appendDurable (scan upto : Nat) (h : Hw) : Hw :=
  { h with probe := { h.probe with scans := h.probe.scans.map (fun s => if s.id = scan then { s with applied := max s.applied upto } else s) } }

/-- JOURNAL_PAGE_DURABLE (R410, R412, R418): the next journal page has been programmed, all with lower numbers having been; its records
take effect, and units waiting for their window get their records. -/
def journalDurable (h : Hw) : Hw :=
  match h.mdm.journal.find? (fun P => P.seq = h.mdm.jdone) with
  | none => h
  | some P =>
    if !P.programming || h.wdn.voteSplit then h else
    let h := P.recs.foldl (fun h r => changeSeen r.chg (modMap (fun M => applyChange M r.chg) h)) h
    let h := modMdm (fun M => { M with jdone := P.seq + 1 }) h
    let h := P.recs.foldl (fun h r => match r.whom with
      | .units c i n => unitsDurable c i n h
      | .append s k => appendDurable s k h
      | .volume c => endCmd c stOk h
      | .none => h) h
    formReady h

/-- LZ_COPY_FAIL (R410; 18 R492; 21 R541): a copy failed. The failed block goes onto the grown-defect list. Units of a command that has
not completed are programmed again into a new page; those of a completed command are dropped. -/
def lzCopyFail (id : Nat) (h : Hw) : Hw :=
  match h.mdm.lzPages.find? (fun p => p.id = id && p.copies.contains 2 && !p.copies.contains 0) with
  | none => h
  | some p =>
    let cs := pageCopies h.mdm.map p.sb p.page
    let h := (List.range cs.length).foldl (fun h i =>
      let x := (cs[i]?).getD (0, 0, 0)
      if (p.copies[i]?).getD 0 = 2 ∧ !dieDead h x.1 then growDefect x.1 (physOf (die h x.1) x.2.1) h else h) h
    let live := fun (r : JRec) => match r.whom with
      | .units c _ _ => (writing h c).isSome
      | _ => true
    let h := p.recs.foldl (fun h r => if live r then h else match r.whom with
      | .units c i n => tallyUnits c i n 0 h
      | _ => h) h
    let recs := p.recs.filter live
    let close := fun (h : Hw) => modMap (fun M => { M with sbs := match tget M.sbs p.sb with
      | some S => tput M.sbs p.sb { S with st := max 2 S.st, evict := true }
      | none => M.sbs }) h
    let gone := fun (h : Hw) => modMdm (fun M => { M with lzPages := M.lzPages.filter (fun x => x.id ≠ id) }) h
    if recs = [] then gone (close h) else
    match takeLz true (close h) with
    | none => h
    | some ((sb, j), h) =>
      let move := fun (e : MapEnt) => match e with
        | .located _ _ pg u => MapEnt.located true sb (j + (pg - p.page)) u
        | e => e
      let fix := fun (r : JRec) => match r.chg with
        | .map v l n e o w => { r with chg := .map v l n (move e) o w }
        | .list v l q x o => { r with chg := .list v l q { x with loc := move x.loc } o }
        | _ => r
      lzWrite sb j p.data (recs.map fix) (gone h)

/-! ## Checkpoints and recovery (R413 to R415) -/

def ckptInterval (M : Mdm) : Nat := max 60 M.interval
def ckptMib (M : Mdm) : Nat := max 64 (min 4096 M.jmib)
/-- The root's value: which area, its generation, its starting SEQ; the manual gives no layout (log 36). -/
def rootVal (area gen seq : Nat) : Nat := area + 2 * gen + 2 ^ 64 * seq

/-- The checkpoint the map root names, by the majority of its copies. -/
def majority (c : Crit) : Option Nat :=
  c.copies.findSome? (fun x => match x with
    | some v => if 2 ≤ (c.copies.filter (fun y => y == some v)).length then some v else none
    | none => none)
def critOf (h : Hw) (w : Nat) : Crit := tgetD h.mdm.crit w {}

/-- CHECKPOINT_START (R413): enough journal has been written, or the interval has passed with a change; the map as it stands is copied into
the area that the root does not name. -/
def ckptStart (h : Hw) : Hw :=
  let M := h.mdm
  let written := (M.journal.filter (fun P => P.seq < M.jdone)).length
  let due := ckptMib M * 32 ≤ written ∨ (1 ≤ written ∧ ckptInterval M * 100000000 ≤ now h - M.ckptAt)
  if !decide due || h.wdn.voteSplit then h else
  let k : Ckpt := { map := M.map, seq := M.jdone, gen := M.gen + 1, done := true }
  modMdm (fun M => if M.gen % 2 = 0 then { M with ckptB := some k, ckptAt := now h } else { M with ckptA := some k, ckptAt := now h }) h

/-- MAP_ROOT_WRITE (R413, 16 R440): every page of the new checkpoint is verified; the root is written copy by copy to name it, and only
then are journal pages older than its SEQ released. -/
def rootWrite (h : Hw) : Hw :=
  let M := h.mdm
  match (if M.gen % 2 = 0 then M.ckptB else M.ckptA) with
  | none => h
  | some k =>
    if !k.done || k.gen != M.gen + 1 || h.wdn.voteSplit then h else
    let v := rootVal (k.gen % 2) k.gen k.seq
    modMdm (fun M => { M with
      gen := k.gen
      crit := tput M.crit 1 { copies := [some v, some v, some v] }
      journal := M.journal.filter (fun P => k.seq ≤ P.seq) }) h

/-- The map that the checkpoint and the durable journal give (R414). -/
def replayed (M : Mdm) : MapSt :=
  let k := if M.gen % 2 = 0 then M.ckptA else M.ckptB
  let base := (k.map (fun k => k.map)).getD {}
  let from_ := (k.map (fun k => k.seq)).getD 0
  (M.journal.filter (fun (P : JPage) => decide (from_ ≤ P.seq) && decide (P.seq < M.jdone))).foldl (fun (m : MapSt) (P : JPage) => P.recs.foldl (fun m r => applyChange m r.chg) m) base

/-- MAP_PIECE_RELOAD (R415): a spoiled piece is held while it is reloaded; when the reload ends, what it holds is what the checkpoint and
the journal give. -/
def pieceReload (p : Nat) (ends : Bool) (h : Hw) : Hw :=
  if !ends then
    if h.mdm.pieces.contains p then h else setMdmEvt 4 (modMdm (fun M => { M with pieces := M.pieces ++ [p] }) h)
  else if !h.mdm.pieces.contains p then h
  else modMdm (fun M => { M with map := { replayed M with sbs := M.map.sbs }, pieces := M.pieces.filter (fun x => x ≠ p) }) h

/-- A command's units need a piece under reload (R415; log 31). -/
def needsPiece (h : Hw) (vol lba n : Nat) : Bool :=
  h.mdm.pieces.any (fun p => (List.range ((lba % 16 + n + 15) / 16)).any (fun i => Config.mapPiece vol (lba / 16 + i) = p))

def execLzPageProgrammed (id : Nat) (s : State) : Host.Outcome State Fault Refusal := act true (lzProgrammed id) s
def execLzCopyFail (id : Nat) (s : State) : Host.Outcome State Fault Refusal := act true (lzCopyFail id) s
def execJournalPageStart (s : State) : Host.Outcome State Fault Refusal := act true journalStart s
def execJournalPageDurable (s : State) : Host.Outcome State Fault Refusal := act true journalDurable s
def execTallySettle (q cid : Nat) (s : State) : Host.Outcome State Fault Refusal := act true (tallySettle q cid) s
def execCheckpointStart (s : State) : Host.Outcome State Fault Refusal := act true ckptStart s
def execMapRootWrite (s : State) : Host.Outcome State Fault Refusal := act true rootWrite s
def execMapPieceReload (p : Nat) (ends : Bool) (s : State) : Host.Outcome State Fault Refusal := act true (pieceReload p ends) s

end Sys2Proof.Machine
end

