-- ==== Sys2Proof/Machine/Reclaim.lean ====
section
/-!
DEFINITION. Reclamation, destage, folding, list rows, member substitution, dies out of service, the wear window's moves, read-only
retirement and the erasing of a sanitize (14 R380 to R382; 15 R407, R409, R416 to R428).
-/
namespace Sys2Proof.Machine

/-! ## Page contents -/

/-- Unit `u` of a page: its data, and whether no tier decodes it. -/
def pageUnit (x : FPage) (u : Nat) : Nat × Bool := (x.data / 256 ^ (4096 * u) % 256 ^ 4096, x.bad.contains u)

/-- The contents of a located unit; an unmapped one holds zeros (R408). -/
def entUnit (h : Hw) (e : MapEnt) : Nat × Bool :=
  match e with
  | .located _ sb pg u => match dataPage h sb pg with
    | some x => pageUnit x u
    | none => (0, true)
  | _ => (0, false)

/-- A data page as a copy writes it: a unit that no tier decodes is copied undecoded and stays so (R411). -/
def copyPage (h : Hw) : PageW → FPage
  | .units l _ =>
    let us := (List.range 8).map (fun i => match ((l[i]?).getD none) with | some u => entUnit h u.old | none => (0, false))
    { data := us.foldr (fun x a => x.1 + 256 ^ 4096 * a) 0
      bad := (List.range 8).filter (fun i => ((us[i]?).getD (0, false)).2) }
  | .list _ _ _ old => match old with
    | .located _ sb pg _ => (dataPage h sb pg).getD { data := 0, bad := List.range 8 }
    | _ => { data := 0 }
  | .void => { data := 0 }

/-- Product in GF(2⁸) with polynomial 0x11D (R404). -/
def gfMul (a b : Nat) : Nat :=
  ((List.range 8).foldl (fun (s : Nat × Nat) i =>
    (if b.testBit i then s.1 ^^^ s.2 else s.1, if 128 ≤ s.2 then (2 * s.2) ^^^ 0x11D else 2 * s.2)) (0, a)).1

/-- 2 to a power in GF(2⁸). -/
def gfPow (n : Nat) : Nat := (List.range n).foldl (fun a _ => gfMul a 2) 1

/-- P of a row: the exclusive-OR of its data pages. -/
def parityP (ds : List Nat) : Nat := ds.foldl (fun a d => a ^^^ d) 0
/-- Q of a row: the sum of 2^q times data page q, byte by byte. -/
def parityQ (ds : List Nat) : Nat :=
  (List.range 32768).foldr (fun i acc =>
    (List.range ds.length).foldl (fun s q => s ^^^ gfMul (gfPow q) (((ds[q]?).getD 0) / 256 ^ i % 256)) 0 + 256 * acc) 0

/-! ## Reclamation (R416, R417) -/

/-- START and URGENT as taken (R430). -/
def reclaimStart (M : Mdm) : Nat := max 2 M.start
def reclaimUrgent (M : Mdm) : Nat := if M.urgent = 0 then 1 else min M.urgent (reclaimStart M)

def modReclaim (id : Nat) (f : Reclaim → Reclaim) (h : Hw) : Hw :=
  modMdm (fun M => { M with reclaims := M.reclaims.map (fun r => if r.id = id then f r else r) }) h
def modDest (id sb : Nat) (f : Dest → Dest) (h : Hw) : Hw :=
  modReclaim id (fun r => { r with dests := r.dests.map (fun d => if d.sb = sb then f d else d) }) h
def reclaimOf (h : Hw) (id : Nat) : Option Reclaim := h.mdm.reclaims.find? (fun r => r.id = id)
def destOf (h : Hw) (id sb : Nat) : Option Dest := (reclaimOf h id).bind (fun r => r.dests.find? (fun d => d.sb = sb))

/-- A span has not been written for FOLD_S seconds (R409). -/
def spanIdle (h : Hw) (vol span : Nat) : Bool := decide (h.mdm.foldS * 100000000 ≤ now h - tgetD h.mdm.spanAt (vol * 2 ^ 32 + span) 0)

/-- What the victim still holds and the copy has not taken: (volume, logical block or list, 0 or page + 1, entry). -/
def leftIn (h : Hw) (r : Reclaim) : List (Nat × Nat × Nat × MapEnt) :=
  (mappedIn h.mdm.map r.victim).filter (fun x => !r.taken.contains (x.1, x.2.1, x.2.2.1))

/-- The next chunk of a copy (R417, R409): the two pages of a whole LOCATED span; of a nailed span whose 16 units all lie here and that is
idle; else up to 16 nailed units. -/
def nextChunk (h : Hw) (r : Reclaim) : Option (List (Option CopyUnit) × Bool) :=
  let left := (leftIn h r).filter (fun x => x.2.2.1 = 0)
  let cu := fun (x : Nat × Nat × Nat × MapEnt) => some ({ vol := x.1, lba := x.2.1, old := x.2.2.2 } : CopyUnit)
  let spanOf := fun (x : Nat × Nat × Nat × MapEnt) => left.filter (fun y => y.1 = x.1 && y.2.1 / 16 = x.2.1 / 16)
  let isNailed := fun (x : Nat × Nat × Nat × MapEnt) => match spanEnt h.mdm.map x.1 (x.2.1 / 16) with | .nailed _ => true | _ => false
  let foldable := fun (x : Nat × Nat × Nat × MapEnt) => isNailed x && (spanOf x).length = 16 && spanIdle h x.1 (x.2.1 / 16)
  match left with
  | [] => none
  | x :: _ =>
    if !isNailed x then some ((List.range 16).map (fun i => some { vol := x.1, lba := x.2.1 / 16 * 16 + i, old := unitEnt h.mdm.map x.1 (x.2.1 / 16 * 16 + i) }), true)
    else if foldable x then some ((spanOf x).map cu, false)
    else some (((left.filter (fun y => isNailed y && !foldable y)).take 16).map cu, false)

/-- A page's contents are given to a destination's data page. -/
def destPut (id sb j : Nat) (p : PageW) (h : Hw) : Hw :=
  let h := modReclaim id (fun r => if r.dests.any (fun d => d.sb = sb) then r else { r with dests := r.dests ++ [{ sb }] }) h
  modDest id sb (fun d => { d with pend := tput d.pend j p, since := if d.pend = [] then now h else d.since }) h

def takeCopy (h : Hw) : Option ((Nat × Nat) × Hw) := takePage (fun M => M.copy) (fun s M => { M with copy := s }) false true h

/-- A data page on a list page's channel (R407): in the landing zone on the mirror pair of its two channels, else on the member on its
channel in the lowest row where that is a data member holding no page yet. -/
def takeList (c : Nat) (zone : Bool) (h : Hw) : Option ((Nat × Nat) × Hw) :=
  let hh := c % 4 / 2
  match streamSb (if zone then h.mdm.lists else h.mdm.listCopy) hh zone h with
  | none => none
  | some (sb, h) =>
    match tget h.mdm.map.sbs sb with
    | none => none
    | some S =>
      let pos := 2 * (c / 4) + c % 2
      let on := fun (j : Nat) => (pagePlace S j).1.contains (if zone then pos % 16 else pos)
      let free := fun (j : Nat) => !S.used.contains j
      match ((List.range (sbPages S)).find? (fun j => free j && on j)).or ((List.range (sbPages S)).find? free) with
      | none => none
      | some j =>
        let put := fun (st : Stream) => if hh = 0 then { st with open0 := some sb } else { st with open1 := some sb }
        let set := fun (M : Mdm) => if zone then { M with lists := put M.lists } else { M with listCopy := put M.listCopy }
        some ((sb, j), modMdm set (usePages sb [j] h))

/-- A row's data pages are all given contents. -/
def rowFull (h : Hw) (d : Dest) : Option Nat :=
  match tget h.mdm.map.sbs d.sb with
  | none => none
  | some S =>
    let n := max 1 ((inSvc S).length - 2)
    (d.pend.map (fun (e : Nat × PageW) => e.1 / n)).find? (fun r => (List.range n).all (fun i => (tget d.pend (r * n + i)).isSome))

/-- A row's programs are queued (R404, R416): every member's page, the parity with them, in class C when urgent, else D. -/
def startRow (id sb r : Nat) (h : Hw) : Hw :=
  match reclaimOf h id, destOf h id sb, tget h.mdm.map.sbs sb with
  | some R, some d, some S =>
    let ms := inSvc S
    let dm := dataMembers S r
    let pages := (List.range dm.length).map (fun q => copyPage h (tgetD d.pend (r * dm.length + q) .void))
    let (pa, pb) := parityOf (max 1 ms.length) r
    let at_ := fun (i : Nat) => (ms[i]?).getD 0
    let ds := pages.map (fun (x : FPage) => x.data)
    let all := (List.range dm.length).map (fun q => ((dm[q]?).getD 0, (pages[q]?).getD { data := 0 }))
      ++ [(at_ pa, ({ data := parityP ds } : FPage)), (at_ pb, { data := parityQ ds })]
    let h := modDest id sb (fun d => { d with row := some r, done := [], failed := [] }) h
    all.foldl (fun (h : Hw) (x : Nat × FPage) =>
      let (dd, b) := memberAt h.mdm.map sb x.1
      if dieDead h dd then modDest id sb (fun d => { d with failed := d.failed ++ [x.1] }) h
      else flashQueue { id := 0, die := dd, cls := if R.urgent then 2 else 3, kind := .program, win := true, blk := b, page := r
                        data := x.2, owner := .row id sb, since := 0 } h) h
  | _, _, _ => h

/-- Take pages from the victim until a row of a destination is full, or nothing is left; then what is pending is made up with empty
pages. A list row waits for its void pages (R407). -/
def fillRows (id : Nat) : Nat → Hw → Hw
  | 0, h => h
  | k + 1, h =>
    match reclaimOf h id with
    | none => h
    | some r =>
      if r.dests.any (fun d => d.row.isSome) then h else
      match r.dests.findSome? (fun d => (rowFull h d).map (fun row => (d.sb, row))) with
      | some (sb, row) => startRow id sb row h
      | none =>
        match nextChunk h r with
        | some (us, whole) =>
          (match takeCopy h with
           | none => h
           | some ((sb, j), h) =>
             let h := modReclaim id (fun r => { r with taken := r.taken ++ us.filterMap (fun u => u.map (fun (x : CopyUnit) => (x.vol, x.lba, 0))) }) h
             fillRows id k (destPut id sb (j + 1) (.units (us.drop 8) whole) (destPut id sb j (.units (us.take 8) whole) h)))
        | none =>
          match (leftIn h r).find? (fun x => x.2.2.1 ≠ 0) with
          | some (v, l, p, e) =>
            (match takeList ((l + (p - 1)) % 64) false h with
             | none => h
             | some ((sb, j), h) =>
               fillRows id k (destPut id sb j (.list v l (p - 1) e) (modReclaim id (fun r => { r with taken := r.taken ++ [(v, l, p)] }) h)))
          | none =>
            let isList := fun (d : Dest) => d.pend.any (fun e => match e.2 with | .list _ _ _ _ => true | _ => false)
            match r.dests.find? (fun d => d.pend != [] && !isList d) with
            | none => h
            | some d =>
              (match tget h.mdm.map.sbs d.sb with
               | none => h
               | some S =>
                 let n := max 1 ((inSvc S).length - 2)
                 let row := (d.pend.head?.map (fun e => e.1 / n)).getD 0
                 let miss := ((List.range n).map (fun i => row * n + i)).filter (fun j => (tget d.pend j).isNone)
                 fillRows id k (miss.foldl (fun h j => destPut id d.sb j .void h) (usePages d.sb miss h)))

def fill (id : Nat) (h : Hw) : Hw := fillRows id 4096 h

/-- A copy of a victim begins. -/
def beginCopy (sb : Nat) (urgent : Bool) (h : Hw) : Hw :=
  if h.mdm.reclaims.any (fun r => r.victim = sb) then h else
  let id := h.mdm.nextId
  fill id (modMdm (fun M => { M with nextId := id + 1, reclaims := M.reclaims ++ [{ id, victim := sb, urgent }] }) h)

/-- RECLAIM_START (R416): a die set's free superblocks are below START. The victim: a superblock marked evict, fewest valid units first;
else its full 4-bit superblock with the fewest valid units; on a tie the lower number. -/
def reclaimBegin (s : Nat) (h : Hw) : Hw :=
  let M := h.mdm
  if reclaimStart M ≤ freeCount M.map s ∨ h.wdn.voteSplit then h else
  let mine := M.map.sbs.filter (fun e => e.1 / 7427 = s && e.2.st != 3 && !M.reclaims.any (fun r => r.victim = e.1))
  let best := fun (l : Tbl Sblk) => l.foldl (fun (b : Option (Nat × Nat)) (e : Nat × Sblk) =>
    let v := validUnits M.map e.1
    match b with
    | none => some (e.1, v)
    | some y => if v < y.2 then some (e.1, v) else b) none
  let v := (best (mine.filter (fun e => e.2.evict))).or (best (mine.filter (fun e => !e.2.zone && e.2.st = 2)))
  match v with
  | none => h
  | some (sb, _) => beginCopy sb (decide (freeCount M.map s < reclaimUrgent M)) h

/-- LZ_DESTAGE (R416): a full landing-zone superblock is copied to 4-bit form. -/
def destage (sb : Nat) (h : Hw) : Hw :=
  match tget h.mdm.map.sbs sb with
  | some S => if S.zone && decide (2 ≤ S.st) && !h.mdm.lzPages.any (fun p => p.sb = sb) && !h.wdn.voteSplit then beginCopy sb false h else h
  | none => h

/-- The journal records of a verified page (R417, R418): each unit's new place, to take effect only if its entry still points to what was
copied. -/
def pageRecs (sb j seq : Nat) : PageW → List JRec
  | .void => []
  | .list v l p old => [{ chg := .list v l p { n := 0, loc := .located false sb j 0, seq } (some old) }]
  | .units us whole =>
    match whole, us with
    | true, some u :: _ => [{ chg := .map u.vol u.lba 8 (.located false sb j 0) (some u.old) true }]
    | _, _ => (List.range 8).filterMap (fun i => match (us[i]?).getD none with
      | some u => some { chg := .map u.vol u.lba 1 (.located false sb j i) (some u.old) false }
      | none => none)

/-- A list page's record keeps its record count. -/
def keepCount (M : MapSt) (r : JRec) : JRec :=
  match r.chg with
  | .list v l p x o =>
    let old := ((tget M.vols v).bind (fun V => (tgetD V.dir l [])[p]?)).getD x
    { r with chg := .list v l p { x with n := old.n, seq := old.seq } o }
  | _ => r

/-- RECLAIM_ROW_VERIFY (R417): a row has been programmed and each of its pages is read back; `bad` lists the positions whose page does not
decode at the first tier. A verified row's units are journalled, and the copy goes on. -/
def rowVerify (id sb : Nat) (bad : List Nat) (h : Hw) : Hw :=
  match destOf h id sb, tget h.mdm.map.sbs sb with
  | some d, some S =>
    (match d.row with
     | none => h
     | some r =>
       if d.failed ≠ [] ∨ !(inSvc S).all (fun p => d.done.contains p) ∨ h.wdn.voteSplit then h
       else if bad ≠ [] then modDest id sb (fun d => { d with failed := bad, done := d.done.filter (fun p => !bad.contains p) }) h
       else
         let n := max 1 ((inSvc S).length - 2)
         let js := (List.range n).map (fun i => r * n + i)
         let recs := js.flatMap (fun j => pageRecs sb j h.mdm.jseq (tgetD d.pend j .void))
         let h := recs.foldl (fun h x => addRec (keepCount h.mdm.map x) h) h
         fill id (modDest id sb (fun d => { d with pend := d.pend.filter (fun e => !js.contains e.1), row := none, done := [] }) h))
  | _, _ => h

/-- A copied record still waits in the journal for a victim's units. -/
def pendingFrom (h : Hw) (sb : Nat) : Bool :=
  (h.mdm.journal.filter (fun P => h.mdm.jdone ≤ P.seq) ++ h.mdm.forming.toList).any (fun P => P.recs.any (fun r => match r.chg with
    | .map _ _ _ _ (some (.located _ s _ _)) _ => s == sb
    | .list _ _ _ _ (some (.located _ s _ _)) => s == sb
    | _ => false))

/-- A superblock returns to its die set's free list, and the copy is over (R417, R430). -/
def freeSb (id sb : Nat) (h : Hw) : Hw :=
  let n := satAdd 32 h.mdm.reclaimed 1
  let h := saturated 32 0xB0020 h.mdm.reclaimed n h
  modMdm (fun M => { M with reclaimed := n, reclaims := M.reclaims.filter (fun r => r.id ≠ id)
                            map := { M.map with sbs := tdel M.map.sbs sb } }) h

/-- VICTIM_ERASE (R417): the victim holds no valid unit and the records that moved its units are durable: its blocks are erased. -/
def victimErase (id : Nat) (h : Hw) : Hw :=
  match reclaimOf h id with
  | none => h
  | some r =>
    if r.erasing.isSome ∨ validUnits h.mdm.map r.victim ≠ 0 ∨ pendingFrom h r.victim ∨ r.dests.any (fun d => d.row.isSome) ∨ h.wdn.voteSplit then h else
    match tget h.mdm.map.sbs r.victim with
    | none => h
    | some S =>
      let reads := h.flash.ops.any (fun o => o.kind = .read && o.win && (inSvc S).any (fun p => memberAt h.mdm.map r.victim p = (o.die, o.blk)))
      if reads then h else
      let ps := (inSvc S).filter (fun p => !dieDead h (setDie (r.victim / 7427) p) && !owned h (setDie (r.victim / 7427) p))
      if ps = [] then freeSb id r.victim h else
      let h := modReclaim id (fun r => { r with erasing := some ps }) h
      ps.foldl (fun h p =>
        let (d, b) := memberAt h.mdm.map r.victim p
        flashQueue { id := 0, die := d, cls := if r.urgent then 2 else 3, kind := .erase, win := true, blk := b, owner := .victim id p, since := 0 } h) h

/-- A member of a victim has been erased, or its erase failed and its block is retired. -/
def victimErased (id pos : Nat) (h : Hw) : Hw :=
  match reclaimOf h id with
  | none => h
  | some r =>
    let left := (r.erasing.getD []).filter (fun p => p ≠ pos)
    if left = [] then freeSb id r.victim h else modReclaim id (fun r => { r with erasing := some left }) h

/-! ## Failures and substitutions (R419, R420) -/

/-- A block's pages before `upto` are written into a loose block at the same page numbers, and the member table changed. -/
def substitute (sb pos new upto : Nat) (h : Hw) : Hw :=
  let (d, old) := memberAt h.mdm.map sb pos
  let B := blk h d (physOf (die h d) old)
  let zone := ((tget h.mdm.map.sbs sb).map (fun S => S.zone)).getD false
  let pages := B.pages.filter (fun e => decide (e.1 < upto))
  let st := if pages = [] then 0 else if upto = blkPages zone then 2 else 1
  let h := modBlk d (physOf (die h d) new) (fun N => { N with st, pslc := zone, next := upto, pages, since := B.since }) h
  modMap (fun M => { M with sbs := match tget M.sbs sb with
    | some S => tput M.sbs sb { S with members := tput S.members pos new }
    | none => M.sbs }) h

/-- A superblock is marked evict and takes no more pages. -/
def evictSb (sb : Nat) (h : Hw) : Hw :=
  modMap (fun M => { M with sbs := match tget M.sbs sb with | some S => tput M.sbs sb { S with st := max 2 S.st, evict := true } | none => M.sbs }) h

/-- ROW_PROGRAM_FAIL (R419): a program of a destination row failed. The failed block goes onto the grown-defect list, a loose block of its die
takes its place with the earlier pages, and the page is programmed again. With no loose block the destination closes after its last
verified row, its failed row is void, it is marked evict, and the row's units are copied again elsewhere. -/
def rowFail (id sb : Nat) (h : Hw) : Hw :=
  match destOf h id sb with
  | some d =>
    (match d.row, d.failed with
     | some r, pos :: rest =>
       let (dd, b) := memberAt h.mdm.map sb pos
       let h := if dieDead h dd then h else growDefect dd (physOf (die h dd) b) h
       (match (if dieOut h dd then none else looseBlock h dd) with
        | some new =>
          let h := substitute sb pos new r h
          let h := modDest id sb (fun d => { d with failed := rest }) h
          (match tget h.mdm.map.sbs sb with
           | none => h
           | some S =>
             let dm := dataMembers S r
             let ds := (List.range dm.length).map (fun q => copyPage h (tgetD d.pend (r * dm.length + q) .void))
             let x : FPage := match dm.findIdx? (fun p => p == pos) with
               | some q => (ds[q]?).getD { data := 0 }
               | none => let n := ds.map (fun (y : FPage) => y.data)
                         if (inSvc S)[(parityOf (max 1 (inSvc S).length) r).1]? = some pos then { data := parityP n } else { data := parityQ n }
             let urgent := ((reclaimOf h id).map (fun R => R.urgent)).getD false
             flashQueue { id := 0, die := dd, cls := if urgent then 2 else 3, kind := .program, win := true, blk := new, page := r
                          data := x, owner := .row id sb, since := 0 } h)
        | none =>
          let keys := d.pend.flatMap (fun (e : Nat × PageW) => match e.2 with
            | .units us _ => us.filterMap (fun u => u.map (fun (x : CopyUnit) => (x.vol, x.lba, 0)))
            | .list v l p _ => [(v, l, p + 1)]
            | .void => [])
          let voids := d.pend.map (fun (e : Nat × PageW) => e.1)
          let h := modMap (fun M => { M with sbs := match tget M.sbs sb with
            | some S => tput M.sbs sb { S with voids := S.voids ++ voids }
            | none => M.sbs }) h
          let h := modFlash (fun F => { F with ops := F.ops.filter (fun o => !(o.owner == .row id sb && o.waits)) }) h
          fill id (modReclaim id (fun R => { R with dests := R.dests.filter (fun x => x.sb ≠ sb)
                                                    taken := R.taken.filter (fun t => !keys.contains t) }) (evictSb sb h)))
     | _, _ => h)
  | none => h

/-- The superblock and position a logical block of a die serves. -/
def memberOf (M : MapSt) (d b : Nat) : Option (Nat × Nat) :=
  let (s, pos) := dieSet d
  (M.sbs.find? (fun e => e.1 / 7427 = s && e.2.st != 3 && e.2.inSvc.getLsbD pos && (memberAt M e.1 pos).2 = b)).map (fun e => (e.1, pos))

/-- MEMBER_SUBSTITUTION (R420; 16 R435): the block that a wear-window move empties, or a block that passed a retirement limit, gives its
pages to a loose block of the same die. A block past the refresh limit is erased and becomes loose; one past the retire limit goes onto
the grown-defect list. -/
def memberSubstitution (d b : Nat) (h : Hw) : Hw :=
  let p := physOf (die h d) b
  let B := blk h d p
  let moving := (die h d).moving == some b
  if (!moving && B.limit = 0) || B.st = 1 || dieOut h d || h.wdn.voteSplit then h else
  match memberOf h.mdm.map d b, looseBlock h d with
  | some (sb, pos), some new =>
    let h := substitute sb pos new B.next h
    if B.limit = 2 then growDefect d p h
    else if B.limit = 1 then
      flashQueue { id := 0, die := d, cls := 3, kind := .erase, win := false, blk := p, owner := .spare, since := 0 }
        (modBlk d p (fun B => { B with refreshedAt := some B.wear }) h)
    else h
  | _, _ => h

/-- Every superblock with a member on a die is marked evict (R421), and spare space is judged again (R424). -/
def evictDie (d : Nat) (h : Hw) : Hw :=
  let (s, pos) := dieSet d
  spareWatch (modMap (fun M => { M with sbs := M.sbs.map (fun e =>
    if e.1 / 7427 = s && e.2.inSvc.getLsbD pos && e.2.st != 3 then (e.1, { e.2 with st := max 2 e.2.st, evict := true }) else e) }) h)

/-- DIE_REBUILD (R421): before a die returns to service every superblock that still has a member on it is reclaimed; then its pool blocks
are erased. -/
def dieRebuild (d : Nat) (h : Hw) : Hw :=
  if !(die h d).rebuild || owned h d || dieDead h d || h.wdn.voteSplit then h else
  let (s, pos) := dieSet d
  match h.mdm.map.sbs.find? (fun e => e.1 / 7427 = s && e.2.inSvc.getLsbD pos && e.2.st != 3 && !h.mdm.reclaims.any (fun r => r.victim = e.1)) with
  | some e => beginCopy e.1 false h
  | none =>
    if h.mdm.map.sbs.any (fun e => e.1 / 7427 = s && e.2.inSvc.getLsbD pos && e.2.st != 3) then h else
    modDie d (fun D => { D with rebuild := false, blks := D.blks.map (fun e =>
      match logicalBlk D e.1 with
      | some b => if 24 ≤ b && !e.2.retired && e.2.st != 0 then (e.1, eraseDone e.2 true) else e
      | none => e) }) h

/-! ## Folding and list rows (R407, R409) -/

/-- NAIL_FOLD (R409): a nailed span that a copy has moved whole and that is idle becomes LOCATED. -/
def nailFold (vol span : Nat) (h : Hw) : Hw :=
  match spanEnt h.mdm.map vol span with
  | .nailed t =>
    if spanIdle h vol span && ((tget h.mdm.map.nails t).bind chunkOf).isSome && !h.wdn.voteSplit then addRec { chg := .fold vol span } h else h
  | _ => h

/-- Bytes of nail-mapped data. -/
def nailBytes (M : MapSt) : Nat :=
  4096 * M.nails.foldl (fun n e => n + (e.2.ents.filter (fun x => x.2 != .unmapped)).length) 0

/-- NAIL_BUDGET_FOLD (R409): nail-mapped data exceeds the budget; the span written least recently is rewritten whole into the landing
zone. -/
def budgetFold (h : Hw) : Hw :=
  let M := h.mdm
  if nailBytes M.map ≤ min 2000 M.budget * 1000000000 ∨ h.wdn.voteSplit then h else
  let oldest := M.map.nails.foldl (fun (b : Option (Nat × Nail)) (e : Nat × Nail) =>
    let t := fun (N : Nail) => tgetD M.spanAt (N.vol * 2 ^ 32 + N.span) 0
    match b with
    | none => some e
    | some y => if t e.2 < t y.2 then some e else b) none
  match oldest with
  | none => h
  | some (_, N) =>
    match takeLz true h with
    | none => h
    | some ((sb, j), h) =>
      let h := modMdm (fun M => { M with lz := { M.lz with half := none } }) h
      let us := (List.range 16).map (fun i => ({ vol := N.vol, lba := 16 * N.span + i, old := unitEnt h.mdm.map N.vol (16 * N.span + i) } : CopyUnit))
      let page := fun (k : Nat) (h : Hw) =>
        let l := (us.drop (8 * k)).take 8
        let recs := (List.range l.length).map (fun i =>
          let u := (l[i]?).getD { vol := 0, lba := 0, old := .unmapped }
          ({ chg := .map u.vol u.lba 1 (.located true sb (j + k) i) (some u.old) true } : JRec))
        lzWrite sb (j + k) (copyPage h (.units (l.map some) true)).data recs h
      page 1 (page 0 h)

/-- VOID_PAGE_FILL (R407): a list row that has not received all its pages within 10 ms, or whose copy has nothing left to bring, is completed
with void pages. -/
def voidFill (id sb : Nat) (h : Hw) : Hw :=
  match reclaimOf h id, destOf h id sb, tget h.mdm.map.sbs sb with
  | some R, some d, some S =>
    if d.row.isSome ∨ d.pend = [] ∨ (now h - d.since < 1000000 ∧ leftIn h R ≠ []) then h else
    let n := max 1 ((inSvc S).length - 2)
    let row := (d.pend.head?.map (fun e => e.1 / n)).getD 0
    let miss := ((List.range n).map (fun i => row * n + i)).filter (fun j => (tget d.pend j).isNone)
    let h := modMap (fun M => { M with sbs := tput M.sbs sb { S with voids := S.voids ++ miss } }) (usePages sb miss h)
    fill id (miss.foldl (fun h j => destPut id sb j .void h) h)
  | _, _, _ => h

/-! ## The wear window (14 R380 to R382) -/

/-- PERIOD as taken: none stops the window (14 R397). -/
def wwPeriod (L : Landing) : Option Nat := if L.period = 0 then none else some (if L.period < 256 then 256 else L.period)

/-- An erase counts toward the die's next advance (R380). -/
def countErase (d : Nat) (h : Hw) : Hw :=
  match wwPeriod (landing h (d / 32)) with
  | none => h
  | some p => modDie d (fun D => if p ≤ D.erases + 1 then { D with erases := 0, due := D.due + 1 } else { D with erases := D.erases + 1 }) h

/-- WEAR_WINDOW_ADVANCE (R380, R382): an advance is due; the landing names the moving block, which must not be OPEN, and erases the gap
block when it is neither retired nor ERASED. -/
def wwAdvance (d : Nat) (h : Hw) : Hw :=
  let D := die h d
  if D.due = 0 ∨ D.moving.isSome ∨ dieDead h d then h else
  let p := if D.gap = 0 then 7451 else D.gap - 1
  match logicalBlk D p with
  | none => h
  | some b =>
    if (blk h d p).st = 1 then h else
    let G := blk h d D.gap
    let h := modDie d (fun D => { D with moving := some b, due := D.due - 1 }) h
    if G.retired || G.st = 0 then h else
    flashQueue { id := 0, die := d, cls := 3, kind := .erase, win := false, blk := D.gap, owner := .spare, since := 0 } h

/-- WEAR_WINDOW_COMMIT (R380, R381): the moving block is empty and the gap block erased or retired; the new state is committed. -/
def wwCommit (d : Nat) (h : Hw) : Hw :=
  let D := die h d
  match D.moving with
  | none => h
  | some b =>
    let G := blk h d D.gap
    if blockUsed h.mdm.map d b || !(G.retired || G.st = 0) then h else
    modDie d (fun D => if D.gap = 0 then { D with gap := 7451, offset := (D.offset + 1) % 7451, moving := none }
      else { D with gap := D.gap - 1, moving := none }) h

/-! ## Read-only retirement (R425) -/

/-- READ_ONLY_ENTRY (R425): spare is not positive and a WRITE needs landing-zone space: it fails, and the module enters read-only
retirement for good. -/
def readOnlyEntry (h : Hw) : Hw :=
  let needy := h.mdm.writes.filter (fun w => !w.trim && decide (w.placed < w.n))
  let appends := h.probe.scans.any (fun s => s.kind = 3 && !s.ended)
  if 0 < spare h ∨ h.mdm.readOnly ∨ (needy = [] ∧ !appends) then h else
  let h := setMdmEvt 2 (modMdm (fun M => { M with readOnly := true }) h)
  needy.foldl (fun h w => match h.host.cmds.find? (fun c => c.id = w.cmd) with
    | some c => endWrite w c stCapacity h
    | none => h) h

/-! ## Sanitize (R426 to R428) -/

/-- The dies in service that a sanitize erases. -/
def sanDies (h : Hw) : List Nat := (List.range 512).filter (fun d => !dieDead h d)

/-- Everything the map held is gone: volumes keep their descriptors (R428). -/
def wipedMap (M : MapSt) : MapSt :=
  { vols := M.vols.map (fun e => (e.1, { e.2 with spans := [], dir := [], tombs := [] })) }

/-- SANITIZE_PHASE1 (R427): a die's pool and system blocks outside the retained set are erased; `bad` lists physical blocks whose erase
fails, which are retired. After the last die the map, journal, checkpoints, directories and tombstones are gone. -/
def sanPhase1 (d : Nat) (bad : List Nat) (h : Hw) : Hw :=
  let S := h.mdm.san
  if S.state ≠ 1 ∨ !S.durable ∨ S.dies.contains d ∨ dieDead h d then h else
  let h := modDie d (fun D => { D with blks := D.blks.map (fun e => (e.1, eraseDone e.2 (!bad.contains e.1))) }) h
  let h := bad.foldl (fun h p => growDefect d p h) h
  let dies := d :: S.dies
  let h := modMdm (fun M => { M with san := { M.san with dies } }) h
  if (sanDies h).all (fun x => dies.contains x) then
    modFlash (fun F => { F with ops := [], landings := F.landings.map (fun e => (e.1, { e.2 with buf := [] })) })
      (modMdm (fun M => { M with
        san := { M.san with state := 2, dies := [], recorded := [] }
        map := wipedMap M.map
        journal := []
        forming := none
        ckptA := none
        ckptB := none
        gen := 0
        jseq := 0
        jdone := 0
        lz := {}
        copy := {}
        lists := {}
        listCopy := {}
        lzPages := []
        reclaims := []
        spanAt := [] }) h)
  else h

/-- SANITIZE_PHASE2 (R427): the retained set is written into erased blocks and verified, the boot record moves to it, and the old blocks are
erased. -/
def sanPhase2 (h : Hw) : Hw :=
  if h.mdm.san.state ≠ 2 then h else modMdm (fun M => { M with san := { M.san with dies := List.range 512 } }) h

/-- SANITIZE_PROGRESS (R427): progress per die is recorded in the sanitize record. -/
def sanProgress (h : Hw) : Hw :=
  if h.mdm.san.durable then modMdm (fun M => { M with san := { M.san with recorded := M.san.dies } }) h else h

/-- SANITIZE_END (R428): commands are accepted again; the event is raised once. -/
def sanEnd (h : Hw) : Hw :=
  if h.mdm.san.state ≠ 2 ∨ h.mdm.san.dies = [] then h else
  setMdmEvt 3 { modMdm (fun M => { M with san := { state := 3 } }) h with host := { h.host with sanitize := false } }

/-! ## Hours (R429) -/

/-- A temperature's bin (R429), from 1/16 °C. -/
def tempBin (t : Int) : Nat := if t < 0 then 0 else min 23 (t.toNat / 80 + 1)

/-- POWER_ON_HOUR (R429): each whole hour of AON time counts, and each sensor's bin. -/
def powerOnHour (h : Hw) : Hw :=
  if now h < (h.mdm.hourMark + 1) * 360000000000 then h else
  let h := countUp 40 1 (fun M => M.hours) (fun v M => { M with hours := v }) h
  modMdm (fun M => { M with
    hourMark := M.hourMark + 1
    temps := h.wdn.sensors.foldl (fun (t : Tbl Nat) (s : Nat × Int) =>
      let k := 24 * s.1 + tempBin s.2
      tput t k (satAdd 32 (tgetD t k 0) 1)) M.temps }) h

def execReclaimStart (k : Nat) (s : State) : Host.Outcome State Fault Refusal := act (decide (k < 16)) (reclaimBegin k) s
def execLzDestage (sb : Nat) (s : State) : Host.Outcome State Fault Refusal := act (decide (sb < 118832)) (destage sb) s
def execReclaimRowVerify (id sb : Nat) (bad : List Nat) (s : State) : Host.Outcome State Fault Refusal := act true (rowVerify id sb bad) s
def execVictimErase (id : Nat) (s : State) : Host.Outcome State Fault Refusal := act true (victimErase id) s
def execRowProgramFail (id sb : Nat) (s : State) : Host.Outcome State Fault Refusal := act true (rowFail id sb) s
def execMemberSubstitution (d b : Nat) (s : State) : Host.Outcome State Fault Refusal :=
  act (decide (d < 512) && decide (b < 7451)) (memberSubstitution d b) s
def execDieRebuild (d : Nat) (s : State) : Host.Outcome State Fault Refusal := act (decide (d < 512)) (dieRebuild d) s
def execNailFold (vol span : Nat) (s : State) : Host.Outcome State Fault Refusal := act true (nailFold vol span) s
def execNailBudgetFold (s : State) : Host.Outcome State Fault Refusal := act true budgetFold s
def execVoidPageFill (id sb : Nat) (s : State) : Host.Outcome State Fault Refusal := act true (voidFill id sb) s
def execWearWindowAdvance (d : Nat) (s : State) : Host.Outcome State Fault Refusal := act (decide (d < 512)) (wwAdvance d) s
def execWearWindowCommit (d : Nat) (s : State) : Host.Outcome State Fault Refusal := act (decide (d < 512)) (wwCommit d) s
def execReadOnlyEntry (s : State) : Host.Outcome State Fault Refusal := act true readOnlyEntry s
def execSanitizePhase1 (d : Nat) (bad : List Nat) (s : State) : Host.Outcome State Fault Refusal := act (decide (d < 512)) (sanPhase1 d bad) s
def execSanitizePhase2 (s : State) : Host.Outcome State Fault Refusal := act true sanPhase2 s
def execSanitizeProgress (s : State) : Host.Outcome State Fault Refusal := act true sanProgress s
def execSanitizeEnd (s : State) : Host.Outcome State Fault Refusal := act true sanEnd s
def execPowerOnHour (s : State) : Host.Outcome State Fault Refusal := act true powerOnHour s

end Sys2Proof.Machine
end

