-- ==== Sys2Proof/Machine/Media.lean ====
section
/-!
DEFINITION. Reading units of volumes (14 R375, R377; 15 R408, R421; 13 R353), and what an operation on a die brings its owner
(14 R388, R391 to R393; 15 R410, R417; 16 R432 to R435; 18 R478).
-/
namespace Sys2Proof.Machine

/-- A unit that has arrived for its LDA, or cannot be read. -/
def ldaUnit (th : Thr) (seq i : Nat) (x : Option Nat) (h : Hw) : Hw :=
  modThr h th (fun T => { T with lda := T.lda.map (fun l => if l.seq = seq && l.done.isNone then
    (match x with
     | some d => { l with units := tput l.units i d }
     | none => { l with units := tput l.units i 0, bad := true }) else l) })

/-- A READ goes on (18 R478): it completes when every unit has arrived, or when every unit before the first that cannot be read has. -/
def readStep (cmd : Nat) (h : Hw) : Hw :=
  match h.host.cmds.find? (fun c => c.id = cmd && c.comp.isNone) with
  | none => h
  | some c =>
    let n := c.fld 32 4
    let good := ((List.range n).takeWhile (fun i => (tget c.chunks i).isSome)).length
    let data := (List.range good).foldr (fun i a => tgetD c.chunks i 0 + 256 ^ 4096 * a) 0
    if good = n then
      finishCmd cmd { status := stOk, result := 0xFFFFFFFF }
        (countUp 8 n (fun M => M.unitsRead) (fun v M => { M with unitsRead := v }) (hostWrite c.addr (4096 * n) data h))
    else if c.bads.contains good then
      finishCmd cmd { status := stUncorrectable, result := good }
        (countUp 8 good (fun M => M.unitsRead) (fun v M => { M with unitsRead := v }) (hostWrite c.addr (4096 * good) data h))
    else h

/-- A unit of a READ has arrived, or cannot be read. -/
def readUnit (cmd i : Nat) (x : Option Nat) (h : Hw) : Hw :=
  readStep cmd (modCmd cmd (fun c => match x with
    | some d => { c with chunks := tput c.chunks i d }
    | none => { c with bads := c.bads ++ [i] }) h)

/-- A page of a scan has left the dies. -/
def scanPage (id page : Nat) (x : Option Nat) (h : Hw) : Hw :=
  { h with probe := { h.probe with scans := h.probe.scans.map (fun s => if s.id = id then { s with arrived := s.arrived ++ [(page, x)] } else s) } }

/-! ## RAW_FLASH (18 R479; 14 R391 to R393) -/

/-- A page as it is stored: each codeword's 16 sectors of 256 data bytes and 16 local check bytes, then 256 global check bytes (16
R431). -/
def rawPage (data : Nat) : Nat :=
  (List.range 8).foldr (fun c acc =>
    let d := data / 256 ^ (4096 * c) % 256 ^ 4096
    let k := Config.ldpcCheck d
    let body := (List.range 16).foldr (fun s a =>
      d / 256 ^ (256 * s) % 256 ^ 256 + 256 ^ 256 * (k / 256 ^ (16 * s) % 256 ^ 16) + 256 ^ 272 * a) 0
    body + 256 ^ 4352 * (k / 256 ^ 256 % 256 ^ 256) + 256 ^ 4608 * acc) 0

/-- A RAW_FLASH read ends: the bytes asked for go to the host, of the decoded page or of its stored form. -/
def rawReadEnd (cmd status : Nat) (page : Nat) (h : Hw) : Hw :=
  match h.host.cmds.find? (fun c => c.id = cmd) with
  | none => h
  | some c =>
    let off := c.fld 36 4
    let n := c.fld 40 4
    endCmd cmd status (hostWrite c.addr n (page / 256 ^ off % 256 ^ n) h)

/-! ## Asking for units -/

/-- Ask the dies for a located unit (R375, R421): a unit of a 4-bit page on a die out of service is reconstructed; one of the landing zone
is read from a copy in service. -/
def readEnt (e : MapEnt) (cws : List Nat) (cls : Nat) (o : FOwner) (h : Hw) : Hw :=
  match e with
  | .located _ sb pg _ =>
    let cs := pageCopies h.mdm.map sb pg
    let ask := fun (x : Nat × Nat × Nat) (st : FSt) =>
      flashQueue { id := 0, die := x.1, cls, kind := .read, win := true, blk := x.2.1, page := x.2.2, cws, fails := if st = .tier3 then cws else []
                   owner := o, since := 0, st } h
    match cs.find? (fun x => !dieOut h x.1), cs with
    | some x, _ => ask x .queued
    | none, x :: _ => ask x .tier3
    | none, [] => h
  | _ => h

/-- What a read's owner gets: the page's data (or stored form) when it was decoded, none when it cannot be. -/
def giveRead (o : FOp) (page : Option Nat) (h : Hw) : Hw :=
  let cw := (o.cws.head?).getD 0
  let unit := page.map (fun p => p / 256 ^ (4096 * cw) % 256 ^ 4096)
  match o.owner with
  | .unit cmd i => readUnit cmd i unit h
  | .lda th seq i => ldaUnit th seq i unit h
  | .pref vol lba => match unit with
    | some d =>
      let here : Bool := match unitEnt h.mdm.map vol lba with
        | .located _ sb pg u => u == cw && (pageCopies h.mdm.map sb pg).contains (o.die, o.blk, o.page)
        | _ => false
      if here then bufPut (o.die / 32) { vol, lba, data := d, since := now h } h else h
    | none => h
  | .scan id p => scanPage id p (if o.cws.length = 1 then unit else page) h
  | .raw cmd => match page with
    | some p => rawReadEnd cmd stOk p h
    | none => endCmd cmd stUncorrectable h
  | _ => h

/-- Read `n` units of a volume from a logical block: an unmapped unit holds zeros, a unit in a read buffer takes no channel time (R377),
every other is asked of its die in class A. An INDEX volume's bytes are not laid out for programs: their value is open (log 38). -/
def volumeReads (vol lba n : Nat) (o : Nat → FOwner) (h : Hw) : Hw :=
  (List.range n).foldl (fun h i =>
    let give := fun (d : Nat) (h : Hw) => giveRead { id := 0, die := 0, cls := 0, kind := .read, win := true, blk := 0, cws := [0], owner := o i, since := 0 } (some d) h
    let isLda := match o i with | .lda _ _ _ => true | _ => false
    match volume h vol with
    | none => let (v, h) := freeVal 32768 h; give v.toNat h
    | some V =>
      if V.ty = 1 then let (v, h) := freeVal 32768 h; give v.toNat h else
      match (if isLda then bufFind h vol (lba + i) else none) with
      | some b => give b.data (bufDrop vol (lba + i) 1 h)
      | none =>
        match unitEnt h.mdm.map vol (lba + i) with
        | .located z sb pg u => readEnt (.located z sb pg u) [u] 0 (o i) h
        | _ => give 0 h) h

/-! ## Programs and erases that end -/

/-- A program's owner learns its end; `st` is 0 when it succeeded. -/
def giveProgram (o : FOp) (st : Nat) (h : Hw) : Hw :=
  match o.owner with
  | .lz id k => modMdm (fun M => { M with lzPages := M.lzPages.map (fun p => if p.id = id then { p with copies := p.copies.set k (if st = 0 then 1 else 2) } else p) }) h
  | .row id sb =>
    let pos := (dieSet o.die).2
    modDest id sb (fun d => if st = 0 then { d with done := d.done ++ [pos] } else { d with failed := d.failed ++ [pos] }) h
  | .raw cmd => endCmd cmd st h
  | _ => h

/-- An erase's owner learns its end; a block whose erase failed is retired (R388). -/
def giveErase (o : FOp) (ok : Bool) (p : Nat) (h : Hw) : Hw :=
  match o.owner with
  | .victim id pos => victimErased id pos (if ok then h else growDefect o.die p h)
  | .raw cmd => endCmd cmd (if ok then stOk else 0xAC) h
  | _ => if ok then h else growDefect o.die p h

/-- An operation outstanding at a die that is lost ends as failed (14 R371, 21 R541): a read goes to the third tier, a copy or a page is
programmed elsewhere. -/
def opLost (o : FOp) (h : Hw) : Hw :=
  match o.kind, o.owner with
  | .read, .unit _ _ => modOp o.id (fun o => { o with st := .tier3, fails := o.cws }) h
  | .read, .lda _ _ _ => modOp o.id (fun o => { o with st := .tier3, fails := o.cws }) h
  | .read, .scan _ _ => modOp o.id (fun o => { o with st := .tier3, fails := o.cws }) h
  | .read, .raw cmd => dropOp o.id (endCmd cmd stUncorrectable h)
  | .read, _ => dropOp o.id h
  | .program, _ => giveProgram o 0xAB (dropOp o.id h)
  | .erase, .raw cmd => dropOp o.id (endCmd cmd 0xAC h)
  | .erase, .victim id pos => victimErased id pos (dropOp o.id h)
  | .erase, _ => dropOp o.id h

/-- Every operation at a die ends as failed; its superblocks are marked evict (R421). -/
def dieGone (d : Nat) (h : Hw) : Hw :=
  let ops := h.flash.ops.filter (fun o => o.die = d && o.st != .tier3)
  evictDie d (ops.foldl (fun h o => opLost o h) h)

/-- CHANNEL_GRANT (R367, R375, R388): the controller serves the next operation of its channel. A program is checked before it asks for
grains, and its pulse starts only when they are held. -/
def channelGrant (c : Nat) (h : Hw) : Hw :=
  match channelNext h c with
  | none => h
  | some o =>
    let h := countGrant c o.cls h
    match o.kind with
    | .read => opStart o h
    | .erase => if pulseGranted h o then opStart o h else askPulse o h
    | .program =>
      match progCheck (blk h o.die (opPhys h o)) o.page o.pslc with
      | some st => giveProgram o st (releasePulse o.die .program (dropOp o.id h))
      | none => if pulseGranted h o then opStart o h else askPulse o h

/-- The log address of a codeword (16 R442). -/
def flashAddr (d p page cw : Nat) : Nat := d / 8 + d % 8 * 2 ^ 6 + p * 2 ^ 9 + page * 2 ^ 22 + cw * 2 ^ 34

/-- REFRESH_T2 and RETIRE_T2 as taken (16 R447). -/
def refreshT2 (h : Hw) : Nat := max 1 h.diu.refreshT2
def retireT2 (h : Hw) : Nat := max (refreshT2 h) h.diu.retireT2

/-- A block's decodes are judged against its limits (16 R435). -/
def judgeBlk (h : Hw) (rereads : Nat) (B : Blk) : Blk :=
  let refresh := decide (3 ≤ rereads) || decide (refreshT2 h ≤ B.t2)
  let again := match B.refreshedAt with | some w => decide (B.wear < w + 3000) | none => false
  let retire := decide (2 ≤ B.t3) || decide (retireT2 h ≤ B.t2) || (refresh && again)
  { B with limit := if retire then 2 else if refresh then max 1 B.limit else B.limit }

/-- A read that needs no further tier ends. -/
def readOk (o : FOp) (x : FPage) (h : Hw) : Hw := giveRead o (some x.data) (dropOp o.id h)

/-- What a read gets from the page it was aimed at; a probe read that fails the first tier is re-read at the base offsets (R384). No data at or beyond INDET_FROM (R389); a page that was never programmed has contents
the manual does not state (log 39). -/
def readPage (o : FOp) (errs : List (Option Nat)) (h : Hw) : Hw :=
  let p := opPhys h o
  let B := blk h o.die p
  let errOf := fun (c : Nat) => (errs[c]?).getD none
  let raw : Option Cmd := match o.owner with | .raw cmd => h.host.cmds.find? (fun c => c.id = cmd) | _ => none
  let rawOp := (raw.map (fun c => c.fld 24 1)).getD 1
  let forced : Bool := match raw with | some c => (c.fld 27 1).testBit 1 | none => false
  let (x, h) : FPage × Hw := match tget B.pages o.page with
    | some x => (x, h)
    | none => let (v, h) := freeVal 262144 h; ({ data := v.toNat }, h)
  let h := if rawOp = 2 ∨ rawOp = 3 ∨ o.again then h else calCount o (o.cws.map (fun c => if x.bad.contains c then none else errOf c)) h
  if (rawOp = 2 ∨ rawOp = 3) ∧ !indeterminate B o.page then
    let (v, h) := freeVal 294912 h
    let clean := o.cws.all (fun c => errOf c == some 0)
    (match o.owner with
     | .raw cmd => rawReadEnd cmd stOk (if clean then rawPage x.data else v.toNat) (dropOp o.id h)
     | _ => h)
  else if indeterminate B o.page then
    (match o.owner with
     | .raw cmd =>
       if forced ∧ rawOp = 1 then let (v, h) := freeVal 262144 h; rawReadEnd cmd 0xAD v.toNat (dropOp o.id h)
       else endCmd cmd 0xAD (dropOp o.id h)
     | _ => giveRead o none (dropOp o.id h))
  else
    let fails := o.cws.filter (fun c => x.bad.contains c || errOf c == none)
    let fixed := (o.cws.filter (fun c => match errOf c with | some (_ + 1) => true | _ => false)).length
    let h := healthError 0 fixed h
    if fails = [] then readOk o x h
    else if o.probe then modOp o.id (fun o => { o with st := .queued, probe := false, again := true }) h
    else modOp o.id (fun o => { o with st := .tier2 0, fails }) h

/-- FLASH_READ_DONE (R378; 16 R432): a page read on a plane completes; one tR serves every read of that page that waits. `errs` gives, for
each codeword, the bits the first tier corrected, none where it fails. -/
def flashReadDone (d plane : Nat) (errs : List (Option Nat)) (h : Hw) : Hw :=
  match h.flash.ops.find? (fun o => o.die = d && o.kind = .read && opPhys h o % 4 = plane && o.isRunning) with
  | none => h
  | some o =>
    let same := h.flash.ops.filter (fun x => x.die = d && x.kind = .read && x.id != o.id && x.waits && x.page = o.page && opPhys h x = opPhys h o
      && !ownLevels h o && !ownLevels h x)
    let h := lndSend (d / 32) true 1 (29 * o.cws.length) (lndSend (d / 32) true 0 1 h)
    (o :: same).foldl (fun h x =>
      let x := if x.id = o.id then x else { x with group := o.group, ver := o.ver, probe := o.probe, again := o.again, pslc := o.pslc }
      readPage x errs (modOp x.id (fun _ => x) h)) h

/-- TIER2_REREAD (16 R432, R435): a soft-decision re-read completes; decoding is tried from the second on, and `left` lists the codewords
that still fail. After four, the codeword is reconstructed; a RAW_FLASH read ends. -/
def tier2 (id : Nat) (left : List Nat) (h : Hw) : Hw :=
  match flashOp h id with
  | some o =>
    (match o.st with
     | .tier2 n =>
       let p := opPhys h o
       let x : FPage := tgetD (blk h o.die p).pages o.page { data := 0 }
       let fails := if n = 0 then o.fails else o.fails.filter (fun c => left.contains c || x.bad.contains c)
       let fixed := o.fails.filter (fun c => !fails.contains c)
       let h := fixed.foldl (fun h c => healthError 1 1 (logEvent 5 (flashAddr o.die p o.page c) false h)) h
       let h := if fixed = [] then h else modBlk o.die p (fun B => judgeBlk h (n + 1) { B with t2 := B.t2 + fixed.length }) h
       if fails = [] then readOk o x h
       else if n + 1 < 4 then modOp id (fun o => { o with st := .tier2 (n + 1), fails }) h
       else match o.owner with
         | .raw cmd => endCmd cmd stUncorrectable (setDiuEvt 0 (dropOp id h))
         | .calib _ => dropOp id h
         | .pref _ _ => dropOp id h
         | _ => modOp id (fun o => { o with st := .tier3, fails }) h
     | _ => h)
  | none => h

/-- TIER3_RECONSTRUCT (16 R433, R435; 15 R411): the codewords are rebuilt from the row, or read from the mirror. `bad` lists the row's other
positions whose codeword fails (any, for the mirror), `ok` whether the result passes the global check. -/
def tier3 (id : Nat) (bad : List Nat) (ok : Bool) (h : Hw) : Hw :=
  match flashOp h id with
  | some o =>
    if o.st != .tier3 then h else
    let p := opPhys h o
    let (s, pos) := dieSet o.die
    let log := logicalBlk (die h o.die) p
    let sb := log.bind (fun b => memberOf h.mdm.map o.die b)
    let x := match sb with
      | some (k, _) => match (tget h.mdm.map.sbs k).bind (fun S =>
          (if S.zone then [pos, (pos + 16) % 32] else [pos]).findSome? (fun q => flashPage h (setDie s q) (memberAt h.mdm.map k q).2 o.page)) with
        | some x => x
        | none => { data := 0, bad := o.cws }
      | none => { data := 0, bad := o.cws }
    let fine := match sb.bind (fun k => tget h.mdm.map.sbs k.1) with
      | none => false
      | some S =>
        if S.zone then bad = [] && !dieDead h (setDie s ((pos + 16) % 32)) && S.inSvc.getLsbD ((pos + 16) % 32)
        else
          let out := (inSvc S).filter (fun q => q ≠ pos && (bad.contains q || dieOut h (setDie s q)))
          decide (out.length ≤ 1)
    if fine && ok && o.fails.all (fun c => !x.bad.contains c) then
      let h := o.fails.foldl (fun h c => healthError 2 1 (logEvent 5 (flashAddr o.die p o.page c) false h)) h
      let h := modBlk o.die p (fun B => judgeBlk h 0 { B with t3 := B.t3 + 1 }) h
      readOk o x h
    else giveRead o none (healthError 3 1 (setDiuEvt 0 (dropOp id h)))
  | none => h

/-- FLASH_PROGRAM_DONE (R388, R367): a program pulse completes or fails; its grains are released. -/
def programDone (d plane : Nat) (ok : Bool) (h : Hw) : Hw :=
  match h.flash.ops.find? (fun o => o.die = d && o.kind = .program && opPhys h o % 4 = plane && o.isRunning) with
  | none => h
  | some o =>
    let p := opPhys h o
    let t := now h
    let h := modBlk d p (fun B => progDone B o.page o.data ok t) h
    let h := lndSend (d / 32) true 0 1 (releasePulse d .program (dropOp o.id h))
    let h := if !ok then h
      else if o.pslc then countUp 32 8 (fun M => M.unitsPslc) (fun v M => { M with unitsPslc := v }) h
      else countUp 24 8 (fun M => M.units4) (fun v M => { M with units4 := v }) h
    giveProgram o (if ok then stOk else 0xAB) h

/-- FLASH_ERASE_DONE (R388, R367, R380): an erase completes or fails; its grains are released, and it counts toward the wear window. -/
def eraseEnd (d : Nat) (ok : Bool) (h : Hw) : Hw :=
  match h.flash.ops.find? (fun o => o.die = d && o.kind = .erase && o.isRunning) with
  | none => h
  | some o =>
    let p := opPhys h o
    let h := modBlk d p (fun B => eraseDone B ok) h
    let h := lndSend (d / 32) true 0 1 (releasePulse d .erase (dropOp o.id h))
    giveErase o ok p (if ok then countErase d h else h)

/-- LANDING_LOST (R371): three retrains in succession failed, or the landing reports an internal fatal error; every operation outstanding at
it ends as failed. -/
def landingLost (l : Nat) (fatal : Bool) (h : Hw) : Hw :=
  if (landing h l).lost || (!fatal && decide ((landing h l).failRuns < 3)) then h else
  let h := modLanding l (fun L => { L with lost := true, width := 0, buf := [] }) h
  (List.range 32).foldl (fun h i => dieGone (32 * l + i) h) h

/-- DIE_OUT_OF_SERVICE (15 R421): a die is lost, or is held in raw ownership; every superblock with a member on it is marked evict. -/
def dieOutOfService (d : Nat) (lost : Bool) (h : Hw) : Hw :=
  if !lost && !dieOut h d then h else dieGone d (if lost then modDie d (fun D => { D with lost := true }) h else h)

def execChannelGrant (c : Nat) (s : State) : Host.Outcome State Fault Refusal := act (decide (c < 64)) (channelGrant c) s
def execFlashReadDone (d p : Nat) (errs : List (Option Nat)) (s : State) : Host.Outcome State Fault Refusal :=
  act (decide (d < 512) && decide (p < 4)) (flashReadDone d p errs) s
def execTier2Reread (id : Nat) (left : List Nat) (s : State) : Host.Outcome State Fault Refusal := act true (tier2 id left) s
def execTier3Reconstruct (id : Nat) (bad : List Nat) (ok : Bool) (s : State) : Host.Outcome State Fault Refusal := act true (tier3 id bad ok) s
def execFlashProgramDone (d p : Nat) (ok : Bool) (s : State) : Host.Outcome State Fault Refusal :=
  act (decide (d < 512) && decide (p < 4)) (programDone d p ok) s
def execFlashEraseDone (d : Nat) (ok : Bool) (s : State) : Host.Outcome State Fault Refusal := act (decide (d < 512)) (eraseEnd d ok) s
def execLandingLost (l : Nat) (fatal : Bool) (s : State) : Host.Outcome State Fault Refusal := act (decide (l < 16)) (landingLost l fatal) s
def execDieOutOfService (d : Nat) (lost : Bool) (s : State) : Host.Outcome State Fault Refusal := act (decide (d < 512)) (dieOutOfService d lost) s

end Sys2Proof.Machine
end

