-- ==== Sys2Proof/Machine/IsaMem.lean ====
section
/-!
DEFINITION. Loads, stores, asynchronous loads and adds (05 R140 to R148, R159; 04 R97 to R101, R108).
-/
namespace Sys2Proof.Machine

/-- The forms of LD and ST (05 R141): bytes moved and alignment; none for element values 5 to 7. -/
def memForm (mod : BitVec 4) : Option (Nat × Nat) :=
  if mod.getLsbD 3 then
    match mod.toNat % 8 with
    | 0 => some (512, 4)
    | 1 => some (256, 2)
    | 2 => some (128, 1)
    | 3 => some (128, 1)
    | 4 => some (64, 1)
    | _ => none
  else let n := 2 ^ (mod.toNat % 4); some (n, n)

def isVec (mod : BitVec 4) : Bool := mod.getLsbD 3

/-- The sign-extended or zero-extended scalar of `n` bytes (05 R141). -/
def extend (n : Nat) (signed : Bool) (v : Nat) : DWord :=
  if signed && (2 ^ (8 * n - 1) ≤ v) then BitVec.ofInt 64 ((v : Int) - 2 ^ (8 * n)) else BitVec.ofNat 64 v

/-- Lane j of a widened vector (05 R141, 03 R80). -/
def widen (form v j : Nat) : Word :=
  match form with
  | 0 => BitVec.ofNat 32 (v / 2 ^ (32 * j))
  | 1 => bf16Wide (BitVec.ofNat 16 (v / 2 ^ (16 * j)))
  | 2 => (BitVec.ofNat 8 (v / 2 ^ (8 * j))).signExtend 32
  | 3 => (BitVec.ofNat 8 (v / 2 ^ (8 * j))).zeroExtend 32
  | _ => (BitVec.ofNat 4 (v / 2 ^ (4 * j))).signExtend 32

/-- A holder's first vector LD of its group into a register records what the register held (04 R108). -/
def recordV (th : Thr) (d : Nat) (h : Hw) : Hw :=
  if !isHolder h th then h else
  let old := (thread h th).vreg d
  modGal h th.g (fun G => { G with group := G.group.map (fun r => if (tget r.v d).isSome then r else { r with v := tput r.v d old }) })

/-- The value of a load that succeeded, or the zero of one that met an error, and the status predicate (05 R142). -/
def loadWrite (th : Thr) (mod : BitVec 4) (d ps : Nat) (val : Option Nat) (h : Hw) : Hw :=
  let n := ((memForm mod).getD (8, 8)).1
  let v := val.getD 0
  let h := if isVec mod then recordV th d h else h
  modThr h th (fun T =>
    let T := if isVec mod then T.setV d (ofLanes (fun j => if val.isSome then widen (mod.toNat % 8) v j else 0))
      else T.setS d (if val.isSome then extend n (mod.getLsbD 2) v else 0)
    T.setP ps (if val.isSome then BitVec.allOnes 128 else 0))

/-- The bytes a load reads; none when a word of them is uncorrectable (05 R142). -/
def loadBytes (h : Hw) (c : Nat) (th : Thr) (o : Obj) (off n : Nat) : Option Nat :=
  let m := objMem h (objKey c o th.g)
  if m.isBad o.tier off n then none else some (m.readLE off n)

/-- LD: from the bay at once, from the atrium and work tiers when the value arrives. -/
def ldBody (th : Thr) (f : Fields) (c : Nat) (h : Hw) : IRes :=
  let T := thread h th
  match memForm f.mod with
  | none => .fault cIllegalOperand
  | some (n, al) =>
    if f.rm ≠ 0 ∨ (isVec f.mod && !vecOk f.d) then .fault cIllegalOperand else
    match addOff (T.sreg f.a) f.off29 with
    | none => .fault cOutOfBounds
    | some a =>
      match checkAccess (ctx h c) a n .r [0, 1, 2] al with
      | .bad e => .fault e
      | .ok o off =>
        if o.tier ≠ 0 then .block (dramAccess c th.g o off n 3 false (some th) h) (.load a f.mod.toNat f.d f.psm)
        else match loadBytes h c th o off n with
          | some v => .next (loadWrite th f.mod f.d f.psm (some v) h) 2
          | none => if f.psm = 0 then .fault cUncorrectable else .next (loadWrite th f.mod f.d f.psm none h) 2

/-- LOAD_DATA_ARRIVAL (05 R131, R142): the value of an LD or of a CSRR arrives at its blocked thread. A request of the LD that a DRAM
channel still queues holds it. -/
def loadArrival (th : Thr) (h : Hw) : Hw :=
  match (thread h th).st, thrCtx h th with
  | .blocked (.csr v d), _ => wake th (fun T => T.setS d v) h
  | .blocked (.load a mod d ps), some c =>
    let m := BitVec.ofNat 4 mod
    let (n, al) := (memForm m).getD (8, 8)
    if h.wmc.chans.any (fun e => e.2.queue.any (fun r => r.thr == some th)) then h else
    match checkAccess (ctx h c) a n .r [0, 1, 2] al with
    | .bad _ => h
    | .ok o off =>
      match loadBytes h c th o off n with
      | some v => wake th id (loadWrite th m d ps (some v) h)
      | none => if ps = 0 then takeFault th cUncorrectable ((thread h th).pc - 8) h else wake th id (loadWrite th m d ps none h)
  | _, _ => h

/-! ## Stores (05 R141, R143) -/

/-- The element a vector ST narrows a lane to, in bits (05 R141, 03 R76). -/
def stElem (form : Nat) (w : Word) : Nat :=
  match form with
  | 0 => w.toNat
  | 1 => (bf16Of w).1.toNat
  | 2 => (BitVec.ofInt 8 (clampInt (-128) 127 w.toInt).1).toNat
  | 3 => (BitVec.ofInt 8 (clampInt 0 255 w.toInt).1).toNat
  | _ => (BitVec.ofInt 4 (clampInt (-8) 7 w.toInt).1).toNat

def stBits (form : Nat) : Nat := match form with | 0 => 32 | 1 => 16 | 2 => 8 | 3 => 8 | _ => 4

/-- The bytes a vector ST writes at `off`: those of the lanes its mask names; a 4-bit lane leaves its neighbour's half. -/
def vecStores (m : ObjMem) (form off : Nat) (v : BitVec 4096) (mask : BitVec 128) : List (Nat × Byte) :=
  if form = 4 then
    (List.range 64).flatMap (fun i =>
      let (l0, l1) := (mask.getLsbD (2 * i), mask.getLsbD (2 * i + 1))
      if !l0 && !l1 then [] else
      let old := (m.read (off + i)).toNat
      let lo := if l0 then stElem 4 (lane v (2 * i)) else old % 16
      let hi := if l1 then stElem 4 (lane v (2 * i + 1)) else old / 16
      [(off + i, BitVec.ofNat 8 (lo + 16 * hi))])
  else
    let b := stBits form / 8
    (List.range 128).flatMap (fun j => if mask.getLsbD j then bytesAt (off + b * j) b (stElem form (lane v j)) else [])

/-- The data of a remote vector WRITE: every lane narrowed. -/
def vecData (form : Nat) (v : BitVec 4096) : Nat := packElems (stBits form) ((List.range 128).map (fun j => stElem form (lane v j)))

/-- A remote operation's object address in the owning module (04 R119). -/
def remoteAddr (o : Obj) (off : Nat) : Nat := o.bindOff + off

/-- A posted operation to another module (05 R143, R159): it takes a slot, and its thread goes on unless no slot or no credit is free. -/
def postRemote (th : Thr) (c : Nat) (o : Obj) (ty len body : Nat) (h : Hw) : IRes :=
  if !slotFree h th.g then .again h .postSlot else
  match issueReq c (.post th.g (gal h th.g).postNext) (o.bindId % 2 ^ 14) ty len body h with
  | .noCredit => .again h .credit
  | .unreachable => .next (addPost th (.remote 0) true stUnreachable h).1 1
  | .sent h tag => .next (addPost th (.remote tag) false stOk h).1 1

/-- ST: masked in the vector forms; posted in the remote tier. A word that a partial store leaves uncorrectable is reported at FENCE
(13 R356). -/
def stBody (th : Thr) (f : Fields) (c : Nat) (h : Hw) : IRes :=
  let T := thread h th
  match memForm f.mod with
  | none => .fault cIllegalOperand
  | some (n, al) =>
    if f.rm ≠ 0 ∨ (isVec f.mod && !vecOk f.d) ∨ (!isVec f.mod && (f.mod.getLsbD 2 || f.psm ≠ 0)) then .fault cIllegalOperand else
    match addOff (T.sreg f.a) f.off29 with
    | none => .fault cOutOfBounds
    | some a =>
      match checkAccess (ctx h c) a n .w [0, 1, 2, 4] al with
      | .bad e => .fault e
      | .ok o off =>
        let form := f.mod.toNat % 8
        let mask := if isVec f.mod then T.preg f.psm else BitVec.allOnes 128
        if o.tier = 4 then
          let data := if isVec f.mod then vecData form (T.vreg f.d) else (T.sreg f.d).toNat % 256 ^ n
          postRemote th c o 0x02 (32 + n) (remoteAddr o off + n * 256 ^ 8 + mask.toNat * 256 ^ 16 + data * 256 ^ 32) h
        else
          let m := objMem h (objKey c o th.g)
          let ws := if isVec f.mod then vecStores m form off (T.vreg f.d) mask else bytesAt off n (T.sreg f.d).toNat
          let (m', lost) := m.store o.tier ws
          let h := dramAccess c th.g o off n 3 true none (modMem h (objKey c o th.g) (fun _ => m'))
          .next (if lost then noteFailure th stUncorrectable h else h) 1

/-! ## Atomic add (05 R159) -/

/-- The operands of MADD and RADD: the object, its offset, and (byte offset, addend) of every element. -/
def addOperands (th : Thr) (f : Fields) (c : Nat) (tiers : List Nat) (h : Hw) : Except Nat (DWord × Obj × Nat × List (Nat × Word)) :=
  let T := thread h th
  let vec := f.m 0
  if 3 < f.mod.toNat ∨ f.rm ≠ 0 ∨ (if vec then !vecOk f.d else f.psm ≠ 0) then .error cIllegalOperand else
  match addOff (T.sreg f.a) f.off29 with
  | none => .error cOutOfBounds
  | some a =>
    match checkAccess (ctx h c) a (if vec then 512 else 4) .w tiers 4 with
    | .bad e => .error e
    | .ok o off =>
      let mask := T.preg f.psm
      .ok (a, o, off, if vec then ((List.range 128).filter (fun j => mask.getLsbD j)).map (fun j => (4 * j, lane (T.vreg f.d) j))
        else [(0, BitVec.ofNat 32 (T.sreg f.d).toNat)])

/-- MADD: posted to the adders of the atrium and work tiers. -/
def maddBody (th : Thr) (f : Fields) (c : Nat) (h : Hw) : IRes :=
  match addOperands th f c [1, 2] h with
  | .error e => .fault e
  | .ok (a, _, _, adds) =>
    if !slotFree h th.g then .again h .postSlot else .next (addPost th (.madd c a (f.m 1) adds) false stOk h).1 1

/-- RADD: posted to another module's adders. -/
def raddBody (th : Thr) (f : Fields) (c : Nat) (h : Hw) : IRes :=
  match addOperands th f c [4] h with
  | .error e => .fault e
  | .ok (_, o, off, _) =>
    let T := thread h th
    let (n, mask, data) := if f.m 0 then (512, (T.preg f.psm).toNat, (T.vreg f.d).toNat) else (4, 2 ^ 128 - 1, (T.sreg f.d).toNat % 2 ^ 32)
    postRemote th c o 0x10 (32 + n) (remoteAddr o off + bit (f.m 1) * 256 ^ 8 + mask * 256 ^ 16 + data * 256 ^ 32) h

/-! ## Asynchronous loads (05 R145 to R148; 04 R97 to R101) -/

/-- A ticket (05 R146). -/
def ticketOf (seq : Nat) : DWord := BitVec.ofNat 64 (2 ^ 17 + seq)

/-- LDAs of a gallery not yet complete. -/
def galLdas (h : Hw) (g : Nat) : Nat :=
  (gal h g).thr.foldl (fun n e => n + (e.2.lda.filter (fun l => l.done.isNone)).length) 0

/-- An LDA is recorded: its destination is undefined until its ticket is returned (04 R100). -/
def startLda (th : Thr) (c : Nat) (src dst : DWord) (n seq d : Nat) (done : Option Nat) (h : Hw) : Hw :=
  let (e, h) := freshEpoch h
  let h := match (ctx h c).objs.find? (fun o => o.handle = addrHandle dst) with
    | none => h
    | some o => modMem h (objKey c o th.g) (fun m => { m with flight := { id := th.t * 65536 + seq, lo := addrOff dst, len := n, epoch := e } :: m.flight })
  modThr h th (fun T => { T.setS d (ticketOf seq) with lda := T.lda ++ [{ seq, src, dst, size := n, done }], ldaSeq := (seq + 1) % 65536 })

/-- LDA: every check at issue, then the copy starts; a remote source is asked for, which needs a credit. -/
def ldaBody (th : Thr) (f : Fields) (c : Nat) (h : Hw) : IRes :=
  let T := thread h th
  let bad := if f.m 0 then decide (f.low29 ≠ 0) else decide (2 ^ 14 ≤ f.low29.toNat)
  let n := if f.m 0 then (T.sreg f.d).toNat else (f.low29.toNat + 1) * 4
  if 1 < f.mod.toNat || bad || n < 4 || 65536 < n || n % 4 ≠ 0 then .fault cIllegalOperand
  else match checkAccess (ctx h c) (T.sreg f.a) n .w [0] 4, checkAccess (ctx h c) (T.sreg f.b) n .r [0, 1, 2, 3, 4] 4 with
    | .bad e, _ => .fault e
    | _, .bad e => .fault e
    | .ok _ _, .ok o off =>
      if 4 ≤ (T.lda.filter (fun l => l.done.isNone)).length ∨ 128 ≤ galLdas h th.g then .again h .ldaSlot else
      let start := fun (done : Option Nat) (h : Hw) => IRes.next (startLda th c (T.sreg f.b) (T.sreg f.a) n T.ldaSeq f.d done h) 1
      if o.tier = 4 then
        match issueReq c (.load th T.ldaSeq) (o.bindId % 2 ^ 14) 0x01 16 (remoteAddr o off + n * 256 ^ 8) h with
        | .noCredit => .again h .credit
        | .unreachable => start (some stUnreachable) h
        | .sent h _ => start none h
      else if o.tier = 3 then
        match start none h with
        | .next h k => .next (volumeReads o.bindId (o.bindOff + off / 4096) ((off % 4096 + n + 4095) / 4096) (fun i => .lda th T.ldaSeq i) h) k
        | r => r
      else start none (dramAccess c th.g o off n 3 false none h)

/-- WAITA (R148): the status of the thread's first outstanding LDA with that ticket; none when there is none. -/
def ldaOf (T : Thread) (t : DWord) : Option Lda := T.lda.find? (fun l => ticketOf l.seq == t)

def waitaBody (th : Thr) (f : Fields) (c : Nat) (h : Hw) : IRes :=
  let T := thread h th
  if 1 < f.mod.toNat || !sZero f false false true then .fault cIllegalOperand else
  let done := fun (st : Nat) (h : Hw) => IRes.next (modThr h th (fun T => T.setS f.d (stWord [(st, 0)]))) 1
  match ldaOf T (T.sreg f.a) with
  | none => done stInvalidField h
  | some l =>
    match l.done with
    | some st => done st (retireLda th c l true h)
    | none => if f.m 0 then done stBusy h else .block h (.ticket l.seq f.d)

/-- An LDA's completion recorded (04 R98, R99): a thread blocked on its ticket goes on; threads held at the limits issue again; a HALT
that waited goes on. -/
def finishLda (th : Thr) (seq st data : Nat) (h : Hw) : Hw :=
  let h := modThr h th (fun T => { T with lda := T.lda.map (fun l => if l.seq = seq && l.done.isNone then { l with done := some st, data } else l) })
  let h := wakeAgain th.g (fun w => w == .ldaSlot) h
  let h := match (thread h th).st, thrCtx h th, (thread h th).lda.find? (fun l => l.seq = seq) with
    | .blocked (.ticket s d), some c, some l =>
      if s = seq then wake th (fun T => T.setS d (stWord [(st, 0)])) (retireLda th c l true h) else h
    | _, _, _ => h
  tryHalt th h

/-! ## The commands -/

def execLd (th : Thr) (f : Fields) (s : State) : Host.Outcome State Fault Refusal :=
  act (okThr th) (runIsa .ld th f (ldBody th f)) s
def execSt (th : Thr) (f : Fields) (s : State) : Host.Outcome State Fault Refusal :=
  act (okThr th) (runIsa .st th f (stBody th f)) s
def execMadd (th : Thr) (f : Fields) (s : State) : Host.Outcome State Fault Refusal :=
  act (okThr th) (runIsa .madd th f (maddBody th f)) s
def execRadd (th : Thr) (f : Fields) (s : State) : Host.Outcome State Fault Refusal :=
  act (okThr th) (runIsa .radd th f (raddBody th f)) s
def execLda (th : Thr) (f : Fields) (s : State) : Host.Outcome State Fault Refusal :=
  act (okThr th) (runIsa .lda th f (ldaBody th f)) s
def execWaita (th : Thr) (f : Fields) (s : State) : Host.Outcome State Fault Refusal :=
  act (okThr th) (runIsa .waita th f (waitaBody th f)) s
def execLoadDataArrival (th : Thr) (s : State) : Host.Outcome State Fault Refusal := act (okThr th) (loadArrival th) s

end Sys2Proof.Machine
end

