-- ==== Sys2Proof/Machine/Walk.lean ====
section
/-!
DEFINITION. Vectors, distances, distance tables and walks of the stair index (11 R282 to R285, R292 to R295, R308 to R310; 06 R195, R198),
the prefetch of a volume's unit and the end of an asynchronous load (05 R144, R147; 04 R98, R99).
-/
namespace Sys2Proof.Machine

/-! ## Bytes and vectors -/

/-- CRC-32 with the IEEE 802.3 polynomial over `n` bytes of a little-endian number. -/
def crc32 (v n : Nat) : Nat :=
  ((List.range n).foldl (fun (c : Nat) i =>
    (List.range 8).foldl (fun (c : Nat) _ => if c % 2 = 1 then (c / 2) ^^^ 0xEDB88320 else c / 2) (c ^^^ (v / 256 ^ i % 256))) 0xFFFFFFFF) ^^^ 0xFFFFFFFF

/-- `n` bytes at an object address, and whether one lies in an uncorrectable word. -/
def readAt (h : Hw) (c g : Nat) (a : DWord) (n : Nat) : Nat × Bool :=
  match (ctx h c).objs.find? (fun o => o.handle = addrHandle a) with
  | none => (0, false)
  | some o => let m := objMem h (objKey c o g); (m.readLE (addrOff a) n, m.isBad o.tier (addrOff a) n)

/-- A field of a structure held as a little-endian number. -/
def fldOf (v off n : Nat) : Nat := v / 256 ^ off % 256 ^ n

/-- A query or a vector as FP32 words: FP32, or BF16 widened. -/
def vecOf (bf16 : Bool) (v n : Nat) : List Word :=
  (List.range n).map (fun i => if bf16 then bf16Wide (BitVec.ofNat 16 (fldOf v (2 * i) 2)) else BitVec.ofNat 32 (fldOf v (4 * i) 4))

/-- Addends in an order the manual leaves open (11 R309, 03 R81; log 10). -/
def openOrder (n : Nat) (l : List Word) : List Word :=
  (l.foldl (fun (acc : List (Nat × Word)) w =>
    let r := Config.freeChoice n acc.length
    let (a, b) := (acc.filter (fun x => decide (x.1 ≤ r)), acc.filter (fun x => !decide (x.1 ≤ r)))
    a ++ [(r, w)] ++ b) []).map (fun x => x.2)

/-- The FP32 sum of products or squares: each rounded, added from +0 in an open order (R71, R309). -/
def sumF32 (n : Nat) (l : List Word) : Word := (openOrder n l).foldl f32Add 0

/-- The distance of METRIC (R282, R293): 0 squared L2, 1 negated inner product. -/
def distance (n metric : Nat) (q v : List Word) : Word :=
  let pairs := q.zip v
  if metric = 0 then sumF32 n (pairs.map (fun p => let d := f32Sub p.1 p.2; f32Mul d d))
  else f32Neg (sumF32 n (pairs.map (fun p => f32Mul p.1 p.2)))

/-! ## Distance tables (R292 to R294) -/

/-- The exact quotient (a − b) / s of finite words, rounded once to an integer and clamped to EMAX. -/
def tabEntry (a b s : Word) (emax : Nat) : Nat :=
  let d := f32Fixed 149 a - f32Fixed 149 b
  let k := f32Fixed 149 s
  if d ≤ 0 ∨ k ≤ 0 then 0 else min emax (rneDiv d.toNat k.toNat)

def isFinite (w : Word) : Bool := !f32IsNaN w && !f32IsInf w

/-- The table of a query (R293, R294): its bytes and whether a distance was NaN. -/
def buildTable (n metric m bits : Nat) (u16 : Bool) (list : Nat) (query codebook : List Word) (centroid : Option (List Word)) : Nat × Bool :=
  let dim := query.length
  let sub := dim / max 1 m
  let codes := 2 ^ bits
  let r := match centroid with
    | some cv => if metric = 0 then (query.zip cv).map (fun p => f32Sub p.1 p.2) else query
    | none => query
  let emax : Nat := if u16 then 65535 else 255
  let part := fun (l : List Word) (i : Nat) => (l.drop i).take sub
  let dist := (List.range m).map (fun i => (List.range codes).map (fun k =>
    distance (n + i * codes + k) metric (part r (i * sub)) (part codebook ((i * codes + k) * sub))))
  let mins := dist.map (fun ds => let fs := ds.filter isFinite; match fs with | [] => (0 : Word) | x :: r => r.foldl f32Min x)
  let ranges := dist.map (fun ds => let fs := ds.filter isFinite; match fs with | [] => (0 : Word) | x :: r => f32Sub (r.foldl f32Max x) (r.foldl f32Min x))
  let top := ranges.foldl f32Max 0
  let scale := if f32IsZero top then f32One else f32Div top (f32OfInt emax)
  let bias0 := mins.foldl f32Add 0
  let bias := match centroid with
    | some cv => if metric = 1 then f32Add bias0 (distance (n + m * codes) 1 query cv) else bias0
    | none => bias0
  let nan := dist.any (fun ds => ds.any f32IsNaN)
  let entries := (dist.zip mins).flatMap (fun p => p.1.map (fun d => if isFinite d then tabEntry d p.2 scale emax else emax))
  let eb := if u16 then 2 else 1
  let body := entries.foldr (fun e a => e + 256 ^ eb * a) 0
  (scale.toNat + bias.toNat * 256 ^ 4 + m * 256 ^ 8 + bits * 256 ^ 9 + bit u16 * 256 ^ 10 + bit nan * 256 ^ 11 + list * 256 ^ 12 + body * 256 ^ 16, nan)

/-- Bytes of a table (R294). -/
def tableBytes (m bits : Nat) (u16 : Bool) : Nat := 16 + m * 2 ^ bits * (if u16 then 2 else 1)

/-- PTAB (06 R195): every check at issue, then the table is written. An uncorrectable word of the inputs ends it with
MEDIA_UNCORRECTABLE (13 R355; log 40). -/
def ptabBody (th : Thr) (f : Fields) (c : Nat) (h : Hw) : IRes :=
  let T := thread h th
  let (q, hd, out) := (T.sreg f.a, T.sreg f.b, T.sreg f.c)
  if f.mod ≠ 0 || !xZero f false true true true true then .fault cIllegalOperand else
  match checkAccess (ctx h c) hd 64 .r [0, 1, 2] 1 with
  | .bad e => .fault e
  | .ok _ _ =>
    let (v, bad0) := readAt h c th.g hd 64
    let (cb, cen, dim, m, bits) := (fldOf v 0 8, fldOf v 8 8, fldOf v 16 2, fldOf v 18 1, fldOf v 19 1)
    let (tf, metric, qf, list) := (fldOf v 20 1, fldOf v 21 1, fldOf v 22 1, fldOf v 24 4)
    let none_ := decide (list = 0xFFFFFFFF)
    if dim < 8 || 4096 < dim || m < 8 || 128 < m || dim % m ≠ 0 || (bits ≠ 4 && bits ≠ 8) || 1 < tf || 1 < metric || 1 < qf
        || fldOf v 23 1 ≠ 0 || fldOf v 28 36 ≠ 0 || (decide (cen = 0) != none_) then .fault cIllegalOperand else
    let n := tableBytes m bits (tf = 1)
    let cbn := 2 ^ bits * dim * 2
    let qn := dim * (if qf = 1 then 2 else 4)
    let chk := ((checkAccess (ctx h c) q qn .r [0, 1, 2] 1).cause?).or
      (((checkAccess (ctx h c) (BitVec.ofNat 64 cb) cbn .r [1, 2] 1).cause?).or
      ((if cen = 0 then none else (checkAccess (ctx h c) (BitVec.ofNat 64 cen) (2 * dim) .r [0, 1, 2] 1).cause?).or
      ((checkAccess (ctx h c) out n .w [0, 1, 2] 1).cause?)))
    match chk with
    | some e => .fault e
    | none =>
      let (qv, b1) := readAt h c th.g q qn
      let (bv, b2) := readAt h c th.g (BitVec.ofNat 64 cb) cbn
      let (cv, b3) := if cen = 0 then (0, false) else readAt h c th.g (BitVec.ofNat 64 cen) (2 * dim)
      if bad0 || b1 || b2 || b3 then .next (modThr h th (fun T => T.setS f.d (stWord [(stUncorrectable, 0)]))) 1 else
      let (t, nan) := buildTable h.free metric m bits (tf = 1) list (vecOf (qf = 1) qv dim) (vecOf true bv (2 ^ bits * dim))
        (if cen = 0 then none else some (vecOf true cv dim))
      let (h, lost) := storeObj c th.g out (bytesAt (addrOff out) n t) { h with free := h.free + m * 2 ^ bits + 1 }
      let h := if lost then noteFailure th stUncorrectable h else h
      .next (modThr h th (fun T => T.setS f.d (stWord [(stOk, 0), (bit nan, 8), (n, 32)]))) 1

/-! ## The stair index (R282, R283) -/

/-- The index descriptor (R282). -/
structure Stair where
  mode : Nat
  metric : Nat
  dim : Nat
  top : Nat
  slots : Nat
  entry : Nat
  d0 : Nat
  dup : Nat
  nodeBytes : Nat
  off : Nat

/-- The descriptor's fields, when every one is in range and every reserved field 0 (R282). -/
def stairOf (v : Nat) : Option Stair :=
  let s : Stair := { mode := fldOf v 6 1, metric := fldOf v 7 1, dim := fldOf v 8 2, top := fldOf v 10 1, slots := fldOf v 12 4, entry := fldOf v 16 4
                     d0 := fldOf v 20 2, dup := fldOf v 22 2, nodeBytes := fldOf v 24 4, off := fldOf v 32 8 }
  if fldOf v 0 4 = 0x58564341 ∧ fldOf v 4 2 = 0x0100 ∧ s.mode ≤ 1 ∧ s.metric ≤ 1 ∧ 8 ≤ s.dim ∧ s.dim ≤ 4096 ∧ s.top ≤ 7 ∧ fldOf v 11 1 = 0
      ∧ 1 ≤ s.slots ∧ s.slots ≤ 2 ^ 32 - 2 ∧ s.entry < s.slots ∧ 4 ≤ s.d0 ∧ s.d0 ≤ 128 ∧ 2 ≤ s.dup ∧ s.dup ≤ 64 ∧ s.nodeBytes % 8 = 0
      ∧ 16 + 2 * s.dim + 8 * s.d0 + 56 * s.dup ≤ s.nodeBytes ∧ fldOf v 28 4 = 0 ∧ s.off % 8 = 0 ∧ fldOf v 40 24 = 0
  then some s else none

/-- A node slot read from the stair object (R283). -/
structure Node where
  id : Nat
  gen : Nat
  tomb : Bool
  free : Bool
  vec : List Word
  raw : Nat
  bad : Bool

def nodeAt (h : Hw) (c g : Nat) (st : DWord) (s : Stair) (k : Nat) : Node :=
  let (v, bad) := readAt h c g (mkAddr (addrHandle st) (addrOff st + s.off + k * s.nodeBytes)) s.nodeBytes
  { id := fldOf v 0 8, gen := fldOf v 8 2, tomb := (fldOf v 10 1).testBit 0, free := (fldOf v 10 1).testBit 1
    vec := vecOf true (v / 256 ^ 16) s.dim, raw := v, bad }

/-- The edges of a node at a step: target slot and GEN. -/
def edgesOf (s : Stair) (n : Node) (step : Nat) : List (Nat × Nat) :=
  let base := 16 + 2 * s.dim + (if step = 0 then 0 else 8 * s.d0 + 8 * s.dup * (step - 1))
  ((List.range (if step = 0 then s.d0 else s.dup)).map (fun i => (fldOf n.raw (base + 8 * i) 4, fldOf n.raw (base + 8 * i + 4) 2))).filter
    (fun e => e.1 ≠ 0xFFFFFFFF)

/-- A walk under way (R309): distances computed, stale edges met, whether an uncorrectable word was read. -/
structure WalkSt where
  dists : Nat := 0
  stale : Nat := 0
  bad : Bool := false

/-- +∞ for a NaN distance (06 R198). -/
def ordDist (w : Word) : Word := if f32IsNaN w then f32Inf false else w

/-- The greedy descent of one step (R309): move along edges while one is nearer. -/
def greedy (node : Nat → Node) (dist : Nat → Word) (s : Stair) (maxVisit step : Nat) : Nat → Nat × WalkSt → Nat × WalkSt
  | 0, x => x
  | k + 1, (cur, w) =>
    let n := node cur
    let y := (edgesOf s n step).foldl (fun (x : Nat × WalkSt) (e : Nat × Nat) =>
      if maxVisit ≠ 0 ∧ maxVisit ≤ x.2.dists then x else
      let t := node e.1
      if s.slots ≤ e.1 ∨ e.2 ≠ t.gen ∨ t.free then (x.1, { x.2 with stale := x.2.stale + 1 })
      else
        let w := { x.2 with dists := x.2.dists + 1, bad := x.2.bad || t.bad }
        if f32Lt (ordDist (dist e.1)) (ordDist (dist x.1)) then (e.1, w) else (x.1, w)) (cur, { w with bad := w.bad || n.bad })
    if y.1 = cur then y else greedy node dist s maxVisit step k y

/-- The beam search at step 0 (R309): the nearest node of the beam not yet expanded is expanded, until none is left. -/
def beam (node : Nat → Node) (dist : Nat → Word) (s : Stair) (ef maxVisit : Nat) : Nat → List Nat → List Nat → List Nat → WalkSt → List Nat × WalkSt
  | 0, b, _, _, w => (b, w)
  | k + 1, b, seen, done, w =>
    let cand := b.filter (fun x => !done.contains x)
    match cand with
    | [] => (b, w)
    | x :: r =>
      if maxVisit ≠ 0 ∧ maxVisit ≤ w.dists then (b, w) else
      let cur := r.foldl (fun y z => if f32Lt (ordDist (dist z)) (ordDist (dist y)) then z else y) x
      let (b, seen, w) := (edgesOf s (node cur) 0).foldl (fun (y : List Nat × List Nat × WalkSt) (e : Nat × Nat) =>
        if maxVisit ≠ 0 ∧ maxVisit ≤ y.2.2.dists then y else
        let t := node e.1
        if s.slots ≤ e.1 ∨ e.2 ≠ t.gen ∨ t.free then (y.1, y.2.1, { y.2.2 with stale := y.2.2.stale + 1 })
        else if y.2.1.contains e.1 then y
        else
          let w := { y.2.2 with dists := y.2.2.dists + 1, bad := y.2.2.bad || t.bad }
          let b := y.1 ++ [e.1]
          let worst := b.foldl (fun m z => if f32Lt (ordDist (dist m)) (ordDist (dist z)) then z else m) e.1
          (if ef < b.length then b.erase worst else b, y.2.1 ++ [e.1], w)) (b, seen, w)
      beam node dist s ef maxVisit k b seen (done ++ [cur]) w

/-- What a walk finds (R309, R310): its records in ascending distance, stale edges, whether a word was uncorrectable. -/
def walkRun (h : Hw) (c g : Nat) (st : DWord) (s : Stair) (query : List Word) (ef out maxVisit : Nat) (exhaustive : Bool) : List SelRec × WalkSt :=
  let node := nodeAt h c g st s
  let dist := fun (k : Nat) => distance (h.free + k) s.metric query (node k).vec
  let rec_ := fun (k : Nat) => ({ raw := (dist k).toNat + (node k).id * 2 ^ 64, bad := false } : SelRec)
  if exhaustive then
    let all := (List.range s.slots).filter (fun k => !(node k).free && !(node k).tomb)
    let bad := (List.range s.slots).any (fun k => (node k).bad)
    (((sortByKey h.free ((all.map rec_).filter (fun r => !r.isNaN))).take out), { bad })
  else if (node s.entry).free then ([], { bad := (node s.entry).bad })
  else
    let (cur, w) := (List.range s.top).foldl (fun (x : Nat × WalkSt) i => greedy node dist s maxVisit (s.top - i) (s.slots + 1) x)
      (s.entry, { dists := 1, bad := (node s.entry).bad })
    let (b, w) := beam node dist s ef maxVisit (s.slots + 1) [cur] [cur] [] w
    let live := b.filter (fun k => !(node k).tomb)
    ((sortByKey h.free ((live.map rec_).filter (fun r => !r.isNaN))).take out, w)

/-- GWALK (06 R198, 11 R308): every check at issue; the walk goes to the Probe Engine and the thread blocks. -/
def gwalkBody (th : Thr) (f : Fields) (c : Nat) (h : Hw) : IRes :=
  let T := thread h th
  let (q, rq, out) := (T.sreg f.a, T.sreg f.b, T.sreg f.c)
  if f.mod ≠ 0 || !xZero f false true true true true then .fault cIllegalOperand else
  match checkAccess (ctx h c) rq 32 .r [0, 1, 2] 1 with
  | .bad e => .fault e
  | .ok _ _ =>
    let (v, _) := readAt h c th.g rq 32
    let st : DWord := BitVec.ofNat 64 (fldOf v 0 8)
    let (ef, o, fl) := (fldOf v 8 2, fldOf v 10 2, fldOf v 12 1)
    if ef = 0 || 1024 < ef || o = 0 || ef < o || 3 < fl || fldOf v 13 3 ≠ 0 || fldOf v 20 12 ≠ 0 then .fault cIllegalOperand else
    match checkAccess (ctx h c) st 64 .r [2] 1 with
    | .bad e => .fault e
    | .ok _ _ =>
      match stairOf (readAt h c th.g st 64).1 with
      | none => .fault cIllegalOperand
      | some s =>
        let chk := ((checkAccess (ctx h c) (mkAddr (addrHandle st) (addrOff st + s.off)) (s.slots * s.nodeBytes) .r [2] 1).cause?).or
          (((checkAccess (ctx h c) q (s.dim * (if fl.testBit 1 then 2 else 4)) .r [0, 1, 2] 1).cause?).or
          ((checkAccess (ctx h c) out (16 * o) .w [0, 1, 2] 1).cause?))
        match chk with
        | some e => .fault e
        | none => .block { h with probe := { h.probe with walks := h.probe.walks ++ [{ ctx := c, th, query := q, req := v, out, d := f.d }] } } .walk

/-- WALK_COMPLETE (06 R198): the walk's records and status word are written and its thread goes on; an uncorrectable word that it read ends
it with MEDIA_UNCORRECTABLE, its output undefined (13 R355; log 40). -/
def walkComplete (th : Thr) (h : Hw) : Hw :=
  match h.probe.walks.find? (fun w => w.th == th) with
  | none => h
  | some w =>
    let c := w.ctx
    let h := { h with probe := { h.probe with walks := h.probe.walks.erase w } }
    let st : DWord := BitVec.ofNat 64 (fldOf w.req 0 8)
    let (ef, o, fl) := (fldOf w.req 8 2, fldOf w.req 10 2, fldOf w.req 12 1)
    let done := fun (x : DWord) (h : Hw) => wake th (fun T => T.setS w.d x) h
    match stairOf (readAt h c th.g st 64).1 with
    | none => let (v, h) := freeVal 64 h; done v h
    | some s =>
      let (qv, b1) := readAt h c th.g w.query (s.dim * (if fl.testBit 1 then 2 else 4))
      let (recs, ws) := walkRun h c th.g st s (vecOf (fl.testBit 1) qv s.dim) ef o (fldOf w.req 16 4) (fl.testBit 0)
      let h := { h with free := h.free + s.slots + 1 }
      if b1 || ws.bad then
        let (e, h) := freshEpoch h
        let h := match (ctx h c).objs.find? (fun x => x.handle = addrHandle w.out) with
          | none => h
          | some x => modMem h (objKey c x th.g) (fun m => m.forget (addrOff w.out) (16 * o) e)
        done (stWord [(stUncorrectable, 0)]) h
      else
        let (h, lost) := storeObj c th.g w.out ((List.range recs.length).zip recs |>.flatMap (fun (p : Nat × SelRec) => bytesAt (addrOff w.out + 16 * p.1) 16 p.2.raw)) h
        let h := if lost then noteFailure th stUncorrectable h else h
        done (stWord [(stOk, 0), (bit (decide (recs.length < o)), 8), (if fl.testBit 0 then 0 else min ws.stale 0xFFFF, 16), (recs.length, 32)]) h

/-! ## PREF and the end of LDA -/

/-- PREF (05 R144, 14 R377): never faults; a word with D, PS, MOD or a reserved field set, an address that would fault, or one outside the
volume tier starts nothing. The unit covering the byte is read into its landing's buffer. -/
def prefBody (th : Thr) (f : Fields) (c : Nat) (h : Hw) : IRes :=
  let T := thread h th
  if f.mod ≠ 0 || f.d ≠ 0 || f.psm ≠ 0 || f.rm ≠ 0 then .next h 1 else
  match addOff (T.sreg f.a) f.off29 with
  | none => .next h 1
  | some a =>
    match checkAccess (ctx h c) a 1 .r [0, 1, 2, 3, 4] 1 with
    | .bad _ => .next h 1
    | .ok o off =>
      if o.tier ≠ 3 then .next h 1 else
      let lba := o.bindOff + off / 4096
      match unitEnt h.mdm.map o.bindId lba with
      | .located z sb pg u =>
        let on := (pageCopies h.mdm.map sb pg).any (fun x => (landing h (x.1 / 32)).prefEn)
        if on && (bufFind h o.bindId lba).isNone then .next (readEnt (.located z sb pg u) [u] 1 (.pref o.bindId lba) h) 1 else .next h 1
      | _ => .next h 1

/-- LDA_COMPLETE (04 R98, R99, R101): the copy of an outstanding LDA from the bay, atrium, work or volume tier ends: its source is read; with
a unit or word that cannot be read its status is MEDIA_UNCORRECTABLE. A volume's units must all have arrived. -/
def ldaComplete (th : Thr) (seq : Nat) (h : Hw) : Hw :=
  match (thread h th).lda.find? (fun l => l.seq = seq && l.done.isNone), thrCtx h th with
  | some l, some c =>
    (match (ctx h c).objs.find? (fun o => o.handle = addrHandle l.src) with
     | none => h
     | some o =>
       let off := addrOff l.src
       if o.tier = 4 then h
       else if o.tier = 3 then
         let n := (off % 4096 + l.size + 4095) / 4096
         if !(List.range n).all (fun i => (tget l.units i).isSome) then h
         else if l.bad then finishLda th seq stUncorrectable 0 h
         else
           let d := (List.range n).foldr (fun i a => tgetD l.units i 0 + 256 ^ 4096 * a) 0
           finishLda th seq stOk (d / 256 ^ (off % 4096) % 256 ^ l.size) h
       else
         let m := objMem h (objKey c o th.g)
         if m.isBad o.tier off l.size then finishLda th seq stUncorrectable 0 h
         else finishLda th seq stOk (m.readLE off l.size) h)
  | _, _ => h

def execPref (th : Thr) (f : Fields) (s : State) : Host.Outcome State Fault Refusal := act (okThr th) (runIsa .pref th f (prefBody th f)) s
def execPtab (th : Thr) (f : Fields) (s : State) : Host.Outcome State Fault Refusal := act (okThr th) (runIsa .ptab th f (ptabBody th f)) s
def execGwalk (th : Thr) (f : Fields) (s : State) : Host.Outcome State Fault Refusal := act (okThr th) (runIsa .gwalk th f (gwalkBody th f)) s
def execWalkComplete (th : Thr) (s : State) : Host.Outcome State Fault Refusal := act (okThr th) (walkComplete th) s
def execLdaComplete (th : Thr) (seq : Nat) (s : State) : Host.Outcome State Fault Refusal := act (okThr th) (ldaComplete th seq) s

end Sys2Proof.Machine
end

