-- ==== Sys2Proof/Machine/Probe.lean ====
section
/-!
DEFINITION. Scans and appends (11 R286 to R307, R311 to R315; 06 R196, R197): their checks at issue, the landing units, thresholds, survivors,
list pages and the append path.
-/
namespace Sys2Proof.Machine

def modProbe (f : Probe → Probe) (h : Hw) : Hw := { h with probe := f h.probe }
def scanOf (h : Hw) (id : Nat) : Option Scan := h.probe.scans.find? (fun s => s.id = id)
def modScan (id : Nat) (f : Scan → Scan) (h : Hw) : Hw :=
  modProbe (fun P => { P with scans := P.scans.map (fun s => if s.id = id then f s else s) }) h
def modQuery (id q : Nat) (f : ScanQ → ScanQ) (h : Hw) : Hw :=
  modScan id (fun s => { s with qs := (List.range s.qs.length).map (fun i => let x := (s.qs[i]?).getD {}; if i = q then f x else x) }) h

/-! ## Fields of a request (R296) -/

def Scan.flags (s : Scan) : Nat := fldOf s.hdr 1 1
def Scan.exhaustive (s : Scan) : Bool := s.kind = 0 && s.flags.testBit 0
def Scan.residual (s : Scan) : Bool := s.kind = 0 && s.flags.testBit 1
def Scan.queries (s : Scan) : Nat := fldOf s.hdr 2 1
def Scan.k (s : Scan) : Nat := fldOf s.hdr 4 2
def Scan.keep (s : Scan) : Nat := s.k * fldOf s.hdr 6 2
def Scan.count (s : Scan) : Nat := fldOf s.hdr 8 4
def Scan.cap (s : Scan) : Nat := fldOf s.hdr 12 4
def Scan.addr (s : Scan) (off : Nat) : DWord := BitVec.ofNat 64 (fldOf s.hdr off 8)
def Scan.recBytes (s : Scan) : Nat := fldOf s.hdr 56 2
def Scan.proj (s : Scan) : Nat := fldOf s.hdr 58 2
/-- Bytes of an output record (R298). -/
def Scan.outBytes (s : Scan) : Nat := if s.kind = 1 then s.proj else 16
/-- Where a query's region begins (R298). -/
def Scan.region (s : Scan) (q : Nat) : DWord := s.addr 48 + BitVec.ofNat 64 (q * (64 + s.cap * s.outBytes))

/-- The record of a volume's list: its code's bytes and REC_BYTES (R286). -/
def codeBytes (V : Volume) : Nat := if V.bits = 4 then (V.m + 1) / 2 else V.m
def listRecBytes (V : Volume) : Nat := (codeBytes V + 8 + 7) / 8 * 8
/-- Records of a list page (R286). -/
def pageRecords (V : Volume) : Nat := 32704 / listRecBytes V

/-! ## Checks at issue (R292, R296, R297, R299, R311, R315) -/

/-- The cause of an access at issue, none when it passes. -/
def chkAt (h : Hw) (c : Nat) (a : DWord) (n : Nat) (need : Right) (tiers : List Nat) : Option Nat := (checkAccess (ctx h c) a n need tiers 1).cause?

/-- A clause (R311) is in range and reads within records of `n` bytes. -/
def clauseOk (v n : Nat) : Bool :=
  decide (fldOf v 2 1 ≤ 3) && decide (fldOf v 3 1 % 128 ≤ 7) && decide (fldOf v 4 4 = 0) && decide (fldOf v 0 2 + 2 ^ fldOf v 2 1 ≤ n)

/-- The clauses of a RECORD or FILTER scan. -/
def clausesOf (h : Hw) (c g : Nat) (s : Scan) : List Nat :=
  (List.range (fldOf s.hdr 3 1)).map (fun i => (readAt h c g (s.addr 32 + BitVec.ofNat 64 (16 * i)) 16).1)

/-- The preamble of a query's table agrees with the list parameters (R292, R294, R297). -/
def tableOk (V : Volume) (p list : Nat) (residual : Bool) : Bool :=
  decide (fldOf p 8 1 = V.m) && decide (fldOf p 9 1 = V.bits) && decide (fldOf p 10 1 ≤ 1) && (!residual || decide (fldOf p 12 4 = list))

/-- LIST (R296, R297): the volume, the lists, the tables' addresses and the starting thresholds; or the cause. -/
def listCheck (h : Hw) (c g : Nat) (s : Scan) : Except Nat (Nat × List Nat × List DWord × List Word) :=
  let v := s.hdr
  if 3 < s.flags ∨ s.queries = 0 ∨ 8 < s.queries ∨ fldOf v 3 1 ≠ 0 ∨ s.k = 0 ∨ 4096 < s.k ∨ fldOf v 6 2 = 0 ∨ 64 < fldOf v 6 2 ∨ 16384 < s.keep
      ∨ (if s.exhaustive then s.count ≠ 0 else s.count = 0 ∨ 256 < s.count) ∨ (!s.residual ∧ fldOf v 24 8 ≠ 0) ∨ fldOf v 56 8 ≠ 0
      ∨ (s.exhaustive ∧ s.residual) then .error cIllegalOperand else
  match checkAccess (ctx h c) (s.addr 16) 0 .r [3] 1 with
  | .bad e => .error e
  | .ok o _ =>
    match volume h o.bindId with
    | none => .error cIllegalOperand
    | some V =>
      if V.ty ≠ 1 then .error cIllegalOperand else
      match (chkAt h c (s.addr 32) (32 * s.queries) .r [0, 1, 2]).or
          ((if s.exhaustive then none else chkAt h c (s.addr 40) (4 * s.count) .r [0, 1, 2]).or
          ((chkAt h c (s.addr 48) (s.queries * (64 + 16 * s.cap)) .w [0, 1, 2]).or
          (if s.residual then chkAt h c (s.addr 24) 64 .r [2] else none))) with
      | some e => .error e
      | none =>
        let lists := if s.exhaustive then List.range V.lists
          else (List.range s.count).map (fun i => (readAt h c g (s.addr 40 + BitVec.ofNat 64 (4 * i)) 4).1)
        let qe := (List.range s.queries).map (fun i => (readAt h c g (s.addr 32 + BitVec.ofNat 64 (32 * i)) 32).1)
        if lists.any (fun l => decide (V.lists ≤ l)) || qe.any (fun e => decide (fldOf e 12 20 ≠ 0)) then .error cIllegalOperand else
        let size := fun (a : DWord) => tableBytes V.m V.bits (fldOf (readAt h c g a 16).1 10 1 = 1)
        let tabs := qe.flatMap (fun e =>
          let a : DWord := BitVec.ofNat 64 (fldOf e 0 8)
          if s.residual then (List.range lists.length).map (fun i => a + BitVec.ofNat 64 (i * ((size a + 63) / 64 * 64))) else [a])
        let bad := (List.range tabs.length).findSome? (fun i =>
          let a := (tabs[i]?).getD 0
          match chkAt h c a 16 .r [0, 1, 2] with
          | some e => some e
          | none =>
            if !tableOk V (readAt h c g a 16).1 ((lists[i % max 1 lists.length]?).getD 0) s.residual then some cIllegalOperand
            else chkAt h c a (size a) .r [0, 1, 2])
        let slots := tabs.foldl (fun n a => n + (size a - 16 + 16383) / 16384) 0
        match bad with
        | some e => .error e
        | none =>
          if s.residual && decide (128 < slots) then .error cIllegalOperand
          else .ok (o.bindId, lists, tabs, qe.map (fun e => BitVec.ofNat 32 (fldOf e 8 4)))

def isPow2 (n : Nat) : Bool := n != 0 && decide (2 ^ Nat.log2 n = n)

/-- RECORD (R296, R311). -/
def recordCheck (h : Hw) (c g : Nat) (s : Scan) : Option Nat :=
  let v := s.hdr
  if s.flags ≠ 0 ∨ s.queries ≠ 1 ∨ 8 < fldOf v 3 1 ∨ fldOf v 4 4 ≠ 0 ∨ fldOf v 24 8 ≠ 0 ∨ fldOf v 40 8 ≠ 0 ∨ fldOf v 60 4 ≠ 0
      ∨ !isPow2 s.recBytes ∨ s.recBytes < 8 ∨ 4096 < s.recBytes ∨ s.proj < 16 ∨ 256 < s.proj ∨ s.proj % 16 ≠ 0 ∨ s.recBytes < s.proj then some cIllegalOperand else
  (chkAt h c (s.addr 16) (s.count * s.recBytes) .r [3]).or
    (((if fldOf v 3 1 = 0 then none else chkAt h c (s.addr 32) (16 * fldOf v 3 1) .r [0, 1, 2])).or
    ((chkAt h c (s.addr 48) (64 + s.proj * s.cap) .w [0, 1, 2]).or
    (if (clausesOf h c g s).all (fun x => clauseOk x s.recBytes) then none else some cIllegalOperand)))

/-- FILTER (R296, R311, R312). -/
def filterCheck (h : Hw) (c g : Nat) (s : Scan) : Option Nat :=
  let v := s.hdr
  let ab := fldOf v 56 4
  if s.flags ≠ 0 ∨ s.queries ≠ 1 ∨ 8 < fldOf v 3 1 ∨ s.k = 0 ∨ 4096 < s.k ∨ fldOf v 6 2 ≠ 0 ∨ s.cap < s.k ∨ fldOf v 40 8 ≠ 0 ∨ ab < 8 ∨ 4096 < ab
      ∨ ab % 8 ≠ 0 then some cIllegalOperand else
  (chkAt h c (s.addr 16) (16 * s.count) .r [0, 1, 2]).or
    ((chkAt h c (s.addr 24) ((fldOf v 60 4 + 1) * ab) .r [1, 2, 3]).or
    (((if fldOf v 3 1 = 0 then none else chkAt h c (s.addr 32) (16 * fldOf v 3 1) .r [0, 1, 2])).or
    ((chkAt h c (s.addr 48) (64 + 16 * s.cap) .w [0, 1, 2]).or
    (if (clausesOf h c g s).all (fun x => clauseOk x ab) then none else some cIllegalOperand))))

/-- The partition may append to a volume (12 R317, R321). -/
def mayAppend (h : Hw) (p v : Nat) : Bool :=
  (part h p).inEff.vols.any (fun e => (e.1 = v || e.1 = 0xFFFFFFFE) && e.2.testBit 1)

/-- The list volume of an APPEND: the request has no field for it; the context's first volume object that binds an INDEX volume its
partition may append to (log 42). -/
def appendVolume (h : Hw) (c : Nat) : Option Nat :=
  ((ctx h c).objs.find? (fun o => o.tier = 3 && (match volume h o.bindId with | some V => V.ty == 1 | none => false) && mayAppend h (c / 4) o.bindId)).map
    (fun o => o.bindId)

/-- APPEND entries as (LIST, OP, FLAGS, ID, DATA) (R289). -/
def appendEntry (h : Hw) (c g : Nat) (s : Scan) (i : Nat) : Nat := (readAt h c g (s.addr 16 + BitVec.ofNat 64 (i * fldOf s.hdr 56 4)) (fldOf s.hdr 56 4)).1

/-- APPEND (R289, R296). -/
def appendCheck (h : Hw) (c g : Nat) (s : Scan) : Option Nat :=
  let v := s.hdr
  let stride := fldOf v 56 4
  if s.flags ≠ 0 ∨ s.queries ≠ 1 ∨ fldOf v 3 1 ≠ 0 ∨ s.k = 0 ∨ 1024 < s.k ∨ fldOf v 6 2 ≠ 0 ∨ s.cap < s.count ∨ fldOf v 40 8 ≠ 0 ∨ fldOf v 60 4 ≠ 0
      ∨ stride % 8 ≠ 0 ∨ stride < 16 then some cIllegalOperand else
  match appendVolume h c with
  | none => some cIllegalOperand
  | some vid =>
    match volume h vid with
    | none => some cIllegalOperand
    | some V =>
      match (chkAt h c (s.addr 16) (s.count * stride) .r [0, 1, 2]).or (chkAt h c (s.addr 48) (64 + 16 * s.cap) .w [0, 1, 2]) with
      | some e => some e
      | none =>
        let es := (List.range s.count).map (appendEntry h c g s)
        let enc := es.any (fun e => fldOf e 4 1 = 0 && (fldOf e 5 1).testBit 0)
        let asg := es.any (fun e => fldOf e 4 1 = 0 && fldOf e 0 4 = 0xFFFFFFFF)
        let ok := es.all (fun e =>
          let (l, op, fl) := (fldOf e 0 4, fldOf e 4 1, fldOf e 5 1)
          let need := if op ≠ 0 then 0 else if fl.testBit 0 then 2 * V.dim else listRecBytes V - 8
          decide (op ≤ 2) && decide (fl ≤ 1) && decide (fldOf e 6 2 = 0) && decide (fldOf e 8 8 ≠ 2 ^ 64 - 1) && decide (16 + need ≤ stride)
            && (op != 0 || decide (l < V.lists) || (decide (l = 0xFFFFFFFF) && fl.testBit 0)))
        if !ok then some cIllegalOperand else
        let st := if enc || asg then
            (match chkAt h c (s.addr 24) 64 .r [2] with
             | some e => some e
             | none => match stairOf (readAt h c g (s.addr 24) 64).1 with
               | none => some cIllegalOperand
               | some z => if z.dim ≠ V.dim ∨ z.mode ≠ 0 then some cIllegalOperand else chkAt h c (mkAddr (addrHandle (s.addr 24)) (addrOff (s.addr 24) + z.off)) (z.slots * z.nodeBytes) .r [2])
          else none
        st.or (if enc then chkAt h c (s.addr 32) (2 ^ V.bits * V.dim * 2) .r [1, 2] else none)

/-- A scan ticket (06 R196). -/
def scanTicket (seq : Nat) : DWord := BitVec.ofNat 64 (2 ^ 16 + seq)

/-- PSCAN (06 R196): the request is checked, and queued at the Probe Engine; a third outstanding scan waits. -/
def pscanBody (th : Thr) (f : Fields) (c : Nat) (h : Hw) : IRes :=
  let T := thread h th
  if 1 < f.mod.toNat || f.b ≠ 0 || !xZero f true true true true true then .fault cIllegalOperand else
  match checkAccess (ctx h c) (T.sreg f.a) 64 .r [0, 1, 2] 1 with
  | .bad e => .fault e
  | .ok _ _ =>
    let hdr := (readAt h c th.g (T.sreg f.a) 64).1
    let s : Scan := { id := h.probe.nextId, ctx := c, th, seq := T.scanSeq, auto := f.m 0, kind := fldOf hdr 0 1, hdr }
    let r : Except Nat Scan := match s.kind with
      | 0 => match listCheck h c th.g s with
        | .error e => .error e
        | .ok (v, lists, tabs, ths) =>
          .ok { s with
            vol := v
            lists
            tabs := tabs.map (fun (a : DWord) =>
              let p := (readAt h c th.g a 16).1
              (readAt h c th.g a (tableBytes (fldOf p 8 1) (fldOf p 9 1) (fldOf p 10 1 = 1))).1)
            qs := ths.map (fun (t : Word) => { thresh := t }) }
      | 1 => match recordCheck h c th.g s with | some e => .error e | none => .ok { s with qs := [{}] }
      | 2 => match filterCheck h c th.g s with | some e => .error e | none => .ok { s with qs := [{}] }
      | 3 => match appendCheck h c th.g s with | some e => .error e | none => .ok { s with qs := [{}], vol := (appendVolume h c).getD 0 }
      | _ => .error cIllegalOperand
    match r with
    | .error e => .fault e
    | .ok s =>
      if 2 ≤ (h.probe.scans.filter (fun x => x.th == th && !x.ended)).length then .again h .scanSlot else
      let h := modProbe (fun P => { P with scans := P.scans ++ [s], nextId := P.nextId + 1 }) h
      .next (modThr h th (fun T => { T.setS f.d (scanTicket T.scanSeq) with scanSeq := (T.scanSeq + 1) % 65536 })) 1

/-! ## Ends and collection -/

/-- The region header of a query (R298). -/
def regionHeader (s : Scan) (q : ScanQ) : Nat :=
  q.written + q.scanned * 256 ^ 4 + q.late * 256 ^ 8 + q.tombed * 256 ^ 12 + q.thresh.toNat * 256 ^ 16 + q.filteredOut * 256 ^ 20
    + (1 + 2 * bit q.full + 4 * bit q.media + 8 * bit q.short + 16 * bit s.exhaustive) * 256 ^ 24 + q.pages * 256 ^ 32

/-- Survivors written by a scan to all its regions. -/
def Scan.written (s : Scan) : Nat := s.qs.foldl (fun n q => n + q.written) 0

/-- The status word of PCOLLECT (06 R197). -/
def collectWord (s : Scan) : DWord := stWord [(if s.ended then s.status else stOk, 0), (bit s.ended, 8), (s.written - s.reported, 32)]

/-- A thread blocked in PCOLLECT goes on once its scan has new survivors or has ended; an ended scan's ticket is retired. -/
def collectWake (id : Nat) (h : Hw) : Hw :=
  match scanOf h id with
  | none => h
  | some s =>
    match (thread h s.th).st with
    | .blocked (.scan seq d) =>
      if seq ≠ s.seq ∨ (!s.ended ∧ s.written = s.reported) then h else
      let h := wake s.th (fun T => T.setS d (collectWord s)) h
      if s.ended then modProbe (fun P => { P with scans := P.scans.filter (fun x => x.id ≠ id) }) h
      else modScan id (fun s => { s with reported := s.written }) h
    | _ => h

/-- A scan ends with a status (R306, R307): region headers with FINAL are written, its page reads are dropped, waiters go on. -/
def endScan (id status : Nat) (h : Hw) : Hw :=
  match scanOf h id with
  | none => h
  | some s =>
    if s.ended then h else
    let h := modFlash (fun F => { F with ops := F.ops.filter (fun o => match o.owner with | .scan i _ => i != id | _ => true) }) h
    let h := (List.range s.qs.length).foldl (fun h i =>
      let (h, lost) := storeObj s.ctx s.th.g (s.region i) (bytesAt (addrOff (s.region i)) 64 (regionHeader s ((s.qs[i]?).getD {}))) h
      if lost then noteFailure s.th stUncorrectable h else h) h
    let h := modScan id (fun s => { s with ended := true, status, survs := [], arrived := [] }) h
    let h := collectWake id h
    tryHalt s.th (wakeAgain s.th.g (fun w => w == .scanSlot) h)

/-- A threshold offered to a query takes effect when it is lower (R302, 06 R197). -/
def offer (t : Word) (q : ScanQ) : ScanQ := if f32Lt t q.thresh then { q with thresh := t, dirty := true } else q

/-- PCOLLECT (06 R197). -/
def pcollectBody (th : Thr) (f : Fields) (_ : Nat) (h : Hw) : IRes :=
  let T := thread h th
  let tighten := f.m 1
  if 3 < f.mod.toNat || (!tighten && f.b ≠ 0) || !xZero f true true true true true then .fault cIllegalOperand else
  match h.probe.scans.find? (fun s => s.th == th && scanTicket s.seq == T.sreg f.a) with
  | none => .next (modThr h th (fun T => T.setS f.d (stWord [(stInvalidField, 0)]))) 1
  | some s =>
    let t : Word := BitVec.ofNat 32 (T.sreg f.b).toNat
    let h := if tighten then modScan s.id (fun s => { s with qs := s.qs.map (offer t) }) h else h
    if !s.ended && s.written = s.reported then
      if f.m 0 then .next (modThr h th (fun T => T.setS f.d (stWord [(stBusy, 0)]))) 1 else .block h (.scan s.seq f.d)
    else
      let h := if s.ended then modProbe (fun P => { P with scans := P.scans.filter (fun x => x.id ≠ s.id) }) h
        else modScan s.id (fun s => { s with reported := s.written }) h
      .next (modThr h th (fun T => T.setS f.d (collectWord s))) 1

/-! ## Starting (R299) -/

/-- Table slots of 16 KiB that a scan's tables take on every LPU. -/
def scanSlots (s : Scan) : Nat :=
  s.tabs.foldl (fun n t => n + (tableBytes (fldOf t 8 1) (fldOf t 9 1) (fldOf t 10 1 = 1) - 16 + 16383) / 16384) 0
def onLpu (s : Scan) : Bool := s.started && !s.ended && decide (s.kind ≤ 1)
def lpuContexts (h : Hw) : Nat := (h.probe.scans.filter onLpu).length
def lpuSlots (h : Hw) : Nat := (h.probe.scans.filter onLpu).foldl (fun n s => n + scanSlots s) 0

/-- Records of an APPEND to a volume are not yet durable. -/
def appendBusy (h : Hw) (vol : Nat) : Bool :=
  let mine := fun (r : JRec) => match r.chg with
    | .list v _ _ _ none => v == vol
    | .tombs v _ => v == vol
    | _ => false
  h.mdm.lzPages.any (fun p => p.recs.any mine) || h.mdm.forming.any (fun P => P.recs.any mine)
    || h.mdm.journal.any (fun P => decide (h.mdm.jdone ≤ P.seq) && P.recs.any mine)

/-- The next queued scan: by its job's class, then in order of issue; an APPEND meets the directory that the volume's last one left (R290). -/
def nextScan (h : Hw) : Option Scan :=
  (h.probe.scans.filter (fun s => !s.started && !s.ended && !(s.kind = 3 && appendBusy h s.vol))).foldl (fun (b : Option Scan) (s : Scan) => match b with
    | none => some s
    | some y => if (ctx h y.ctx).cls < (ctx h s.ctx).cls then some s else b) none

/-- The list pages a LIST scan reads (R291): those of the directory when it starts. -/
def scanPages (h : Hw) (s : Scan) : List (Nat × Nat × Nat) :=
  match volume h s.vol with
  | none => []
  | some V => s.lists.flatMap (fun l => let ps := tgetD V.dir l []; (List.range ps.length).map (fun p => (l, p, ((ps[p]?).map (fun (x : ListPage) => x.n)).getD 0)))

/-! ## List pages (R286 to R288) -/

/-- The header of a list page (R286). -/
def listHeader (V : Volume) (l p n seq : Nat) : Nat :=
  let b := 0x4C564341 + l * 256 ^ 4 + p * 256 ^ 8 + n * 256 ^ 12 + listRecBytes V * 256 ^ 14 + V.indexId * 256 ^ 16 + seq % 2 ^ 32 * 256 ^ 24
  b + crc32 b 28 * 256 ^ 28

/-- A list page: its header and its records. -/
def listData (V : Volume) (l p seq : Nat) (recs : List Nat) : Nat :=
  listHeader V l p recs.length seq + 256 ^ 64 * recs.foldr (fun r a => r % 256 ^ listRecBytes V + 256 ^ listRecBytes V * a) 0

/-- The records of a page, when its header is the one asked for (R288). -/
def listRecords (V : Volume) (l p n data : Nat) : Option (List Nat) :=
  if fldOf data 0 4 = 0x4C564341 ∧ fldOf data 4 4 = l ∧ fldOf data 8 4 = p ∧ fldOf data 16 8 = V.indexId ∧ fldOf data 28 4 = crc32 (data % 256 ^ 28) 28 then
    some ((List.range n).map (fun i => fldOf data (64 + i * listRecBytes V) (listRecBytes V)))
  else none

/-! ## Appends (R289, R290) -/

/-- The centroid of a list: its node's vector in a LIST-mode stair object. -/
def centroidOf (h : Hw) (s : Scan) (l : Nat) : List Word :=
  match stairOf (readAt h s.ctx s.th.g (s.addr 24) 64).1 with
  | some z => (nodeAt h s.ctx s.th.g (s.addr 24) z l).vec
  | none => []

/-- The code of a vector (R289): for each subquantiser the codeword nearest to the residual's part in squared L2, the lowest when two are
equally near. -/
def encodeVec (n : Nat) (V : Volume) (vec cen cb : List Word) : Nat :=
  let r := (vec.zip cen).map (fun p => f32Sub p.1 p.2)
  let sub := V.dim / max 1 V.m
  let pick := fun (i : Nat) => ((List.range (2 ^ V.bits)).foldl (fun (b : Option (Nat × Word)) k =>
    let d := distance (n + i * 2 ^ V.bits + k) 0 ((r.drop (i * sub)).take sub) ((cb.drop ((i * 2 ^ V.bits + k) * sub)).take sub)
    match b with
    | none => some (k, d)
    | some y => if f32Lt (ordDist d) (ordDist y.2) then some (k, d) else b) none).map (fun x => x.1) |>.getD 0
  packElems V.bits ((List.range V.m).map pick)

/-- What an APPEND has gathered: new records by list, tombstones, results, whether it stopped. -/
structure Gather where
  adds : Tbl (List Nat) := []
  tombs : List Nat
  outs : List Nat := []
  stop : Bool := false

/-- Records a list holds. -/
def listLen (V : Volume) (l : Nat) : Nat := (tgetD V.dir l []).foldl (fun n (p : ListPage) => n + p.n) 0

/-- Flash an index would occupy, in blocks: its list pages and the tombstone table at 8 bytes an ID (15 R399; log 43). -/
def indexBlocks (V : Volume) (adds : Tbl (List Nat)) (tombs : Nat) : Nat :=
  let pages := fun (l n : Nat) => (listLen V l + n + pageRecords V - 1) / max 1 (pageRecords V)
  let old := (V.dir.filter (fun e => (tget adds e.1).isNone)).foldl (fun n e => n + e.2.length) 0
  8 * (old + adds.foldl (fun n e => n + pages e.1 e.2.length) 0) + (8 * tombs + 4095) / 4096

/-- One entry applied (R289, R290). -/
def applyEntry (h : Hw) (V : Volume) (s : Scan) (cb : List Word) (i : Nat) (a : Gather) : Gather :=
  if a.stop then a else
  let e := appendEntry h s.ctx s.th.g s i
  let (l, op, enc, id) := (fldOf e 0 4, fldOf e 4 1, (fldOf e 5 1).testBit 0, fldOf e 8 8)
  let out := fun (k l : Nat) => k + l * 256 ^ 4 + id * 256 ^ 8
  if op = 1 then
    if a.tombs.contains id then { a with outs := a.outs ++ [out 0 l] }
    else if V.tombCap ≤ a.tombs.length ∨ V.blocks < indexBlocks V a.adds (a.tombs.length + 1) then { a with stop := true }
    else { a with tombs := a.tombs ++ [id], outs := a.outs ++ [out 0 l] }
  else if op = 2 then { a with tombs := a.tombs.filter (fun x => x ≠ id), outs := a.outs ++ [out 0 l] }
  else
    let vec := vecOf true (e / 256 ^ 16) V.dim
    let found := if l ≠ 0xFFFFFFFF then none else
      (stairOf (readAt h s.ctx s.th.g (s.addr 24) 64).1).bind (fun z => (walkRun h s.ctx s.th.g (s.addr 24) z vec s.k 1 0 false).1.head?)
    let (l, key) := match found with
      | some r => (r.id, r.key.toNat)
      | none => (l, 0)
    if V.lists ≤ l then { a with stop := true } else
    let code := if enc then encodeVec (h.free + i) V vec (centroidOf h s l) cb else fldOf e 16 (codeBytes V)
    let r := code + id * 256 ^ codeBytes V
    let adds := tput a.adds l (tgetD a.adds l [] ++ [r])
    if 2 ^ 32 - 1 < listLen V l + (tgetD adds l []).length ∨ V.blocks < indexBlocks V adds a.tombs.length then { a with stop := true }
    else { a with adds, outs := a.outs ++ [out key l] }

/-- The tail of a list with its new records goes into new pages of the landing zone: a partly filled page is rewritten whole (R290, R407). -/
def writeList (id vid l : Nat) (new : List Nat) (h : Hw) : Option Hw :=
  match volume h vid with
  | none => some h
  | some V =>
    let ps := tgetD V.dir l []
    let per := max 1 (pageRecords V)
    let tail : Option ListPage := (ps.getLast?).filter (fun (p : ListPage) => decide (p.n < per))
    let first := if tail.isSome then ps.length - 1 else ps.length
    let kept := match tail with
      | some p => (match p.loc with
        | .located _ sb pg _ => (listRecords V l first p.n ((dataPage h sb pg).getD { data := 0 }).data).getD []
        | _ => [])
      | none => []
    let recs := kept ++ new
    (List.range ((recs.length + per - 1) / per)).foldl (fun (h : Option Hw) i => h.bind (fun h =>
      match takeList ((l + first + i) % 64) true h with
      | none => none
      | some ((sb, j), h) =>
        let rs := (recs.drop (i * per)).take per
        let x : ListPage := { n := rs.length, loc := .located true sb j 0, seq := V.seq + 1 }
        some (lzWrite sb j (listData V l (first + i) (V.seq + 1) rs) [{ chg := .list vid l (first + i) x none, whom := .append id 0 }] h))) (some h)

/-- Start an APPEND: its entries are applied in order up to the first that must stop, and everything they bring is on its way to flash. -/
def startAppend (s : Scan) (h : Hw) : Hw :=
  match volume h s.vol with
  | none => endScan s.id stUncorrectable (modScan s.id (fun s => { s with started := true }) h)
  | some V =>
    if h.mdm.readOnly then endScan s.id stCapacity (modScan s.id (fun s => { s with started := true }) h) else
    let cb := vecOf true (readAt h s.ctx s.th.g (s.addr 32) (2 ^ V.bits * V.dim * 2)).1 (2 ^ V.bits * V.dim)
    let a := (List.range s.count).foldl (fun a i => applyEntry h V s cb i a) ({ tombs := V.tombs } : Gather)
    let h0 := { h with free := h.free + s.count + V.m * 2 ^ V.bits + 1 }
    match a.adds.foldl (fun (h : Option Hw) (e : Nat × List Nat) => h.bind (writeList s.id s.vol e.1 e.2)) (some h0) with
    | none => h
    | some h =>
      let h := if a.tombs = V.tombs then h else addRec { chg := .tombs s.vol a.tombs, whom := .append s.id 0 } h
      modScan s.id (fun x => { x with started := true, target := a.outs.length, outRecs := a.outs, status := if a.stop then stPartial else stOk }) h

/-- SCAN_START (R299): the first queued scan starts once contexts and table slots are free on every LPU; its pages are asked of the dies in
class B. -/
def scanStart (h : Hw) : Hw :=
  match nextScan h with
  | none => h
  | some s =>
    match s.kind with
    | 3 => startAppend s h
    | 2 => modScan s.id (fun s => { s with started := true }) h
    | 1 =>
      if 64 ≤ lpuContexts h then h else
      (match (ctx h s.ctx).objs.find? (fun o => o.handle = addrHandle (s.addr 16)) with
       | none => h
       | some o =>
         let off := addrOff (s.addr 16)
         let n := (off % 4096 + s.count * s.recBytes + 4095) / 4096
         let h := modScan s.id (fun s => { s with started := true, vol := o.bindId, pages := (List.range n).map (fun i => (0, i, 0)) }) h
         (List.range n).foldl (fun h i =>
           match unitEnt h.mdm.map o.bindId (o.bindOff + off / 4096 + i) with
           | .located z sb pg u => readEnt (.located z sb pg u) [u] 1 (.scan s.id i) h
           | _ => scanPage s.id i (some 0) h) h)
    | _ =>
      if 64 ≤ lpuContexts h ∨ 256 < lpuSlots h + scanSlots s then h else
      let ps := scanPages h s
      let lpus := (List.range 16).foldl (fun (t : Tbl Word) l => tput t l 0) []
      let h := modScan s.id (fun s => { s with started := true, pages := ps, qs := s.qs.map (fun q => { q with lpuT := lpus.map (fun e => (e.1, q.thresh)) }) }) h
      let h := (List.range 16).foldl (fun h l => lndSend l false 1 (s.tabs.length) (lndSend l false 0 1 h)) h
      (List.range ps.length).foldl (fun h i =>
        let x := (ps[i]?).getD (0, 0, 0)
        readEnt (listEnt h.mdm.map s.vol x.1 x.2.1) (List.range 8) 1 (.scan s.id i) h) h

/-! ## The landing units (R295, R300 to R303, R311, R313) -/

/-- The codes of a record. -/
def codesOf (V : Volume) (r : Nat) : List Nat := (List.range V.m).map (fun i => r / 2 ^ (V.bits * i) % 2 ^ V.bits)

/-- The sum of a record over a table (R295). -/
def recSum (t : Nat) (V : Volume) (r : Nat) : Nat :=
  let eb := if fldOf t 10 1 = 1 then 2 else 1
  ((List.range V.m).zip (codesOf V r)).foldl (fun n p => n + fldOf t (16 + (p.1 * 2 ^ V.bits + p.2) * eb) eb) 0

/-- The key of a sum: SCALE × sum + BIAS, fused and rounded once (R295). -/
def recKey (t sum : Nat) : Word := f32Fma (BitVec.ofNat 32 (fldOf t 0 4)) (f32OfInt sum) (BitVec.ofNat 32 (fldOf t 4 4))

/-- Keep the smallest `k` of a list of sums. -/
def keepSums (k x : Nat) (l : List Nat) : List Nat :=
  let l := (l.takeWhile (fun y => decide (y ≤ x))) ++ [x] ++ (l.dropWhile (fun y => decide (y ≤ x)))
  l.take k

/-- The place of a key in ascending order, both zeros in one place (R77). -/
def keyRank (w : Word) : Nat := if w.toNat < 2 ^ 31 then 2 ^ 31 + w.toNat else 2 ^ 32 - w.toNat

/-- What a local keeper orders a sum by: the sum; for a RESIDUAL scan, whose tables differ from list to list, its key first, or the keeper
would drop what R304 promises (log 71). -/
def localOrder (s : Scan) (t sum : Nat) : Nat := if s.residual then keyRank (recKey t sum) * 2 ^ 32 + sum else sum

/-- One record compared for a query (R295, R301, R303): the survivor, if it passes the landing's threshold and its local bound. -/
def lpuCompare (h : Hw) (s : Scan) (V : Volume) (l tab list : Nat) (qi : Nat) (r : Nat) (q : ScanQ) : ScanQ × Option Surv :=
  if q.ended then (q, none) else
  let t := (s.tabs[tab]?).getD 0
  let sum := recSum t V r
  let local_ := tgetD q.localKeep l []
  let on := s.auto && h.probe.localKeepEn
  let bound := on && decide (s.keep ≤ 1024) && decide (min s.keep 1024 ≤ local_.length) && decide ((local_.getLast?).getD 0 < localOrder s t sum)
  let q := { q with scanned := satAdd 32 q.scanned 1 }
  if bound || !f32Le (recKey t sum) (tgetD q.lpuT l 0) then (q, none)
  else
    let q := if on then { q with localKeep := tput q.localKeep l (keepSums (min s.keep 1024) (localOrder s t sum) local_) } else q
    (q, some { lpu := l, q := qi, sum, aux := qi * 2 ^ 29 + list, id := r / 256 ^ codeBytes V % 256 ^ 8, raw := tab })

/-- A clause holds for a record (R311). -/
def clauseHolds (cl r : Nat) : Bool :=
  let w := 2 ^ fldOf cl 2 1
  let x := fldOf r (fldOf cl 0 2) w
  let v := fldOf cl 8 8
  let op := fldOf cl 3 1 % 8
  let sg := (fldOf cl 3 1).testBit 7
  let lt := fun (a b : Nat) => if sg then
      decide ((BitVec.ofNat (8 * w) a).toInt < (BitVec.ofNat 64 b).toInt) else decide (a < b)
  let gt := fun (a b : Nat) => if sg then
      decide ((BitVec.ofNat 64 b).toInt < (BitVec.ofNat (8 * w) a).toInt) else decide (b < a)
  match op with
  | 0 => if sg then (BitVec.ofNat (8 * w) x).signExtend 64 == BitVec.ofNat 64 v || x == v else x == v
  | 1 => !(if sg then (BitVec.ofNat (8 * w) x).signExtend 64 == BitVec.ofNat 64 v || x == v else x == v)
  | 2 => lt x v
  | 3 => !gt x v
  | 4 => gt x v
  | 5 => !lt x v
  | 6 => x &&& v != 0
  | _ => x &&& v == 0

/-- Counters of an LPU (R316). -/
def lpuCount (l recs survs : Nat) (h : Hw) : Hw :=
  let a := tgetD h.probe.records l 0
  let b := tgetD h.probe.survivors l 0
  let h := saturated 32 (0x208004 + l * 0x10000) a (satAdd 32 a recs) h
  let h := saturated 32 (0x208008 + l * 0x10000) b (satAdd 32 b survs) h
  modProbe (fun P => { P with records := tput P.records l (satAdd 32 a recs), survivors := tput P.survivors l (satAdd 32 b survs) }) h

/-- A page that no tier could read ends the scan for every query (R306). -/
def scanMedia (id : Nat) (h : Hw) : Hw :=
  modScan id (fun s => { s with qs := s.qs.map (fun q => if q.ended then q else { q with media := true, ended := true }) }) h

/-- LPU_PAGE_SCAN (R288, R300, R301, R303, R313): a page that has left the dies is scanned by its landing's unit, and the survivors of each query
are queued. -/
def lpuPageScan (id i : Nat) (h : Hw) : Hw :=
  match scanOf h id with
  | none => h
  | some s =>
    match s.arrived.find? (fun a => a.1 = i), s.pages[i]? with
    | some (_, data), some (l, p, n) =>
      if s.ended then h else
      let drop := fun (h : Hw) => modScan id (fun s => { s with arrived := s.arrived.filter (fun a => a.1 ≠ i), scannedPages := s.scannedPages + 1 }) h
      if s.kind = 0 then
        (match volume h s.vol with
         | none => scanMedia id (drop h)
         | some V =>
           match data.bind (listRecords V l p n) with
           | none => scanMedia id (drop h)
           | some recs =>
             let lpu := (l + p) % 64 / 4
             let li := s.lists.findIdx (fun x => x == l)
             let run := (List.range s.qs.length).map (fun qi =>
               let tab := if s.residual then qi * s.lists.length + li else qi
               let q0 := (s.qs[qi]?).getD {}
               recs.foldl (fun (x : ScanQ × List Surv) r =>
                 let (q, sv) := lpuCompare h s V lpu tab l qi r x.1
                 (q, x.2 ++ sv.toList)) (if q0.ended then q0 else { q0 with pages := q0.pages + 1 }, []))
             let survs := run.flatMap (fun x => x.2)
             let h := lndSend lpu true 2 ((16 * survs.length + 143) / 144) (lpuCount lpu recs.length survs.length h)
             modScan id (fun s => { s with qs := run.map (fun x => x.1), survs := s.survs ++ survs }) (drop h))
      else if s.recDone.contains i then h else
        let mark := fun (h : Hw) => modScan id (fun s => { s with recDone := i :: s.recDone, scannedPages := s.scannedPages + 1 }) h
        (match data, (if i = 0 then some (0, some 0) else s.arrived.find? (fun a => a.1 = i - 1)) with
         | none, _ => scanMedia id (mark h)
         | some d, prev =>
           let off := addrOff (s.addr 16) % 4096
           let mine := (List.range s.count).filter (fun r => (off + (r + 1) * s.recBytes - 1) / 4096 = i)
           let straddles := mine.any (fun r => decide (off + r * s.recBytes < 4096 * i))
           match straddles, prev with
           | true, none => h
           | true, some (_, none) => scanMedia id (mark h)
           | _, _ =>
             let before : Nat := match prev with | some (_, some b) => b | _ => 0
             let two := before + 256 ^ 4096 * d
             let recs := mine.map (fun r => fldOf two (4096 + off + r * s.recBytes - 4096 * i) s.recBytes)
             let cls := clausesOf h s.ctx s.th.g s
             let pass := recs.filter (fun r => cls.all (fun cl => clauseHolds cl r))
             let survs := pass.map (fun r => ({ lpu := 0, q := 0, sum := 0, aux := 0, id := 0, raw := r % 256 ^ s.proj } : Surv))
             let up := fun (q : ScanQ) => if q.ended then q else { q with scanned := satAdd 32 q.scanned recs.length, pages := q.pages + 1 }
             modScan id (fun s => { s with qs := s.qs.map up, survs := s.survs ++ survs }) (mark h))
    | _, _ => h

/-- Keep the smallest `k` keys in ascending order. -/
def keepKeys (k : Nat) (x : Word) (l : List Word) : List Word :=
  ((l.takeWhile (fun y => !f32Lt x y)) ++ [x] ++ (l.dropWhile (fun y => !f32Lt x y))).take k

/-- SURVIVOR_ARRIVAL (R291, R301, R302, R305, R306): the `k`-th survivor in transit reaches the die side; unless it is tombstoned or its query
has ended it is written, late when its key is above the query's threshold; the keeper may tighten the threshold; a full region ends the
query. -/
def survivorArrival (id k : Nat) (h : Hw) : Hw :=
  match scanOf h id with
  | none => h
  | some s =>
    match s.survs[k]?, s.qs[((s.survs[k]?).map (fun (v : Surv) => v.q)).getD 0]? with
    | some v, some q =>
      let h := modScan id (fun s => { s with survs := s.survs.eraseIdx k }) h
      if q.ended || s.ended then h else
      let key := recKey ((s.tabs[v.raw]?).getD 0) v.sum
      let tomb := s.kind = 0 && (match volume h s.vol with | some V => V.tombs.contains v.id | none => false)
      if tomb then modQuery id v.q (fun q => { q with tombed := q.tombed + 1 }) h
      else if s.cap ≤ q.written then modQuery id v.q (fun q => { q with full := true, ended := true }) h
      else
        let data := if s.kind = 0 then key.toNat + v.aux * 256 ^ 4 + v.id * 256 ^ 8 else v.raw
        let a := addrOff (s.region v.q) + 64 + q.written * s.outBytes
        let (h, lost) := storeObj s.ctx s.th.g (s.region v.q) (bytesAt a s.outBytes data) h
        let h := if lost then noteFailure s.th stUncorrectable h else h
        let late := s.kind = 0 && f32Lt q.thresh key
        let h := if late then saturated 32 0x80008 h.probe.late (satAdd 32 h.probe.late 1) (modProbe (fun P => { P with late := satAdd 32 P.late 1 }) h) else h
        let keeper := if s.auto && s.kind = 0 then keepKeys s.keep key q.keeper else q.keeper
        let q := { q with
          written := q.written + 1
          late := q.late + bit late
          keeper
          full := decide (s.cap ≤ q.written + 1)
          ended := decide (s.cap ≤ q.written + 1) }
        let q := if s.auto && s.kind = 0 && decide (keeper.length = s.keep) then offer ((keeper.getLast?).getD q.thresh) q else q
        collectWake id (modQuery id v.q (fun _ => q) h)
    | _, _ => h

/-- TIGHTEN_NS as taken, in 10 ns (R316). -/
def tightenCounts (P : Probe) : Nat := max 100 P.tightenNs / 10

/-- THRESHOLD_SEND (R302): a query's tighter threshold goes to all sixteen LPUs, at most once per TIGHTEN_NS. -/
def thresholdSend (id q : Nat) (h : Hw) : Hw :=
  match scanOf h id with
  | none => h
  | some s =>
    match s.qs[q]? with
    | none => h
    | some x =>
      let early := match x.lastSent with | some t => decide (now h - t < tightenCounts h.probe) | none => false
      if !x.dirty || early || !s.started || s.ended then h else
      let h := (List.range 16).foldl (fun h l => lndSend l false 0 1 h) h
      modQuery id q (fun x => { x with dirty := false, lastSent := some (now h), sent := (List.range 16).map (fun l => (l, x.thresh)) }) h

/-- THRESHOLD_APPLY (R302): an LPU applies the threshold it received from its next record. -/
def thresholdApply (id q l : Nat) (h : Hw) : Hw :=
  modQuery id q (fun x => match tget x.sent l with
    | some t => { x with lpuT := tput x.lpuT l t, sent := tdel x.sent l }
    | none => x) h

/-- FILTER (R312): candidates in order until K pass; rejected ones are counted; too few are made up with sentinels. -/
def filterRun (s : Scan) (h : Hw) : Hw :=
  let c := s.ctx
  let g := s.th.g
  let cls := clausesOf h c g s
  let ab := fldOf s.hdr 56 4
  let mask := fldOf s.hdr 60 4
  let attr := fun (id : Nat) =>
    let off := (id &&& mask) * ab
    match (ctx h c).objs.find? (fun o => o.handle = addrHandle (s.addr 24)) with
    | none => (0, false)
    | some o =>
      if o.tier ≠ 3 then readAt h c g (mkAddr o.handle (addrOff (s.addr 24) + off)) ab else
      let a := addrOff (s.addr 24) + off
      let us := (List.range ((a % 4096 + ab + 4095) / 4096)).map (fun i => entUnit h (unitEnt h.mdm.map o.bindId (o.bindOff + a / 4096 + i)))
      (us.foldr (fun (x : Nat × Bool) (acc : Nat) => x.1 + 256 ^ 4096 * acc) 0 / 256 ^ (a % 4096) % 256 ^ ab, us.any (fun (x : Nat × Bool) => x.2))
  let step := fun (x : List Nat × Nat × Bool × Nat) (i : Nat) =>
    let (out, rej, bad, seen) := x
    if bad || decide (s.k ≤ out.length) then x else
    let (r, b0) := readAt h c g (s.addr 16 + BitVec.ofNat 64 (16 * i)) 16
    if b0 then (out, rej, true, seen) else
    if r / 256 ^ 8 = 2 ^ 64 - 1 then x else
    let (v, b) := attr (r / 256 ^ 8)
    if b then (out, rej, true, seen)
    else if cls.all (fun cl => clauseHolds cl v) then (out ++ [r], rej, bad, seen + 1) else (out, rej + 1, bad, seen + 1)
  let (out, rej, bad, seen) := (List.range s.count).foldl step ([], 0, false, 0)
  let short := !bad && decide (out.length < s.k)
  let recs := out ++ (if short then List.replicate (s.k - out.length) sentinel else [])
  let a := addrOff (s.region 0) + 64
  let (h, lost) := storeObj c g (s.region 0) ((List.range recs.length).zip recs |>.flatMap (fun (p : Nat × Nat) => bytesAt (a + 16 * p.1) 16 p.2)) h
  let h := if lost then noteFailure s.th stUncorrectable h else h
  let h := modQuery s.id 0 (fun q => { q with written := out.length, filteredOut := rej, scanned := seen, media := bad, short }) h
  endScan s.id (if bad then stUncorrectable else stOk) h

/-- SCAN_END (R306, R312): every query of a scan has ended, or its last page is scanned and its last survivor written. -/
def scanEnd (id : Nat) (h : Hw) : Hw :=
  match scanOf h id with
  | none => h
  | some s =>
    if !s.started || s.ended || s.kind = 3 then h
    else if s.kind = 2 then filterRun s h
    else if s.qs.all (fun q => q.ended) || (decide (s.pages.length ≤ s.scannedPages) && s.survs.isEmpty) then
      endScan id (if s.qs.any (fun q => q.media) then stUncorrectable else if s.qs.any (fun q => q.full) then stPartial else stOk) h
    else h

/-- A record of this APPEND, or a page of it, is still on its way to flash. -/
def appendPending (h : Hw) (id : Nat) : Bool :=
  let mine := fun (r : JRec) => match r.whom with | .append i _ => i == id | _ => false
  h.mdm.lzPages.any (fun p => p.recs.any mine) || h.mdm.forming.any (fun P => P.recs.any mine)
    || h.mdm.journal.any (fun P => decide (h.mdm.jdone ≤ P.seq) && P.recs.any mine)

/-- APPEND_END (R289, R290): every applied entry is durable; one selection record for each is written to the result region. -/
def appendEnd (id : Nat) (h : Hw) : Hw :=
  match scanOf h id with
  | none => h
  | some s =>
    if !s.started || s.ended || s.kind ≠ 3 || appendPending h id then h else
    let a := addrOff (s.region 0) + 64
    let (h, lost) := storeObj s.ctx s.th.g (s.region 0) ((List.range s.outRecs.length).zip s.outRecs |>.flatMap (fun (p : Nat × Nat) => bytesAt (a + 16 * p.1) 16 p.2)) h
    let h := if lost then noteFailure s.th stUncorrectable h else h
    let h := modScan id (fun s => { s with applied := s.target }) h
    endScan id s.status (modQuery id 0 (fun q => { q with written := s.target, full := decide (s.status = stPartial) }) h)

def execPscan (th : Thr) (f : Fields) (s : State) : Host.Outcome State Fault Refusal := act (okThr th) (runIsa .pscan th f (pscanBody th f)) s
def execPcollect (th : Thr) (f : Fields) (s : State) : Host.Outcome State Fault Refusal := act (okThr th) (runIsa .pcollect th f (pcollectBody th f)) s
def execScanStart (s : State) : Host.Outcome State Fault Refusal := act true scanStart s
def execLpuPageScan (id i : Nat) (s : State) : Host.Outcome State Fault Refusal := act true (lpuPageScan id i) s
def execSurvivorArrival (id k : Nat) (s : State) : Host.Outcome State Fault Refusal := act true (survivorArrival id k) s
def execThresholdSend (id q : Nat) (s : State) : Host.Outcome State Fault Refusal := act true (thresholdSend id q) s
def execThresholdApply (id q l : Nat) (s : State) : Host.Outcome State Fault Refusal := act (decide (l < 16)) (thresholdApply id q l) s
def execScanEnd (id : Nat) (s : State) : Host.Outcome State Fault Refusal := act true (scanEnd id) s
def execAppendEnd (id : Nat) (s : State) : Host.Outcome State Fault Refusal := act true (appendEnd id) s

end Sys2Proof.Machine
end

