-- ==== Sys2Proof/Machine/Boot.lean ====
section
/-!
DEFINITION. Critical words and VOTE_SPLIT (16 R439 to R441), the OTP rows (14 R394, R395), firmware images, the boot record, boot and
trial boots (20 R519 to R527), overlays as they are applied (20 R530 to R535).
-/
namespace Sys2Proof.Machine

def modBoot (f : Boot → Boot) (h : Hw) : Hw := { h with boot := f h.boot }
def modWdn (f : Warden → Warden) (h : Hw) : Hw := { h with wdn := f h.wdn }

/-! ## Critical words (16 R439 to R441) -/

/-- The three ceilings as one word (16 R439). -/
def ceilings (h : Hw) : Nat := h.wdn.vcore.ceiling + 2 ^ 16 * h.wdn.vserdes.ceiling + 2 ^ 32 * h.wdn.vflash.ceiling

/-- The copies of a critical word, in the row order of the table: 0 boot record pointer, 1 map root, 2 partition table root, 3 ceilings,
4 OTP shadow. -/
def critNow (h : Hw) (w : Nat) : Crit :=
  match tget h.mdm.crit w with
  | some c => c
  | none => if w = 3 then { copies := List.replicate 3 (some (ceilings h)) } else {}

/-- A critical word written: its three copies, one after the other (16 R440). -/
def critSet (w v : Nat) (h : Hw) : Hw := modMdm (fun M => { M with crit := tput M.crit w { copies := [some v, some v, some v] } }) h

/-- VOTE_SPLIT (16 R441): every gallery grant is revoked and pulses are withheld until a module reset or power cycle. -/
def voteSplit (w : Nat) (h : Hw) : Hw :=
  if h.wdn.voteSplit then h
  else revokeAll (modDiu (fun d => { d with word := w }) (modWdn (fun x => { x with voteSplit := true }) h))

/-- CRITICAL_WORD_VOTE (16 R440): the copies listed in `bad` cannot be read. A single copy that disagrees is rewritten, counted and logged;
without a majority the module halts. -/
def critVote (w : Nat) (bad : List Nat) (h : Hw) : Hw :=
  let c := critNow h w
  let seen := (List.range 3).map (fun i => if bad.contains i then none else (c.copies[i]?).getD none)
  match majority { c with copies := seen } with
  | none => voteSplit w (modMdm (fun M => { M with crit := tput M.crit w { c with copies := seen } }) h)
  | some v =>
    let wrong := (seen.filter (fun x => x != some v)).length
    let h := critSet w v h
    if wrong = 0 then h else
    let n := satAdd 16 h.diu.corrected 1
    let h := saturated 16 0xA000C h.diu.corrected n h
    setDiuEvt 1 (modDiu (fun d => { d with corrected := n, word := w }) h)

/-- The row VOTE_SPLIT (16 R441): no two copies of a word agree. -/
def critSplit (w : Nat) (h : Hw) : Hw := if (majority (critNow h w)).isNone then voteSplit w h else h

/-- CRITICAL_WORD_WRITE (16 R440; 20 R522; 12 R318): the write under way reaches `n` verified copies before a reset can cut it. The new
value takes effect once copy 1 is verified. -/
def critWrite (w n : Nat) (h : Hw) : Hw :=
  let c := critNow h w
  match c.writing with
  | none => h
  | some v =>
    if h.wdn.voteSplit then h else
    let old := (majority c).getD 0
    let copies := (List.range 3).map (fun i => some (if i < n then v else old))
    let h := modMdm (fun M => { M with crit := tput M.crit w { copies } }) h
    if w = 0 then
      match h.boot.newRec with
      | some r => modBoot (fun b => { b with rec0 := if 2 ≤ n then r else b.rec0, newRec := none }) h
      | none => h
    else if w = 2 then
      match h.jst.newPart with
      | some (p, d, cmd) =>
        let h := modJst (fun j => { j with newPart := none, root := if 2 ≤ n then v else j.root }) h
        if 2 ≤ n then endCmd cmd stOk (modPart h p (fun P => { P with stored := d })) else h
      | none => h
    else h

/-- A new boot record begins to be written (20 R522). -/
def writeRec (r : BootRec) (h : Hw) : Hw :=
  let r := { r with gen := h.boot.rec0.gen + 1 }
  modMdm (fun M => { M with crit := tput M.crit 0 { critNow h 0 with writing := some r.gen } }) (modBoot (fun b => { b with newRec := some r }) h)

/-- A new boot record that the Warden itself writes while it boots. -/
def setRec (f : BootRec → BootRec) (h : Hw) : Hw :=
  let r := { f h.boot.rec0 with gen := h.boot.rec0.gen + 1 }
  critSet 0 r.gen (modBoot (fun b => { b with rec0 := r, newRec := none }) h)

/-! ## OTP rows (14 R394, R395) -/

/-- Text as bytes, padded with spaces (00 R2). -/
def ascii (t : String) (n : Nat) : Nat :=
  ((t.toList.map (fun (c : Char) => c.toNat)) ++ List.replicate (n - t.length) 0x20).foldr (fun (c a : Nat) => c + 256 * a) 0

/-- An authoritative row (R394): channel 0 and channel 32, target 0. -/
def otpAuth (d : Nat) : Bool := d = 0 || d = 256

/-- `n` unprogrammed bytes (log 45). -/
def unprogrammed (n : Nat) : Nat := if Config.otpOnes then 256 ^ n - 1 else 0

/-- A die's OTP row (R394), little-endian; `key` says whether ATTEST_KEY is shown or reads as zeros (R396). -/
def otpRow (h : Hw) (d : Nat) (key : Bool) : Nat :=
  let o := (die h d).otp
  let auth := otpAuth d
  let pos := d / 8 + d % 8 * 256
  let base := fun (k : Nat) => bytesOf [(0, 4, ascii "AOTP" 4), (4, 2, 0x0100), (6, 2, 0x4A71), (8, 16, Config.serial.toNat), (24, 2, pos),
    (26, 6, unprogrammed 6), (32, 66, k), (98, 30, unprogrammed 30), (128, 64, if auth then Config.fwKeyHash.toNat else unprogrammed 64)]
  let true_ := base (if auth then Config.attestKey.toNat else unprogrammed 66)
  let anti := if Config.otpOnes then 2 ^ 128 - 1 - o.anti.toNat else o.anti.toNat
  let whole := base (if !key then 0 else if auth then Config.attestKey.toNat else unprogrammed 66)
    + bytesOf [(192, 16, anti), (208, 4, if auth then crc32 true_ 192 else unprogrammed 4), (212, 3884, unprogrammed 3884)]
  o.bytes.foldl (fun (v : Nat) e =>
    if !key && decide (32 ≤ e.1) && decide (e.1 < 98) then v
    else v - v / 256 ^ e.1 % 256 * 256 ^ e.1 + e.2.toNat * 256 ^ e.1) whole

/-- Programmed steps of a row (R395). -/
def antiCount (h : Hw) (d : Nat) : Nat := ((List.range 127).filter (fun i => (die h d).otp.anti.getLsbD i)).length

/-- The row can be read and its IDCRC passes. -/
def otpGood (h : Hw) (d : Nat) : Bool := !(die h d).otp.bad && !dieDead h d

/-- Program the lowest unprogrammed step after `skip` that fail their verify (R395). -/
def progStep (skip : Nat) (a : BitVec 127) : BitVec 127 :=
  match ((List.range 127).filter (fun i => !a.getLsbD i))[skip]? with
  | some i => a ||| BitVec.ofNat 127 (2 ^ i)
  | none => a

def progRow (d skip : Nat) (h : Hw) : Hw := modDie d (fun D => { D with otp := { D.otp with anti := progStep skip D.otp.anti } }) h

/-- The count in effect: the larger of the readable rows' (R395). -/
def antiNow (h : Hw) : Nat :=
  max (if otpGood h 0 then antiCount h 0 else 0) (if otpGood h 256 then antiCount h 256 else 0)

/-- ANTIROLL_ADVANCE (R395; 20 R526): one step in the row on channel 0, then in the row on channel 32; `f0` and `f32` bits fail their
verify first. The counter saturates (00 R11). -/
def antiAdvance (f0 f32 : Nat) (h : Hw) : Hw :=
  if h.boot.antiTarget ≤ h.boot.anti ∨ 127 ≤ h.boot.anti ∨ h.wdn.voteSplit then h else
  let h := if otpGood h 0 then progRow 0 f0 h else h
  let h := if otpGood h 256 then progRow 256 f32 h else h
  modBoot (fun b => { b with anti := max b.anti (antiNow h) }) h

/-! ## Firmware images (20 R519 to R521) -/

def fwSlot (h : Hw) (k : Nat) : FwSlot := if k = 0 then h.boot.slotA else h.boot.slotB
def modSlotFw (k : Nat) (f : FwSlot → FwSlot) (h : Hw) : Hw :=
  modBoot (fun b => if k = 0 then { b with slotA := f b.slotA } else { b with slotB := f b.slotB }) h

/-- Bytes of a slot. -/
def fwBytes (h : Hw) (k off n : Nat) : Nat :=
  let page := fun (i : Nat) => (tget (fwSlot h k).data i).getD (Config.fwPage k i) % 256 ^ 4096
  let first := off / 4096
  (List.range ((off % 4096 + n + 4095) / 4096)).foldr (fun i a => page (first + i) + 256 ^ 4096 * a) 0 / 256 ^ (off % 4096) % 256 ^ n

def imageLen (h : Hw) (k : Nat) : Nat := fwBytes h k 8 4
def secVersion (h : Hw) (k : Nat) : Nat := if (fwSlot h k).shipped then Config.shippedSec.toNat else fwBytes h k 6 1
def fwVersion (h : Hw) (k : Nat) : Nat := if (fwSlot h k).shipped then Config.shippedVersion.toNat else fwBytes h k 16 16
def signKey (h : Hw) (k : Nat) : Nat := if (fwSlot h k).shipped then Config.shippedKey.toNat else fwBytes h k 32 133
def imageDigest (h : Hw) (k : Nat) : Nat := Config.sha512 (imageLen h k) (fwBytes h k 0 (imageLen h k))

/-- The image is authentic (R520); the image a module is shipped with is (log 46). -/
def authentic (h : Hw) (k : Nat) : Bool :=
  (fwSlot h k).shipped ||
  (fwBytes h k 0 4 == ascii "ACVF" 4 && fwBytes h k 4 2 == 0x0100 && decide (512 ≤ imageLen h k) && imageLen h k % 4096 == 0
    && decide (imageLen h k ≤ 67104768) && Config.sha512 133 (signKey h k) == Config.fwKeyHash.toNat
    && Config.sigOk (signKey h k) (imageDigest h k) (fwBytes h k (imageLen h k) 132))

/-- What is wrong with an image, as FAIL_CAUSE has it (R520, R522): 0 nothing, 1 not authentic, 2 rollback. -/
def imageFault (h : Hw) (k : Nat) : Nat :=
  if !authentic h k then 1 else if secVersion h k < h.boot.anti ∨ 127 < secVersion h k then 2 else 0

/-! ## Overlays (20 R530 to R535) -/

/-- An overlay image's TYPE and entries. -/
def ovParse (o : OvImage) : Overlay :=
  { ty := fldOf o.data 6 1, keys := (List.range (fldOf o.data 8 2)).map (fun i => (fldOf o.data (64 + 8 * i) 2, fldOf o.data (68 + 8 * i) 4)) }

/-- The overlay in a slot; none is the base configuration (R533). -/
def ovOf (h : Hw) (k : Nat) : Overlay := match tget h.boot.overlays k with
  | some o => ovParse o
  | none => {}

def Overlay.key (o : Overlay) (k : Nat) : Option Nat := (o.keys.find? (fun (e : Nat × Nat) => e.1 = k)).map (fun (e : Nat × Nat) => e.2)

/-- The fields of WDN_SLEEP_CTL from its word (02 R58): 0 in an idle field is taken as 1. -/
def setSleepCtl (v : Nat) (w : Warden) : Warden :=
  { w with
    s4en := v.testBit 31
    s3en := v.testBit 30
    s4idle := max 1 (v / 2 ^ 24 % 64)
    s3idle := max 1 (v / 2 ^ 12 % 4096)
    s2idle := max 1 (v % 4096) }

/-- CEILING as it is taken (02 R58). -/
def takeCeil (a v : Nat) : Nat := max (if a = 0 then 3000 else 0) (min v (capacity a))

/-- The module-scope keys applied over the base configuration (R532, R534); a LOWPOWER overlay sets the VCORE ceiling to 600 grains (02
R57). -/
def applyModule (o : Overlay) (h : Hw) : Hw :=
  let set := fun (k : Nat) (f : Nat → Hw → Hw) (h : Hw) => match o.key k with
    | some v => f v h
    | none => h
  let h := set 0x0001 (fun v => modWdn (fun w => { w with vcore := { w.vcore with ceiling := takeCeil 0 v } })) h
  let h := if o.ty = 5 then modWdn (fun w => { w with vcore := { w.vcore with ceiling := 6000 } }) h else h
  let h := set 0x0002 (fun v => modWdn (fun w => { w with opFloor := v })) h
  let h := set 0x0003 (fun v => modWdn (setSleepCtl v)) h
  let h := set 0x0030 (fun v => modProbe (fun p => { p with tightenNs := v })) h
  let h := set 0x0031 (fun v => modProbe (fun p => { p with localKeepEn := v = 1 })) h
  let h := set 0x0040 (fun v => modJst (fun j => { j with groupLimit := v })) h
  let h := set 0x0041 (fun v => modJst (fun j => { j with lendLimit := v })) h
  let h := set 0x0050 (fun v => modMdm (fun M => { M with foldS := v })) h
  let h := set 0x0051 (fun v => modMdm (fun M => { M with interval := v / 2 ^ 16, jmib := v % 2 ^ 16 })) h
  let h := set 0x0060 (fun v h => (List.range 16).foldl (fun h l => modLanding l (fun L => { L with
    calEn := v.testBit 31
    calWindow := v / 256 % 256
    calRate := v % 256 }) h) h) h
  critSet 3 (ceilings h) h

/-! ## Boot (20 R523 to R527) -/

/-- A trial boot has failed (R525): its slot is FAILED, the other is to be booted, and a critical event names the cause. -/
def trialFail (cause : Nat) (h : Hw) : Hw :=
  let k := h.boot.rec0.slot
  let h := setRec (fun r => { r with
    slot := 1 - k
    stA := if k = 0 then 3 else r.stA
    stB := if k = 1 then 3 else r.stB
    trials := 0
    fail := cause }) h
  raiseEvent 0 (0x30 + cause) 2 k 0 (modBoot (fun b => { b with trial := false, trialFrom := none, fallback := true }) h)

/-- STATE of a slot in the boot record. -/
def slotState (r : BootRec) (k : Nat) : Nat := if k = 0 then r.stA else r.stB

/-- Step 2 (R523; 14 R395): the authoritative rows are read; an unreadable one raises a health event; rows that disagree in a field other
than ANTIROLL (and DIE_POS, which tells them apart, with IDCRC) halt the module, and so does having none. -/
def bootOtp (h : Hw) : Hw :=
  let g0 := otpGood h 0
  let g1 := otpGood h 256
  let h := if g0 then h else raiseEvent 11 4 1 0 0 h
  let h := if g1 then h else raiseEvent 11 4 1 32 0 h
  let same := [(0, 24), (26, 166)].all (fun (x : Nat × Nat) => fldOf (otpRow h 0 true) x.1 x.2 == fldOf (otpRow h 256 true) x.1 x.2)
  if (!g0 && !g1) || (g0 && g1 && !same) then voteSplit 4 h else
  let n := antiNow h
  let raise := fun (d : Nat) (good : Bool) (h : Hw) => if !good then h else (List.range (n - antiCount h d)).foldl (fun h _ => progRow d 0 h) h
  let h := raise 256 g1 (raise 0 g0 h)
  critSet 4 (otpRow h (if g0 then 0 else 256) true % 256 ^ 256) (modBoot (fun b => { b with anti := n, stage := 2 }) h)

/-- Steps 4 and 5 (R523): the image of BOOT_SLOT is checked; one that is not valid makes its slot FAILED, and the other is tried when it is
VALID; with none, the module enters ROM service (R527). -/
def bootImage : Nat → Hw → Hw
  | 0, h => modBoot (fun b => { b with stage := 15, trial := false, trialFrom := none }) h
  | n + 1, h =>
    let k := h.boot.rec0.slot
    let trial := slotState h.boot.rec0 k = 2
    let h := if trial then setRec (fun r => { r with trials := min 2 (r.trials + 1) }) h else h
    let f := imageFault h k
    if f = 0 ∧ slotState h.boot.rec0 k ≠ 0 ∧ slotState h.boot.rec0 k ≠ 3 then
      modBoot (fun b => { b with stage := 5, run := k, trial }) h
    else
      let h := if trial then trialFail (max 1 f) h
        else setRec (fun r => { r with slot := 1 - k, stA := if k = 0 then 3 else r.stA, stB := if k = 1 then 3 else r.stB, fail := max 1 f }) h
      if slotState h.boot.rec0 (1 - k) = 1 then bootImage n h else bootImage 0 h

/-- Step 6 (R523, R534): the firmware starts; the base configuration and then the module overlay are applied. -/
def bootFirmware (h : Hw) : Hw :=
  let k := if (tget h.boot.overlays h.boot.rec0.ovl).isSome then h.boot.rec0.ovl else 0xFF
  let o := ovOf h k
  applyModule o (modBoot (fun b => { b with
    stage := 6, modOverlay := k, modCopy := o, trialFrom := if b.trial then some (now h) else none }) h)

/-- The default partition table (12 R321). -/
def defaultPart : PartDesc :=
  { wings := BitVec.allOnes 12, overlay := 0xFF, valid := true, work := 352 * 2 ^ 30, atrium := 256 * 2 ^ 20, vols := [(0xFFFFFFFE, 3)] }

/-- Step 8 (R523; 12 R321): the partition table's root is read, and every partition is to be reset. -/
def bootParts (h : Hw) : Hw :=
  match majority (critNow h 2) with
  | none => voteSplit 2 h
  | some v =>
    let h := if v != 0 then h else
      critSet 2 1 (modJst (fun j => { j with root := 1 })
        ((List.range 8).foldl (fun h p => modPart h p (fun P => { P with stored := if p = 0 then defaultPart else {} })) h))
    modBoot (fun b => { b with stage := 7, partDue := List.range 8 }) h

/-- Step 9 (R523, R525, R526, R528; 21 R553): the module is ready; a trial has succeeded; a FW_COMMIT that waited for it completes; the events of
module resets are raised. -/
def bootReady (h : Hw) : Hw :=
  let h := h.boot.told.foldl (fun h c => raiseEvent 0 (0x20 + c) 2 0 0 h) h
  let h := if h.boot.trial then
      let k := h.boot.run
      let h := setRec (fun r => { r with stA := if k = 0 then 1 else r.stA, stB := if k = 1 then 1 else r.stB, trials := 0 }) h
      modBoot (fun b => { b with trial := false, trialFrom := none, fallback := false, antiTarget := max b.antiTarget (secVersion h k) }) h
    else h
  let h := match h.boot.commit with
    | some cmd => endCmd cmd (if h.boot.fallback then stFwInvalid else stOk) h
    | none => h
  modWdn (fun w => { w with ready := true }) (modBoot (fun b => { b with stage := 9, told := [], again := false, commit := none }) h)

/-- One step of the boot, when what it waits for has happened. -/
def bootStep (h : Hw) : Hw :=
  if !h.wdn.power || h.boot.pinLow || h.wdn.voteSplit then h else
  match h.boot.stage with
  | 0 => modBoot (fun b => { b with stage := 1 }) h
  | 1 => bootOtp h
  | 2 => (match majority (critNow h 0) with
    | none => voteSplit 0 h
    | some _ => modBoot (fun b => { b with stage := 3 }) (critVote 0 [] h))
  | 3 => bootImage 2 h
  | 5 => bootFirmware h
  | 6 => if h.mdm.recovering then h else bootParts h
  | 7 => if h.boot.partDue ≠ [] then h else modBoot (fun b => { b with stage := 8 }) h
  | 8 => bootReady h
  | _ => h

/-- BOOT (R523): the Warden boots as far as it can; it waits for MDM_RECOVERY at step 7 and for a PARTITION_RESET of every partition at step
8. -/
def bootRun (h : Hw) : Hw := (List.range 9).foldl (fun h _ => bootStep h) h

def execCriticalWordVote (w : Nat) (bad : List Nat) (s : State) : Host.Outcome State Fault Refusal := act (decide (w < 5)) (critVote w bad) s
def execCriticalWordWrite (w n : Nat) (s : State) : Host.Outcome State Fault Refusal := act (decide (w < 5) && decide (n ≤ 3)) (critWrite w n) s
def execVoteSplit (w : Nat) (s : State) : Host.Outcome State Fault Refusal := act (decide (w < 5)) (critSplit w) s
def execAntirollAdvance (f0 f32 : Nat) (s : State) : Host.Outcome State Fault Refusal := act true (antiAdvance f0 f32) s
def execBoot (s : State) : Host.Outcome State Fault Refusal := act true bootRun s

end Sys2Proof.Machine
end

