-- ==== Sys2Proof/Machine/Partition.lean ====
section
/-!
DEFINITION. Manifests (04 R118 to R121), admission (12 R323), the job commands (18 R483 to R485), the partition table and partition resets
(12 R317 to R321, R336 to R338; 07 R220 to R223; 13 R361, R362).
-/
namespace Sys2Proof.Machine

/-! ## Manifests (04 R118 to R121) -/

def isPow2In (n lo hi : Nat) : Bool := isPow2 n && decide (lo ≤ n) && decide (n ≤ hi)
def up64 (n : Nat) : Nat := (n + 63) / 64 * 64

/-- An object entry of a manifest (R119). -/
def manObj (d off : Nat) : Obj :=
  let acc := fldOf d (off + 3) 1
  let fl := fldOf d (off + 4) 4
  { handle := fldOf d off 2, tier := fldOf d (off + 2) 1, r := acc.testBit 0, w := acc.testBit 1, x := acc.testBit 2, zero := fl.testBit 0
    inp := fl.testBit 1, outp := fl.testBit 2, size := fldOf d (off + 8) 8, bindId := fldOf d (off + 16) 4, bindOff := fldOf d (off + 24) 8 }

/-- The entry's fields are in range and its reserved fields zero (R119, R121). -/
def manObjOk (d off : Nat) : Bool :=
  let o := manObj d off
  decide (1 ≤ o.handle) && decide (o.handle ≤ 0xFFF) && decide (o.tier ≤ 4) && decide (fldOf d (off + 3) 1 < 8) && decide (fldOf d (off + 4) 4 < 8)
    && decide (1 ≤ o.size) && decide (o.size ≤ 2 ^ 48) && fldOf d (off + 20) 4 == 0
    && (o.tier == 3 || (o.tier == 4 && decide (o.bindId < 2 ^ 14)) || (o.bindId == 0 && o.bindOff == 0))
    && (!o.x || o.tier == 1 || o.tier == 2) && !(o.tier == 3 && o.w)

/-- An entry-point entry (R120). -/
def manEntry (d off : Nat) : Entry := { handle := fldOf d off 2, first := fldOf d (off + 2) 1, count := fldOf d (off + 3) 1, off := fldOf d (off + 8) 8 }

/-- Objects in ascending handle order, each placed in its tier's share at the next 64-byte boundary (13 R352). -/
def placeObjs (l : List Obj) : List Obj :=
  let ins := fun (l : List Obj) (o : Obj) => l.takeWhile (fun x => decide (x.handle < o.handle)) ++ [o] ++ l.dropWhile (fun x => decide (x.handle < o.handle))
  (l.foldl ins []).foldl (fun (acc : List Obj) o =>
    acc ++ [{ o with place := (acc.filter (fun x => x.tier = o.tier)).foldl (fun n x => n + up64 x.size) 0 }]) []

def tierBytes (l : List Obj) (t : Nat) : Nat := (l.filter (fun o => o.tier = t)).foldl (fun n o => n + up64 o.size) 0

/-- The context that a manifest describes; none when it breaks R121. -/
def manifestOf (d len : Nat) : Option Context :=
  let oc := fldOf d 6 2
  let ec := fldOf d 8 1
  let objs := (List.range oc).map (fun i => manObj d (64 + 32 * i))
  let ents := (List.range ec).map (fun i => manEntry d (64 + 32 * oc + 16 * i))
  let fl := fldOf d 11 1
  let cx : Context := { cls := fldOf d 9 1, threads := fldOf d 10 1, needsTrain := fl.testBit 0, needsDebug := fl.testBit 1, minGal := fldOf d 12 2
                        sems := fldOf d 14 2, bayBytes := fldOf d 16 8, atrBytes := fldOf d 24 8, workBytes := fldOf d 32 8
                        poolPages := fldOf d 40 4, poolPageBytes := fldOf d 44 4, credits := fldOf d 48 2, objs := placeObjs objs, entries := ents }
  let entOk := fun (i : Nat) =>
    let e := (ents[i]?).getD { handle := 0, first := 0, count := 0, off := 0 }
    decide (e.first < cx.threads) && decide (1 ≤ e.count) && decide (e.first + e.count ≤ cx.threads) && e.off % 8 == 0
      && fldOf d (64 + 32 * oc + 16 * i + 4) 4 == 0 && objs.any (fun o => o.handle == e.handle && o.x && decide (e.off < o.size))
      && (List.range i).all (fun j => match ents[j]? with
        | some f => decide (f.first + f.count ≤ e.first) || decide (e.first + e.count ≤ f.first)
        | none => true)
  let ok := decide (64 ≤ len) && len == 64 + 32 * oc + 16 * ec && fldOf d 0 4 == ascii "ACVM" 4 && fldOf d 4 2 == 0x0100
    && decide (1 ≤ oc) && decide (oc ≤ 4095) && decide (1 ≤ ec) && decide (ec ≤ 16) && decide (cx.cls ≤ 3) && decide (1 ≤ cx.threads)
    && decide (cx.threads ≤ 64) && decide (fl < 4) && decide (8 ≤ cx.minGal) && decide (cx.minGal ≤ 96) && cx.minGal % 8 == 0
    && decide (cx.sems ≤ 256) && cx.bayBytes % 4096 == 0 && decide (cx.bayBytes ≤ 12582912) && cx.atrBytes % 4096 == 0
    && decide (cx.atrBytes ≤ 268435456) && cx.workBytes % 2097152 == 0 && decide (cx.workBytes ≤ 352 * 2 ^ 30)
    && (if cx.poolPages = 0 then cx.poolPageBytes == 0 else isPow2In cx.poolPageBytes 4096 2097152) && fldOf d 50 14 == 0
    && (List.range oc).all (fun i => manObjOk d (64 + 32 * i))
    && (List.range oc).all (fun i => (List.range i).all (fun j => (objs[i]?).map (fun o => o.handle) != (objs[j]?).map (fun o => o.handle)))
    && decide (tierBytes objs 0 ≤ cx.bayBytes) && decide (tierBytes objs 1 ≤ cx.atrBytes) && decide (tierBytes objs 2 ≤ cx.workBytes)
    && (List.range ec).all entOk
  if ok then some cx else none

/-! ## Admission (12 R323) -/

/-- The first multiple of `step` from 0 at which `n` places below `limit` avoid every range in use. -/
def firstFit (used : List (Nat × Nat)) (step n limit : Nat) : Option Nat :=
  if n = 0 then some 0 else
  let free := fun (a : Nat) => decide (a + n ≤ limit) && used.all (fun r => decide (r.1 + r.2 ≤ a) || decide (a + n ≤ r.1))
  let cand := 0 :: used.map (fun r => (r.1 + r.2 + step - 1) / step * step)
  cand.foldl (fun (b : Option Nat) a => if free a then some (match b with | some x => min x a | none => a) else b) none

/-- The wanted place when it is free, else the lowest. -/
def keepFit (want : Option Nat) (used : List (Nat × Nat)) (step n limit : Nat) : Option Nat :=
  match want with
  | some a => if decide (a + n ≤ limit) && used.all (fun r => decide (r.1 + r.2 ≤ a) || decide (a + n ≤ r.1)) then some a else firstFit used step n limit
  | none => firstFit used step n limit

/-- The partition's right to read a volume (12 R317, R321). -/
def mayReadVol (h : Hw) (p v : Nat) : Bool := (part h p).inEff.vols.any (fun e => (e.1 = v || e.1 = 0xFFFFFFFE) && e.2.testBit 0)

/-- The checks of admission in their order, for context number `c` with the places it had (`keep`) or new ones: the admitted context, or
the reason code (12 R323). -/
def admission (h : Hw) (c : Nat) (cx : Context) (keep : Bool) : Except Nat Context :=
  let p := c / 4
  let P := part h p
  let others := ((List.range 4).map (fun i => 4 * p + i)).filter (fun x => x ≠ c && (ctx h x).st != .free && (!keep || decide (x < c)))
  let oc := others.map (ctx h)
  let want := fun (a : Nat) => if keep then some a else none
  if !P.inEff.valid || decide ((partGals h p).length < cx.minGal) then .error 0x02
  else if (cx.needsTrain && P.ovl.ty != 4) || (cx.needsDebug && P.ovl.ty != 8) then .error 0x03
  else match keepFit (want cx.first) (oc.map (fun x => (x.first, x.threads))) 1 cx.threads 64 with
  | none => .error 0x04
  | some first =>
    match keepFit (want cx.bayBase) (oc.map (fun x => (x.bayBase, x.bayBytes))) 4096 cx.bayBytes 12582912 with
    | none => .error 0x05
    | some bay =>
      match keepFit (want cx.atrBase) (oc.map (fun x => (x.atrBase, x.atrBytes))) 4096 cx.atrBytes P.inEff.atrium with
      | none => .error 0x06
      | some atr =>
        if P.inEff.work < cx.workBytes + oc.foldl (fun n x => n + x.workBytes) 0 then .error 0x07
        else if 512 < cx.credits + ((List.range 32).filter (fun x => x ≠ c && (ctx h x).st != .free)).foldl (fun n x => n + (ctx h x).credits) 0 then .error 0x08
        else if cx.objs.any (fun o => o.tier = 3 && match volume h o.bindId with
            | some V => !mayReadVol h p o.bindId || decide (V.blocks * 4096 < o.bindOff * 4096 + o.size)
            | none => true) then .error 0x09
        else .ok { cx with first, bayBase := bay, atrBase := atr }

/-- Frames in use by contexts. -/
def framesUsed (h : Hw) : List Nat := h.ctx.flatMap (fun e => if e.2.st = .free then [] else e.2.frames)

/-- Frames for a work share: the lowest that are free (13 R348; log 48). -/
def takeFrames (h : Hw) (n : Nat) : List Nat :=
  let used := framesUsed h
  ((List.range (n + used.length)).filter (fun f => !used.contains f)).take n

/-- The instances of an object: one in every bay, else one (04 R93). -/
def objGals (h : Hw) (c : Nat) (o : Obj) : List Nat := if o.tier = 0 then partGals h (c / 4) else if o.tier ≤ 2 then [0] else []

/-- Objects' instances that hold nothing yet have undefined contents (04 R123). -/
def freshObjs (c : Nat) (h : Hw) : Hw :=
  (ctx h c).objs.foldl (fun h o => (objGals h c o).foldl (fun h g =>
    if (tget h.mem (objKey c o g)).isSome then h else
    let (e, h) := freshEpoch h
    modMem h (objKey c o g) (fun _ => { zero := o.zero, epoch := e })) h) h

/-! ## The job commands (18 R483 to R485) -/

def Cmd.part (c : Cmd) : Nat := c.fld 24 1
def Cmd.ctxNo (c : Cmd) : Nat := 4 * c.fld 24 1 + c.fld 25 1
def isResetting (h : Hw) (p : Nat) : Bool := (part h p).resetting.isSome

/-- JOB_LOAD (12 R323; 18 R483). -/
def jobLoad (c : Cmd) (h : Hw) : Hw :=
  needFields c (c.zeros [(4, 4), (25, 39)] && decide (c.part < 8) && decide (64 ≤ c.dataLen)) (fun h =>
    if isResetting h c.part then endCmd c.id stBusy h else
    withData c c.dataLen (fun d h =>
      match manifestOf d c.dataLen with
      | none => endCmd c.id stInvalidField h
      | some cx =>
        let refuse := fun (r : Nat) => finishCmd c.id { status := stRefusedAdm, result := 256 * r } h
        match (List.range 4).find? (fun i => (ctx h (4 * c.part + i)).st = .free) with
        | none => refuse 0x01
        | some i =>
          let x := 4 * c.part + i
          match admission h x cx false with
          | .error r => refuse r
          | .ok cx =>
            let old := ctx h x
            let frames := takeFrames h (cx.workBytes / 2097152)
            let h := freshObjs x (modCtx h x (fun _ => { cx with st := .loaded, frames, lends := old.lends, timeouts := old.timeouts }))
            finishCmd c.id { status := stOk, result := i } h) h) h

/-- The progress record's object is fit (18 R484). -/
def progressOk (h : Hw) (x hd off : Nat) : Bool :=
  hd = 0 || (ctx h x).objs.any (fun o => o.handle = hd && (o.tier = 1 || o.tier = 2) && o.w && decide (off + 16 ≤ o.size))

/-- JOB_SUBMIT (12 R324, R325; 18 R483, R484). -/
def jobSubmit (c : Cmd) (h : Hw) : Hw :=
  if c.progress != 0 then h else
  let hd := c.fld 28 2
  let off := c.fld 32 8
  needFields c (c.zeros [(4, 4), (16, 4), (27, 1), (30, 2), (40, 24)] && decide (c.part < 8) && decide (c.fld 25 1 < 4) && off % 8 == 0) (fun h =>
    let x := c.ctxNo
    if isResetting h c.part then endCmd c.id stBusy h
    else if (ctx h x).st != .loaded then endCmd c.id stContextState h
    else if !progressOk h x hd off then endCmd c.id stInvalidField h
    else
      let n := (part h c.part).submits
      let h := setProgress c 1 (modPart h c.part (fun P => { P with submits := n + 1, schedDue := true }))
      startIncarnation x (modCtx h x (fun y => { y with
        submit := some { cmd := c.id, restartLimit := c.fld 26 1, progHandle := hd, progOff := off, order := n }, restarts := 0 }))) h

/-- JOB_CANCEL (12 R324, R329, R335, R338; 18 R483): an incarnation is stopped for its teardown; a LOADED context is freed with RELEASE. -/
def jobCancel (c : Cmd) (h : Hw) : Hw :=
  if c.progress != 0 then h else
  let rel := c.fld 26 1 == 1
  needFields c (c.zeros [(4, 4), (16, 4), (27, 37)] && decide (c.part < 8) && decide (c.fld 25 1 < 4) && decide (c.fld 26 1 < 2)) (fun h =>
    let x := c.ctxNo
    if isResetting h c.part then endCmd c.id stBusy h
    else match (ctx h x).st with
    | .free => endCmd c.id stContextState h
    | .loaded => endCmd c.id stOk (if rel then freeContext x h else h)
    | _ =>
      if (ctx h x).cancel.isSome then h else
      let h := modPart h c.part (fun P => { P with switch := match P.switch with
        | some s => if s.incoming = x % 4 then none else some s
        | none => none })
      let h := setProgress c 1 (modCtx h x (fun y => { y with cancel := some (c.id, rel) }))
      if (ctx h x).stopped then h else stopContext x { cause := cCancelled, gallery := 0, thread := 0, pc := 0 } h) h

/-- JST_CTX_STATE's STATE (12 R341). -/
def CtxSt.code : CtxSt → Nat
  | .free => 0 | .loaded => 1 | .queued => 2 | .running => 3 | .preempted => 4 | .resetting => 5

/-- JST_CTX_STATE of a context (12 R341). -/
def ctxStateWord (h : Hw) (x : Nat) : Nat :=
  let X := ctx h x
  let st := if isResetting h (x / 4) && X.st != .free then 5 else X.st.code
  let lent := (part h (x / 4)).lends.any (fun l => l.ctx = x)
  (if X.submit.isSome then min 255 X.restarts else 0) * 2 ^ 24 + X.first * 2 ^ 18 + X.threads * 2 ^ 11 + bit lent * 2 ^ 10 + X.cls * 2 ^ 8 + st

/-- JOB_STATUS (18 R483). -/
def jobStatus (c : Cmd) (h : Hw) : Hw :=
  needFields c (c.zeros [(4, 4), (26, 38)] && decide (c.part < 8) && decide (c.fld 25 1 < 4)) (fun h =>
    let x := c.ctxNo
    if (ctx h x).st = .free then endCmd c.id stContextState h else
    let (ck, rs) := match (ctx h x).submit with
      | some s => progressOf h x s.progHandle s.progOff
      | none => (0, 0)
    let f := (ctx h x).fault.getD { cause := 0, gallery := 0, thread := 0, pc := 0 }
    writeStruct c 64 (bytesOf [(0, 4, ctxStateWord h x), (8, 8, ck), (16, 8, rs), (24, 1, f.cause), (25, 1, f.gallery), (26, 1, f.thread), (28, 8, f.pc)]) h) h

/-! ## The partition table (12 R317, R318) -/

/-- A descriptor from its 128 bytes; none when a reserved field is not zero or a size is not the stated multiple (12 R317, R318). -/
def partDescOf (d : Nat) : Option PartDesc :=
  let ents := (List.range 8).map (fun i => (fldOf d (64 + 8 * i) 4, fldOf d (68 + 8 * i) 1))
  if fldOf d 0 2 < 4096 ∧ fldOf d 3 1 < 2 ∧ fldOf d 4 4 = 0 ∧ fldOf d 8 8 % 2097152 = 0 ∧ fldOf d 16 8 % 4096 = 0 ∧ fldOf d 24 40 = 0
      ∧ (fldOf d 2 1 < 8 ∨ fldOf d 2 1 = 0xFF) ∧ (List.range 8).all (fun i => fldOf d (69 + 8 * i) 3 == 0 && decide (fldOf d (68 + 8 * i) 1 < 4)) then
    some { wings := BitVec.ofNat 12 (fldOf d 0 2), overlay := fldOf d 2 1, valid := fldOf d 3 1 = 1, work := fldOf d 8 8, atrium := fldOf d 16 8
           vols := ents }
  else none

/-- What a descriptor reserves: nothing when it is not VALID (12 R318). -/
def PartDesc.reserve (d : PartDesc) (f : PartDesc → Nat) : Nat := if d.valid then f d else 0

/-- The checks of SET_FEATURE(PARTITION) (12 R318). -/
def partOk (h : Hw) (p : Nat) (d : PartDesc) : Bool :=
  let rest := (List.range 8).filter (fun q => q ≠ p)
  let sum := fun (f : PartDesc → Nat) =>
    rest.foldl (fun n q => n + max ((part h q).stored.reserve f) ((part h q).inEff.reserve f)) (max (d.reserve f) ((part h p).inEff.reserve f))
  let clash := rest.any (fun q => [(part h q).stored, (part h q).inEff].any (fun e => e.valid && (e.wings &&& d.wings) != 0))
  !clash && decide (sum (fun e => e.work) ≤ 352 * 2 ^ 30) && decide (sum (fun e => e.atrium) ≤ 256 * 2 ^ 20)
    && (d.overlay = 0xFF || (tget h.boot.overlays d.overlay).isSome)

/-- SET_FEATURE(PARTITION) (12 R318; 16 R439): the descriptor is stored once the partition table's root has been written. -/
def partitionSet (c : Cmd) (h : Hw) : Hw :=
  if h.jst.newPart.isSome then h else
  needFields c (c.zeros [(4, 4), (26, 38)] && decide (c.fld 25 1 < 8) && c.dataLen == 128) (fun h =>
    withData c 128 (fun d h =>
      match partDescOf d with
      | none => endCmd c.id stInvalidField h
      | some x =>
        if !partOk h (c.fld 25 1) x then endCmd c.id stInvalidField h else
        modMdm (fun M => { M with crit := tput M.crit 2 { critNow h 2 with writing := some (h.jst.root + 1) } })
          (modJst (fun j => { j with newPart := some (c.fld 25 1, x, c.id) }) h)) h) h

/-! ## Partition reset (12 R336 to R338) -/

/-- The self-test of a gallery (07 R220, R222, R223): `bad` are its columns that fail, `wit` that its witness fails. -/
def testGallery (g : Nat) (bad : List Nat) (wit : Bool) (h : Hw) : Hw :=
  let G := gal h g
  let again := match G.mismatch with
    | some c => if 2 ≤ tgetD G.mismatches c 0 then [c] else []
    | none => []
  let mask := (bad ++ again).foldl (fun (m : BitVec 128) i => m ||| BitVec.ofNat 128 (2 ^ i)) G.bypass
  let added := mask != G.bypass
  let h := if wit && !G.wdis then raiseEvent 11 1 1 g 0 h else h
  let t := if G.mismatch.isSome && !added then satAdd 8 G.transients 1 else G.transients
  let many := decide (16 < ((List.range 128).filter (fun i => mask.getLsbD i)).length)
  let h := modGal h g (fun G => { G with
    bypass := if many then G.bypass else mask
    wdis := G.wdis || wit
    transients := t
    mismatch := none
    partFault := false })
  if many then modWing h (g / 8) (fun W => { W with retired := true }) else h

/-- Galleries of a wing. -/
def wingGals (w : Nat) : List Nat := (List.range 8).map (fun i => 8 * w + i)

/-- A wing's test and what becomes of it (07 R220, R222, R223): `other` lists the galleries whose other parts fail. -/
def testWing (w : Nat) (bad : List (Nat × Nat)) (wit other : List Nat) (h : Hw) : Hw :=
  let badOf := fun (g : Nat) => (bad.filter (fun x => x.1 = g)).map (fun x => x.2)
  let one := fun (h : Hw) (g : Nat) => testGallery g (badOf g) (wit.contains g) h
  if (wing h w).retired then
    if !(wing h w).restore then h else
    let few := (wingGals w).all (fun g => decide (((List.range 128).filter (fun i => (gal h g).bypass.getLsbD i || (badOf g).contains i)).length ≤ 16))
    if few && !(wingGals w).any (fun g => other.contains g) then
      (wingGals w).foldl one (modWing h w (fun W => { W with retired := false, restore := false, retire := false }))
    else modWing h w (fun W => { W with restore := false })
  else
    let h := (wingGals w).foldl one h
    if (wing h w).retire || (wingGals w).any (fun g => other.contains g) then modWing h w (fun W => { W with retired := true, restore := false }) else h

/-- Step 2 (12 R336): a gallery's dynamic state is cleared; its registers, its columns' history and its mask stay, and the mask takes effect. -/
def clearGallery (warm : Nat) (G : Gallery) : Gallery :=
  { cycle := G.cycle, bypass := G.bypass, bypassAct := G.bypass, wdis := G.wdis, lastCol := G.lastCol, transients := G.transients
    witCount := G.witCount, mismatches := G.mismatches, mismatch := G.mismatch, partFault := G.partFault, perfRows := G.perfRows
    perfBusy := G.perfBusy, perfStream := G.perfStream, perfRevoke := G.perfRevoke, stNanz := G.stNanz, accAuto := G.accAuto
    colFault := G.colFault, accUncorr := G.accUncorr
    accRow8 := G.accRow8, accCorrected := G.accCorrected, accLastRow := G.accLastRow, drainRows := G.drainRows, postNext := G.postNext
    warmup := warm, accEpoch := G.accEpoch }

/-- In-effect WORK_BYTES fit what the channels in service leave (13 R362). -/
def fitWork (h : Hw) : Hw :=
  let room := 352 * 2 ^ 30 - 6 * 2 ^ 30 * (64 - (chansUp h).length)
  let total := fun (h : Hw) => (List.range 8).foldl (fun n q => n + (part h q).inEff.reserve (fun e => e.work)) 0
  ((List.range 8).reverse).foldl (fun h q =>
    if total h ≤ room ∨ !(part h q).inEff.valid then h else
    let cut := min (part h q).inEff.work ((total h - room + 2097151) / 2097152 * 2097152)
    modPart h q (fun P => { P with inEff := { P.inEff with work := P.inEff.work - cut } })) h

/-- Atrium shares in ascending partition order (13 R346). -/
def layAtrium (h : Hw) : Hw :=
  (List.range 8).foldl (fun h q => modPart h q (fun P => { P with
    atrBase := (List.range q).foldl (fun n r => n + (part h r).inEff.reserve (fun e => e.atrium)) 0 })) h

/-- Step 4 (12 R336; 20 R534): the stored descriptor and its overlay take effect; partition-scope keys are applied over the base values. -/
def applyPart (p : Nat) (h : Hw) : Hw :=
  let d := (part h p).stored
  let o := if d.overlay = 0xFF then h.boot.modCopy else ovOf h d.overlay
  let h := layAtrium (fitWork (modPart h p (fun P => { P with inEff := d, ovl := o })))
  (List.range 12).foldl (fun h w => if !d.valid || !d.wings.getLsbD w then h else
    modWing h w (fun W => { W with
      burst := (o.key 0x0010).getD 2
      joinEn := (o.key 0x0011).getD 1 = 1 })) h

/-- The job of a context at a partition reset ends: how (12 R337, R338; 13 R361; 21 R548). -/
def endAtReset (x status cause reason : Nat) (lost : Bool) (h : Hw) : Hw :=
  let r : FaultRec := { cause, gallery := 0xFF, thread := 0xFF, pc := 0 }
  let h := if status = stJobFault then modCtx h x (fun y => { y with fault := some r }) else h
  let h := completeJob x status (if status = stJobFault then r else { r with cause := 0 }) lost reason h
  modCtx h x (fun y => { y with st := .loaded, submit := none, started := false, ranBefore := false, stopped := false, mailStore := [] })

/-- Steps 5 and 6 for one context (12 R336 to R338). `cause`: 0 host, 1 fault, 2 module reset, 3 channel loss. -/
def readmit (x cause : Nat) (h : Hw) : Hw :=
  let X := ctx h x
  if X.st = .free then h else
  let had := X.started
  match admission h x X true with
  | .error r =>
    let h := if had then endAtReset x stRefusedAdm 0 r false h else h
    let h := match X.cancel with
      | some (cmd, _) => endCmd cmd stOk h
      | none => h
    freeContext x h
  | .ok cx =>
    let h := freshObjs x (modCtx h x (fun _ => { cx with st := .loaded, stopped := false, poolFree := List.range cx.poolPages, poolPend := [] }))
    if !had then h
    else if X.cancel.isSome then finishCancel x (endAtReset x stJobFault cCancelled 0 false h)
    else if cause = 3 && X.objs.any (fun o => o.tier = 2) then
      let inWork : Bool := match X.submit with
        | some s => X.objs.any (fun o => o.handle = s.progHandle && o.tier = 2)
        | none => false
      endAtReset x stJobFault cWorkLost 0 inWork h
    else
      let left : Bool := match X.submit with
        | some s => decide (X.restarts < s.restartLimit)
        | none => false
      if cause != 0 && left then
        startIncarnation x (modCtx h x (fun y => { y with restarts := min 255 (y.restarts + 1), started := false }))
      else endAtReset x stJobFault (match cause with | 0 => cHostReset | 2 => cModuleReset | _ => cPartitionFault) 0 false h

/-- A partition reset (12 R336): its steps in order. -/
def partReset (p cause : Nat) (bad : List (Nat × Nat)) (wit other : List Nat) (h : Hw) : Hw :=
  let h := setJstEvt 3 p (modPart h p (fun P => { P with resetting := some { stepDone := 0, cause } }))
  let cs := ((List.range 4).map (fun i => 4 * p + i)).filter (fun x => (ctx h x).st != .free)
  let h := cs.foldl (fun h x => freeThreads x (stopWork x h)) h
  let ws := (List.range 12).filter (fun w => ((part h p).inEff.valid && (part h p).inEff.wings.getLsbD w) || ((part h p).stored.valid && (part h p).stored.wings.getLsbD w))
  let o := if (part h p).stored.overlay = 0xFF then h.boot.modCopy else ovOf h (part h p).stored.overlay
  let h := ws.foldl (fun h w => testWing w bad wit other h) h
  let h := ws.foldl (fun h w =>
    let h := modWing h w (fun W => { W with sleep := 2, since := now h, convoys := [], waking := false })
    (wingGals w).foldl (fun h g => modGal (grainRelease (.gallery g) 3 h) g (clearGallery ((o.key 0x0020).getD 8))) h) h
  let h := modPart h p (fun P => { P with sems := [], lends := [], switch := none, running := none })
  let h := applyPart p h
  let h := if (part h p).inEff.valid && (part h p).inEff.wings != 0 && (partGals h p).isEmpty then raiseEvent 11 2 2 p 0 h else h
  let h := cs.foldl (fun h x => readmit x cause h) h
  modBoot (fun b => { b with partDue := b.partDue.filter (fun q => q ≠ p) })
    (modPart h p (fun P => { P with resetting := none, schedDue := true }))

/-- Why a partition is to be reset now: a channel loss, the boot, a fault in its hardware (12 R319, R334). -/
def resetCause (h : Hw) (p : Nat) : Option Nat :=
  match (part h p).resetting with
  | some r => some r.cause
  | none =>
    if h.boot.partDue.contains p then some 2
    else if (partGals h p).any (fun g => (gal h g).partFault) then some 1
    else none

/-- PARTITION_RESET: for SET_FEATURE(PARTITION_RESET) in an entry (12 R319, 18 R473), or for what has made the reset due. -/
def partitionReset (p : Nat) (cmd : Option (Nat × Nat)) (bad : List (Nat × Nat)) (wit other : List Nat) (h : Hw) : Hw :=
  match cmd with
  | some (q, slot) => carry q slot (setsFeature 0x21) (fun c h =>
      needFields c (c.zeros [(4, 4), (16, 4), (26, 38)] && decide (c.fld 25 1 < 8)) (fun h =>
        if c.fld 25 1 ≠ p then h else endCmd c.id stOk (partReset p 0 bad wit other h)) h) h
  | none => match resetCause h p with
    | some cause => partReset p cause bad wit other h
    | none => h

def execJobLoad (q slot : Nat) (s : State) : Host.Outcome State Fault Refusal := act true (carry q slot (hasOp 0x40) jobLoad) s
def execJobSubmit (q slot : Nat) (s : State) : Host.Outcome State Fault Refusal := act true (carry q slot (hasOp 0x41) jobSubmit) s
def execJobCancel (q slot : Nat) (s : State) : Host.Outcome State Fault Refusal := act true (carry q slot (hasOp 0x42) jobCancel) s
def execJobStatus (q slot : Nat) (s : State) : Host.Outcome State Fault Refusal := act true (carry q slot (hasOp 0x43) jobStatus) s
def execPartition (q slot : Nat) (s : State) : Host.Outcome State Fault Refusal := act true (carry q slot (setsFeature 0x20) partitionSet) s
def execPartitionReset (p : Nat) (cmd : Option (Nat × Nat)) (bad : List (Nat × Nat)) (wit other : List Nat) (s : State) : Host.Outcome State Fault Refusal :=
  act (decide (p < 8)) (partitionReset p cmd bad wit other) s

end Sys2Proof.Machine
end

