-- ==== Sys2Proof/Machine/Admin.lean ====
section
/-!
DEFINITION. IDENTIFY, the logs, the features that need no other chapter's machinery, queues, expert enablement, sanitize (00 R2; 02 R55, R58;
15 R426 to R429; 16 R443; 18 R468, R472 to R475, R488, R491; 19 R494; 20 R537).
-/
namespace Sys2Proof.Machine

/-! ## IDENTIFY -/

/-- The OTP shadow (16 R439), when it has been loaded. -/
def shadow (h : Hw) : Option Nat := match tget h.mdm.crit 4 with
  | some c => majority c
  | none => none

/-- SERIAL as read from the OTP row at boot (00 R3). -/
def serialNo (h : Hw) : Nat := match shadow h with
  | some v => fldOf v 8 16
  | none => Config.serial.toNat

/-- The identity structure (18 R472; 00 R2). In ROM service the firmware version is "0.0.0" (20 R527) and no firmware gives a security
version: it is open (log 8). -/
def identity (h : Hw) (sec : Nat) : Nat :=
  let rom := h.boot.stage = 15
  bytesOf [(0, 32, ascii "Grithar Microsystems" 32), (32, 2, 0x4A71), (34, 16, ascii "Acivo" 16), (50, 16, ascii "ACV-9256" 16),
    (66, 4, ascii "B1" 4), (70, 16, serialNo h), (86, 16, if rom then ascii "0.0.0" 16 else fwVersion h h.boot.run),
    (102, 1, if rom then sec else secVersion h h.boot.run), (103, 2, h.ffu.id), (108, 2, 256), (110, 2, 4096), (112, 4, 4096),
    (116, 8, 52734375000), (124, 2, 256)]

def identify (c : Cmd) (h : Hw) : Hw :=
  needFields c (c.zeros [(4, 4), (24, 40)]) (fun h =>
    let (v, h) := freeVal 8 h
    writeStruct c 4096 (identity h v.toNat) h) h

/-! ## Logs (18 R474) -/

/-- RESULT of an event (18 R488). -/
def Event.result (e : Event) : Nat :=
  bytesOf [(0, 1, e.src), (1, 1, e.code), (2, 2, e.inst), (4, 4, e.count), (8, 8, e.time.toNat), (16, 8, e.detail)]

/-- An entry of the EVENTS log: the completion layout with PHASE 0 (18 R488, R489). -/
def Event.logBytes (e : Event) : Nat :=
  bytesOf [(0, 2, 0xFFFF), (2, 2, 0xFFF), (5, 1, 2), (7, 1, e.sev + 64 * bit e.notRinged), (8, 24, e.result)]

/-- Entries one after the other, each of `n` bytes. -/
def packed (n : Nat) (l : List Nat) : Nat := l.foldr (fun x a => x % 256 ^ n + 256 ^ n * a) 0

/-- What the module writes of one log of the ERRORS log (16 R442, R443; log 49). -/
def errLogBytes (l : ErrLog) : Nat :=
  let ent := fun (e : LogEnt) => bytesOf [(0, 8, e.addr), (8, 8, e.first), (16, 4, e.count), (20, 2, e.c24), (22, 2, bit e.remapped + 2 * bit e.uncorr)]
  (Config.logHeader l.ents.length l.overflow l.total).toNat + 256 ^ 8 * packed 24 (l.ents.map ent)

/-- Blocks of wear band `n`: ⌊wear units ÷ 3,750⌋, clamped to 7 (15 R429). A block that is not listed has no wear. -/
def bandBlocks (h : Hw) (n : Nat) : List Blk :=
  (h.flash.dies.flatMap (fun d => d.2.blks.map (fun b => b.2))).filter (fun b => min 7 (b.wear / 3750) = n)

/-- The health log (15 R429). The means of a band's LDPC iterations and program times and its retry rate are measurements that no command
carries: `stats` gives their bytes (log 51). -/
def healthLog (h : Hw) (stats : Nat) : Nat :=
  let M := h.mdm
  let dieOuts := (List.range 512).any (fun d => dieOut h d)
  let lOut := (List.range 16).any (fun l => (landing h l).lost || (landing h l).loopLink != 0)
  let st := bit M.readOnly + 2 * bit M.san.durable + 4 * bit dieOuts + 8 * bit lOut
  let listed := h.flash.dies.foldl (fun (n : Nat) d => n + d.2.blks.length) 0
  let band := fun (n : Nat) =>
    let bs := bandBlocks h n
    bytesOf [(256 + 16 * n, 4, bs.length + if n = 0 then 512 * 7452 - listed else 0), (260 + 16 * n, 8, stats / 256 ^ (8 * n)),
      (268 + 16 * n, 4, (bs.filter (fun b => b.retired && decide (now h < b.retiredAt + 259200000000000))).length)]
  bytesOf [(0, 4, ascii "ACVH" 4), (4, 1, spareLeft h), (5, 1, wearUsed h), (6, 1, st), (8, 8, M.unitsRead), (16, 8, M.unitsWritten),
    (24, 8, M.units4), (32, 8, M.unitsPslc), (40, 8, M.hours), (48, 8, M.unsafe_), (56, 4, M.defects.length)]
    + bytesOf ((List.range 10).map (fun k => (64 + 8 * k, 8, tgetD M.errors k 0)))
    + ((List.range 8).foldl (fun (a n : Nat) => a + band n) 0)
    + bytesOf (M.temps.filterMap (fun (e : Nat × Nat) => if e.1 < 1152 then some (512 + 4 * e.1, 4, e.2) else none))

/-- A tally record's 128 bytes (18 R491). -/
def Tally.bytes (t : Tally) : Nat :=
  bytesOf [(0, 1, t.q), (2, 2, t.cid), (4, 1, t.status), (5, 1, bit (!t.settled)), (8, 4, t.volume), (12, 4, t.units), (16, 8, t.lba),
    (24, 4, t.committed), (28, 4, t.map.length), (32, 8, t.created), (40, 8, t.settledAt),
    (64, 64, (t.map.foldr (fun (x a : Nat) => x % 4 + 4 * a) 0))]

/-- The boot record (20 R522). -/
def BootRec.bytes (r : BootRec) : Nat :=
  bytesOf [(0, 4, ascii "ACVB" 4), (8, 8, r.gen), (16, 1, r.slot), (17, 1, r.stA), (18, 1, r.stB), (19, 1, r.trials), (20, 1, r.ovl),
    (21, 1, r.fail), (64, 64, r.digA), (128, 64, r.digB)]

/-- TYPE of an overlay slot, 0 when empty (20 R533). -/
def ovType (h : Hw) (k : Nat) : Nat := (ovOf h k).ty

/-- The FIRMWARE log (20 R537). -/
def firmwareLog (h : Hw) : Nat :=
  h.boot.rec0.bytes + bytesOf [(192, 1, secVersion h 0), (193, 16, fwVersion h 0), (209, 1, secVersion h 1), (210, 16, fwVersion h 1),
    (226, 1, h.boot.anti), (227, 1, bit (h.boot.stage = 15))] + bytesOf ((List.range 8).map (fun k => (228 + k, 1, ovType h k)))

/-- GET_LOG (18 R472, R474): DATA_LEN bytes from OFFSET; beyond the log's end they read 0. -/
def getLog (c : Cmd) (h : Hw) : Hw :=
  let id := c.fld 24 1
  let give := fun (data : Nat) (h : Hw) => endCmd c.id stOk (hostWrite c.addr c.dataLen (data / 256 ^ c.fld 28 4) h)
  needFields c (c.zeros [(4, 4), (32, 32)] && (id == 4 || c.zeros [(25, 3)]) && decide (1 ≤ id) && decide (id ≤ 5)) (fun h =>
    match id with
    | 1 => give (packed 32 (h.ev.log.map (fun e => e.logBytes))) h
    | 2 => let (v, h) := freeVal 512 h; give (healthLog h v.toNat) h
    | 3 => give (packed 776 ((List.range 6).map (fun t => errLogBytes (tgetD h.diu.logs t {})))) h
    | 4 => (match h.host.tallies.reverse.find? (fun t => t.q = c.fld 25 1 && t.cid = c.fld 26 2) with
      | some t => give t.bytes h
      | none => endCmd c.id stNoRecord h)
    | _ => give (firmwareLog h) h) h

/-! ## Features (18 R473) -/

/-- A SET_FEATURE whose `n` bytes of data lie in the entry: everything else that it does not use is zero. -/
def featOk (c : Cmd) (n : Nat) (target : Bool) : Bool :=
  c.zeros [(4, 4), (16, 4), (26, 6), (32 + n, 32 - n)] && (target || c.fld 25 1 == 0)

/-- SET_FEATURE(QUEUE) CREATE (18 R468). An OP that is neither is a field out of range. -/
def queueCreate (c : Cmd) (h : Hw) : Hw :=
  let n := c.fld 33 1
  let depth := c.fld 34 2
  let limit := c.fld 36 2
  needFields c (featOk c 16 true && c.fld 32 1 == 0 && n != 0 && isPow2In depth 16 4096 && decide (1 ≤ limit) && decide (limit ≤ depth)
      && c.fld 38 2 == 0 && c.fld 40 8 % 4096 == 0) (fun h =>
    if (queueOf h n).configured then endCmd c.id stQueueInUse h
    else endCmd c.id stOk (modQueue n (fun Q => { configured := true, depth, limit, base := c.fld 40 8, expert := Q.expert }) h)) h

/-- SET_FEATURE(QUEUE) DELETE (18 R468): it disables expert functions on the queue too. -/
def queueDelete (c : Cmd) (h : Hw) : Hw :=
  let n := c.fld 33 1
  needFields c (featOk c 16 true && n != 0 && c.fld 38 2 == 0 && (queueOf h n).configured) (fun h =>
    if h.host.cmds.any (fun x => x.q = n) then endCmd c.id stQueueInUse h
    else endCmd c.id stOk (modQueue n (fun _ => {}) h)) h

/-- SET_FEATURE(EXPERT) (18 R475). -/
def expertSet (c : Cmd) (h : Hw) : Hw :=
  let t := c.fld 32 16
  needFields c (featOk c 16 true) (fun h =>
    if t = 0 then endCmd c.id stOk (modQueue (c.fld 25 1) (fun Q => { Q with expert := false }) h)
    else if h.host.token = some t then
      endCmd c.id stOk (modQueue (c.fld 25 1) (fun Q => { Q with expert := true }) { h with host := { h.host with expertEver := true } })
    else endCmd c.id stToken { h with host := { h.host with token := none } }) h

/-- SET_FEATURE(EVENT_MASK) (18 R473, R489). -/
def eventMask (c : Cmd) (h : Hw) : Hw :=
  needFields c (featOk c 4 false) (fun h => endCmd c.id stOk { h with ev := { h.ev with mask := BitVec.ofNat 32 (c.fld 32 4) } }) h

/-- SET_FEATURE(POWER_CAP) (02 R55): 350 to 900 W; 0 removes the cap. -/
def powerCap (c : Cmd) (h : Hw) : Hw :=
  let w := c.fld 32 2
  needFields c (featOk c 2 false && (w == 0 || decide (350 ≤ w) && decide (w ≤ 900))) (fun h =>
    endCmd c.id stOk (modWdn (fun x =>
      if w = 0 then { x with cap := none, capSamples := [], capLimit := 10240 } else { x with cap := some w, capSamples := [] }) h)) h

/-- SET_FEATURE(SLEEP_POLICY) (02 R58). -/
def sleepPolicy (c : Cmd) (h : Hw) : Hw :=
  needFields c (featOk c 4 false) (fun h => endCmd c.id stOk (modWdn (setSleepCtl (c.fld 32 4)) h)) h

/-- SET_FEATURE(ERROR_LOG_CLEAR) (16 R443): the selected logs are emptied. -/
def errorLogClear (c : Cmd) (h : Hw) : Hw :=
  let m := c.fld 32 1
  needFields c (featOk c 1 false && decide (m < 64)) (fun h =>
    endCmd c.id stOk (modDiu (fun d => { d with logs := d.logs.filter (fun (e : Nat × ErrLog) => !m.testBit e.1) }) h)) h

/-- SET_FEATURE(MODULE_ID) (19 R494). -/
def moduleId (c : Cmd) (h : Hw) : Hw :=
  needFields c (featOk c 2 false && decide (c.fld 32 2 < 0x4000)) (fun h =>
    if (List.range 32).any (fun x => (ctx h x).st != .free && decide (0 < (ctx h x).credits)) then endCmd c.id stBusy h
    else endCmd c.id stOk (modFfu (fun u => { u with id := c.fld 32 2 }) h)) h

/-- A partition descriptor's 128 bytes (12 R317). -/
def PartDesc.bytes (d : PartDesc) : Nat :=
  bytesOf [(0, 2, d.wings.toNat), (2, 1, d.overlay), (3, 1, bit d.valid), (8, 8, d.work), (16, 8, d.atrium)]
    + bytesOf ((List.range 8).flatMap (fun i => match d.vols[i]? with
      | some v => [(64 + 8 * i, 4, v.1), (68 + 8 * i, 1, v.2)]
      | none => [(64 + 8 * i, 4, 0xFFFFFFFF)]))

/-- WDN_SLEEP_CTL as it reads (02 R58). -/
def sleepWord (w : Warden) : Nat := 2 ^ 31 * bit w.s4en + 2 ^ 30 * bit w.s3en + 2 ^ 24 * w.s4idle + 2 ^ 12 * w.s3idle + w.s2idle

/-- A volume descriptor's 32 bytes (15 R398). -/
def Volume.bytes (id : Nat) (V : Volume) : Nat :=
  bytesOf [(0, 4, id), (5, 1, V.ty), (8, 8, V.blocks), (16, 2, V.dim), (18, 1, V.m), (19, 1, V.bits), (20, 1, V.metric), (24, 4, V.lists),
    (28, 4, V.tombCap)]

/-- GET_FEATURE (18 R472, R473): up to 24 bytes in RESULT, else to HOST_ADDR. TARGET names the queue or partition; the volume is named in the
feature data (log 52). What QUEUE returns of a queue that is not configured is not stated (log 8). -/
def getFeature (c : Cmd) (h : Hw) : Hw :=
  let t := c.fld 25 1
  let small := fun (v : Nat) (h : Hw) => needFields c (featOk c 0 false) (fun h => finishCmd c.id { status := stOk, result := v } h) h
  let large := fun (ok : Bool) (n v : Nat) (h : Hw) => needFields c (c.zeros [(4, 4), (26, 6), (36, 28)] && ok) (writeStruct c n v) h
  match c.fld 24 1 with
  | 0x01 =>
    let Q := queueOf h t
    if Q.configured then
      large (c.fld 32 4 == 0) 32 (bytesOf [(1, 1, t), (2, 2, Q.depth), (4, 2, Q.limit), (8, 8, Q.base)]) h
    else
      let (v, h) := freeVal 80 h
      large (c.fld 32 4 == 0) 32 (bytesOf [(1, 1, t), (2, 2, v.toNat), (8, 8, v.toNat / 2 ^ 16)]) h
  | 0x03 => small h.ev.mask.toNat h
  | 0x10 => small (h.wdn.cap.getD 0) h
  | 0x11 => small (sleepWord h.wdn) h
  | 0x20 => large (c.fld 32 4 == 0 && decide (t < 8)) 256 ((part h t).stored.bytes + 256 ^ 128 * (part h t).inEff.bytes) h
  | 0x30 =>
    let v := c.fld 32 4
    (match volume h v with
    | some V => large (t == 0) 32 (V.bytes v) h
    | none => endCmd c.id stInvalidField h)
  | 0x40 => small (bytesOf ([(0, 1, h.boot.rec0.ovl), (1, 1, h.boot.modOverlay)] ++ (List.range 8).map (fun k => (2 + k, 1, ovType h k)))) h
  | 0x50 => small h.ffu.id h
  | _ => endCmd c.id stInvalidField h

/-! ## Sanitize (15 R426) -/

/-- MDM_SANITIZE (15 R430; log 50). -/
def sanitizeWord (h : Hw) : Nat :=
  let S := h.mdm.san
  S.state + 2 ^ 16 * (if S.state = 0 then 0 else (Config.sanitizeDone S.state S.dies.length (sanDies h).length).toNat)

/-- Every resident job is cancelled as by JOB_CANCEL. -/
def cancelAll (h : Hw) : Hw :=
  (List.range 32).foldl (fun h x =>
    if (ctx h x).st = .free ∨ (ctx h x).st = .loaded ∨ isResetting h (x / 4) ∨ (ctx h x).stopped then h
    else
      let h := modPart h (x / 4) (fun P => { P with switch := match P.switch with
        | some s => if s.incoming = x % 4 then none else some s
        | none => none })
      stopContext x { cause := cCancelled, gallery := 0, thread := 0, pc := 0 } h) h

/-- SANITIZE START: data and job commands are refused and jobs cancelled; when all that had started has ended the record becomes durable and
the command completes. An ACTION that is neither is a field out of range. -/
def sanitizeStart (c : Cmd) (h : Hw) : Hw :=
  if h.mdm.san.durable then endCmd c.id stSanitize h else
  if h.mdm.san.waiting.any (fun w => w != c.id) then h else
  needFields c (c.zeros [(4, 4), (16, 4), (24, 40)]) (fun h =>
    let h := cancelAll { modMdm (fun M => { M with san := { M.san with waiting := some c.id } }) h with host := { h.host with sanitize := true } }
    let busy := h.host.cmds.any (fun x => (dataOp x.opcode || jobOp x.opcode) && x.started && x.comp.isNone)
      || (List.range 32).any (fun x => (ctx h x).st != .free && (ctx h x).st != .loaded)
    if busy then h
    else endCmd c.id stOk (modMdm (fun M => { M with san := { state := 1, durable := true } }) h)) h

/-- The sanitize status query. -/
def sanitizeStatus (c : Cmd) (h : Hw) : Hw :=
  needFields c (c.zeros [(4, 4), (16, 4), (25, 39)]) (fun h => finishCmd c.id { status := stOk, result := sanitizeWord h } h) h

def execIdentify (q slot : Nat) (s : State) : Host.Outcome State Fault Refusal := act true (carry q slot (hasOp 0x01) identify) s
def execGetLog (q slot : Nat) (s : State) : Host.Outcome State Fault Refusal := act true (carry q slot (hasOp 0x02) getLog) s
def execGetFeature (q slot : Nat) (s : State) : Host.Outcome State Fault Refusal := act true (carry q slot (hasOp 0x04) getFeature) s
def execQueueCreate (q slot : Nat) (s : State) : Host.Outcome State Fault Refusal :=
  act true (carry q slot (fun c => setsFeature 0x01 c && c.fld 32 1 != 1) queueCreate) s
def execQueueDelete (q slot : Nat) (s : State) : Host.Outcome State Fault Refusal :=
  act true (carry q slot (fun c => setsFeature 0x01 c && c.fld 32 1 == 1) queueDelete) s
def execExpert (q slot : Nat) (s : State) : Host.Outcome State Fault Refusal := act true (carry q slot (setsFeature 0x02) expertSet) s
def execEventMask (q slot : Nat) (s : State) : Host.Outcome State Fault Refusal := act true (carry q slot (setsFeature 0x03) eventMask) s
def execPowerCap (q slot : Nat) (s : State) : Host.Outcome State Fault Refusal := act true (carry q slot (setsFeature 0x10) powerCap) s
def execSleepPolicy (q slot : Nat) (s : State) : Host.Outcome State Fault Refusal := act true (carry q slot (setsFeature 0x11) sleepPolicy) s
def execErrorLogClear (q slot : Nat) (s : State) : Host.Outcome State Fault Refusal := act true (carry q slot (setsFeature 0x31) errorLogClear) s
def execModuleId (q slot : Nat) (s : State) : Host.Outcome State Fault Refusal := act true (carry q slot (setsFeature 0x50) moduleId) s
def execSanitizeStart (q slot : Nat) (s : State) : Host.Outcome State Fault Refusal :=
  act true (carry q slot (fun c => c.opcode == 0x08 && c.fld 24 1 != 1) sanitizeStart) s
def execSanitizeStatus (q slot : Nat) (s : State) : Host.Outcome State Fault Refusal :=
  act true (carry q slot (fun c => c.opcode == 0x08 && c.fld 24 1 == 1) sanitizeStatus) s

end Sys2Proof.Machine
end

