-- ==== Sys2Proof/Machine/Data.lean ====
section
/-!
DEFINITION. The data commands (18 R476 to R482, R490): READ, WRITE, TRIM, FLUSH, transfers of objects, ABORT; volumes (15 R398 to R401).
-/
namespace Sys2Proof.Machine

/-! ## Fields and order -/

def Cmd.lba (c : Cmd) : Nat := c.fld 24 8
def Cmd.units (c : Cmd) : Nat := c.fld 32 4
/-- OBJECT is set (18 R477). -/
def Cmd.object (c : Cmd) : Bool := (c.fld 36 1).testBit 0

/-- READ, WRITE and TRIM of a volume, and the transfers of objects (18 R471, R477). -/
def isRead (c : Cmd) : Bool := c.opcode == 0x20 && !c.object
def isWrite (c : Cmd) : Bool := c.opcode == 0x21 && !c.object
def isTrim (c : Cmd) : Bool := c.opcode == 0x22
def isObjRead (c : Cmd) : Bool := c.opcode == 0x20 && c.object
def isObjWrite (c : Cmd) : Bool := c.opcode == 0x21 && c.object

def meet (a n b m : Nat) : Bool := decide (a < b + m) && decide (b < a + n)

/-- The units of a volume's command are in range (18 R476, 15 R401): the status otherwise. -/
def unitStatus (h : Hw) (c : Cmd) (most : Nat) (data : Bool) : Option Nat :=
  if !(c.zeros [(36, 28)]) || c.units = 0 || decide (most < c.units) || c.dataLen != (if data then 4096 * c.units else 0) then some stInvalidField
  else match volume h c.target with
    | none => some 0x60
    | some V => if V.ty != 0 then some 0x61 else if V.blocks < c.lba + c.units then some 0x62 else none

/-- A command must wait (18 R480; 15 R414, R415): recovery is going on, a piece it needs is under reload, an earlier command that touches
its units has not taken effect (reads among them for one that changes units), or a tally record of them is pending. -/
def mustWait (h : Hw) (c : Cmd) (changes : Bool) : Bool :=
  let earlier := fun (x : Cmd) => decide (x.id < c.id) && x.comp.isNone && (isWrite x || isTrim x || (changes && isRead x))
    && x.target == c.target && meet x.lba x.units c.lba c.units
  let tail := fun (t : Tally) => !t.settled && t.volume == c.target && meet (t.lba + t.committed) t.map.length c.lba c.units
  h.mdm.recovering || reconfiguring h || needsPiece h c.target c.lba c.units || h.host.cmds.any earlier || h.host.tallies.any tail

/-! ## READ -/

/-- READ (18 R476, R478, R480): its units are asked of their dies once nothing it must wait for is left. -/
def readBody (c : Cmd) (h : Hw) : Hw :=
  match unitStatus h c 4096 true with
  | some st => endCmd c.id st h
  | none =>
    if c.progress != 0 || mustWait h c false then h
    else volumeReads c.target c.lba c.units (fun i => .unit c.id i) (setProgress c 1 h)

/-! ## WRITE and TRIM -/

/-- The next page of a WRITE, when its data has arrived and there is a place for it (15 R405, R409, R410): up to 8 units of one half of a
span; a whole span takes both pages of one chunk. -/
def placePage (id : Nat) (h : Hw) : Hw :=
  match writing h id, h.host.cmds.find? (fun c => c.id = id) with
  | some w, some c =>
    let i := w.placed
    let lba := w.lba + i
    let g := min (8 - lba % 8) (w.n - i)
    if w.n ≤ i || !(List.range g).all (fun k => (tget c.chunks (i + k)).isSome) then h else
    let data := (List.range g).foldl (fun (a : Nat) k => a + tgetD c.chunks (i + k) 0 * 256 ^ (4096 * (lba % 8 + k))) 0
    let first : Bool := lba % 16 = 0 && decide (i + 16 ≤ w.n)
    let second : Bool := lba % 16 = 8 && decide (8 ≤ i) && decide (i + 8 ≤ w.n) && w.resv.isSome
    let place : Option ((Nat × Nat) × Hw) :=
      if second then w.resv.map (fun x => (x, h)) else takeLz first h
    match place with
    | none => h
    | some ((sb, j), h) =>
      let resv := if first then h.mdm.lz.half else none
      let h := if first then modMdm (fun M => { M with lz := { M.lz with half := none } }) h else h
      let h := modWriting id (fun w => { w with placed := i + g, resv }) h
      lzWrite sb j data [{ chg := .map w.vol lba g (.located true sb j (lba % 8)) none (first || second), whom := .units id i g }] h
  | _, _ => h

/-- WRITE (15 R410, R425; 18 R476, R480, R490): its units go into landing-zone pages as their data arrives; it completes when all of them
are durable. -/
def writeBody (c : Cmd) (h : Hw) : Hw :=
  match writing h c.id with
  | some w => (List.range (w.n - w.placed)).foldl (fun h _ => placePage c.id h) h
  | none =>
    match unitStatus h c 4096 true with
    | some st => endCmd c.id st h
    | none =>
      if mustWait h c true then h
      else if h.mdm.readOnly then endCmd c.id stCapacity h
      else askData c c.dataLen (modMdm (fun M => { M with writes := M.writes ++ [{ cmd := c.id, trim := false, vol := c.target, lba := c.lba, n := c.units }] }) h)

/-- The next journal record of a TRIM: its units within one span are unmapped (15 R409; 18 R490). -/
def trimRec (id : Nat) (h : Hw) : Hw :=
  match writing h id with
  | some w =>
    let i := w.placed
    let lba := w.lba + i
    let g := min (16 - lba % 16) (w.n - i)
    if w.n ≤ i || w.stop.isSome then h
    else addRec { chg := .map w.vol lba g .unmapped none false, whom := .units id i g } (modWriting id (fun w => { w with placed := i + g }) h)
  | none => h

/-- TRIM (18 R476, R490): its records are placed in ascending unit order, a journal page's worth at a time. -/
def trimBody (c : Cmd) (h : Hw) : Hw :=
  match writing h c.id with
  | some _ => (List.range 2044).foldl (fun h _ => trimRec c.id h) h
  | none =>
    match unitStatus h c (2 ^ 32 - 1) false with
    | some st => endCmd c.id st h
    | none =>
      if mustWait h c true then h
      else (List.range 2044).foldl (fun h _ => trimRec c.id h)
        (modMdm (fun M => { M with writes := M.writes ++ [{ cmd := c.id, trim := true, vol := c.target, lba := c.lba, n := c.units }] }) h)

/-- FLUSH (18 R476, R481): complete once every WRITE and TRIM accepted before it has completed and its tally record has settled. -/
def flushBody (c : Cmd) (h : Hw) : Hw :=
  needFields c (c.zeros [(4, 4), (16, 4), (24, 40)]) (fun h =>
    if h.host.cmds.any (fun x => decide (x.id < c.id) && x.comp.isNone && (x.opcode == 0x21 || x.opcode == 0x22)) ||
       h.host.tallies.any (fun t => decide (t.cmd < c.id) && !t.settled) then h
    else endCmd c.id stOk h) h

/-! ## Objects (18 R477) -/

/-- The context that TARGET names, if it exists, and the handle. -/
def objTarget (c : Cmd) : Option Nat := if c.fld 4 1 < 8 ∧ c.fld 5 1 < 4 then some (4 * c.fld 4 1 + c.fld 5 1) else none

/-- An earlier transfer of the same 4 KiB has not taken effect (18 R480). -/
def objWaits (h : Hw) (c : Cmd) : Bool := reconfiguring h ||
  h.host.cmds.any (fun x => decide (x.id < c.id) && x.comp.isNone && (isObjWrite x || (isObjWrite c && isObjRead x)) && x.target == c.target
    && meet (x.lba / 4096) ((x.lba + x.dataLen + 4095) / 4096 - x.lba / 4096) (c.lba / 4096) ((c.lba + c.dataLen + 4095) / 4096 - c.lba / 4096))

/-- The object of a transfer, or the status that refuses it (18 R477): OBJECT_STATE first. -/
def objOf (h : Hw) (c : Cmd) (w : Bool) : Except Nat (Nat × Obj) :=
  match objTarget c with
  | none => .error stObjectState
  | some x =>
    if (ctx h x).st != .loaded then .error stObjectState else
    match (ctx h x).objs.find? (fun o => o.handle = c.fld 6 2) with
    | none => .error stInvalidField
    | some o =>
      if c.units != 0 || c.fld 36 1 != 1 || !c.zeros [(37, 27)] || c.lba % 4 != 0 || c.dataLen % 4 != 0 || decide (o.size < c.lba + c.dataLen)
          || decide (2 < o.tier) || (!w && o.tier == 0) || !(if w then o.inp else o.outp) then .error stInvalidField
      else .ok (x, o)

/-- The offset of the first uncorrectable word that a test picks, within the transfer (18 R477). -/
def firstBad (m : ObjMem) (tier : Nat) (sel : Nat → Bool) : Option Nat :=
  m.bad.foldl (fun (b : Option Nat) w => if sel w then some (min (w * wordBytes tier) (b.getD (w * wordBytes tier))) else b) none

/-- A transfer ends: OK with all ones, or MEDIA_UNCORRECTABLE with the offset of the first bad word (18 R477). -/
def objEnd (c : Cmd) (bad : Option Nat) (h : Hw) : Hw :=
  match bad with
  | none => finishCmd c.id { status := stOk, result := 2 ^ 64 - 1 } h
  | some o => finishCmd c.id { status := stUncorrectable, result := o } h

/-- READ with OBJECT (18 R477): the bytes before the first uncorrectable word are good; the host's buffer from there on is undefined, and
nothing is written there. -/
def objReadBody (c : Cmd) (h : Hw) : Hw :=
  match objOf h c false with
  | .error st => endCmd c.id st h
  | .ok (x, o) =>
    if objWaits h c then h else
    let m := objMem h (objKey x o 0)
    let W := wordBytes o.tier
    let bad := firstBad m o.tier (fun w => meet (w * W) W c.lba c.dataLen)
    let n := match bad with
      | none => c.dataLen
      | some b => b - c.lba
    let h := dramAccess x 0 o c.lba c.dataLen 3 false none h
    objEnd c bad (hostWrite c.addr n (m.readLE c.lba n) h)

/-- WRITE with OBJECT (18 R477): every instance of a bay-tier object is written. -/
def objWriteBody (c : Cmd) (h : Hw) : Hw :=
  match objOf h c true with
  | .error st => endCmd c.id st h
  | .ok (x, o) =>
    if objWaits h c then h else
    withData c c.dataLen (fun d h =>
      let gs := if o.tier = 0 then partGals h (x / 4) else [0]
      let W := wordBytes o.tier
      let part := fun (w : Nat) => meet (w * W) W c.lba c.dataLen && !(decide (c.lba ≤ w * W) && decide ((w + 1) * W ≤ c.lba + c.dataLen))
      let bad := gs.foldl (fun (b : Option Nat) g => match firstBad (objMem h (objKey x o g)) o.tier part, b with
        | none, b => b
        | some a, none => some a
        | some a, some b => some (min a b)) none
      let h := gs.foldl (fun h g => modMem h (objKey x o g) (fun m => (m.store o.tier (bytesAt c.lba c.dataLen d)).1)) h
      objEnd c bad (dramAccess x 0 o c.lba c.dataLen 3 true none h)) h

/-! ## ABORT (18 R482) -/

/-- The die operation of a RAW_FLASH command. -/
def rawOpOf (h : Hw) (id : Nat) : Option FOp := h.flash.ops.find? (fun o => o.owner == .raw id)

/-- ABORT stops a command where the table allows, and completes it with ABORT_CAUGHT; none when it cannot. -/
def abortStop (t : Cmd) (h : Hw) : Option Hw :=
  let caught := endCmd t.id stAbortCaught
  if t.opcode = 0x0B then none
  else if t.opcode = 0x20 ∨ t.opcode = 0x23 ∨ t.opcode = 0x40 then some (caught h)
  else if t.opcode = 0x21 ∨ t.opcode = 0x22 then
    match writing h t.id with
    | none => some (caught h)
    | some w =>
      if !w.trim || firstOpen w = w.placed then some (endWrite w t stAbortCaught h)
      else some (modWriting t.id (fun w => { w with stop := some stAbortCaught }) h)
  else if t.opcode = 0x24 then
    match rawOpOf h t.id with
    | some o => if o.waits then some (caught (releasePulse o.die o.kind (dropOp o.id h))) else none
    | none => some (caught h)
  else if t.opcode = 0x41 then
    match (List.range 32).find? (fun x => ((ctx h x).submit.map (fun s => s.cmd)) == some t.id) with
    | some x => if (ctx h x).st = .queued ∧ !(ctx h x).ranBefore ∧ (ctx h x).restarts = 0 then some (caught (endIncarnation x h)) else none
    | none => some (caught h)
  else if t.opcode = 0x08 ∧ t.fld 24 1 = 0 then
    if h.mdm.san.durable then none
    else some (caught { modMdm (fun M => { M with san := { M.san with waiting := none } }) h with
      host := { h.host with sanitize := if t.started then false else h.host.sanitize } })
  else if t.opcode = 0x06 then (if t.progress = 0 then some (caught h) else none)
  else if t.started then none else some (caught h)

/-- ABORT (18 R482): it stops its target, or misses; its own completion comes after its target's has been written. -/
def abortBody (c : Cmd) (h : Hw) : Hw :=
  if c.progress != 0 then
    (if h.host.cmds.any (fun x => x.id + 1 = c.progress) then h else endCmd c.id stAbortCaught h)
  else needFields c (c.zeros [(4, 4), (16, 4), (25, 1), (28, 36)]) (fun h =>
    match h.host.cmds.find? (fun x => x.q = c.fld 24 1 && x.cid = c.fld 26 2 && !x.badCid && x.comp.isNone && x.id != c.id) with
    | none => endCmd c.id stAbortMissed h
    | some t => match abortStop t h with
      | none => endCmd c.id stAbortMissed h
      | some h => setProgress c (t.id + 1) h) h

/-! ## Volumes (15 R398 to R400) -/

/-- The volume that a descriptor in the entry asks for; none when a field is out of range or reserved bits are set (15 R398, R399). -/
def volumeOf (c : Cmd) : Option (Nat × Volume) :=
  let id := c.fld 32 4
  let V : Volume := { ty := c.fld 37 1, blocks := c.fld 40 8, dim := c.fld 48 2, m := c.fld 50 1, bits := c.fld 51 1, metric := c.fld 52 1
                      lists := c.fld 56 4, tombCap := c.fld 60 4 }
  let index := decide (8 ≤ V.dim) && decide (V.dim ≤ 4096) && decide (8 ≤ V.m) && decide (V.m ≤ 128) && V.dim % V.m == 0
    && (V.bits == 4 || V.bits == 8) && decide (V.metric ≤ 1) && decide (1 ≤ V.lists) && decide (V.lists ≤ 2 ^ 29)
    && decide (1 ≤ V.tombCap) && decide (V.tombCap ≤ 2 ^ 28)
  if c.zeros [(4, 4), (16, 4), (25, 7), (38, 2), (53, 3)] && decide (id < 256) && c.fld 36 1 == 0 && decide (16 ≤ V.blocks)
      && (V.ty == 1 && index || V.ty == 0 && c.zeros [(48, 16)]) then some (id, V) else none

/-- The creation or deletion of a volume is in a journal page not yet durable. -/
def volumePending (h : Hw) : Bool :=
  (h.mdm.journal ++ h.mdm.forming.toList).any (fun P => decide (h.mdm.jdone ≤ P.seq) && P.recs.any (fun r => match r.chg with
    | .volume _ _ => true
    | _ => false))

/-- A volume's record joins the journal; the command completes when it is durable (15 R412; log 44). -/
def volumeRec (c : Cmd) (v : Nat) (new : Option Volume) (h : Hw) : Hw :=
  addRec { chg := .volume v new, whom := .volume c.id } (setProgress c 1 h)

/-- SET_FEATURE(VOLUME) with CREATE (15 R398, R399). An OP that is neither is a field out of range. -/
def volumeCreate (c : Cmd) (h : Hw) : Hw :=
  if c.progress != 0 || h.mdm.recovering || volumePending h then h else
  match volumeOf c with
  | none => endCmd c.id stInvalidField h
  | some (v, V) =>
    if (volume h v).isSome then endCmd c.id stInvalidField h
    else if 52734375000 < h.mdm.map.vols.foldl (fun (n : Nat) e => n + e.2.blocks) V.blocks then endCmd c.id 0x40 h
    else volumeRec c v (some V) h

/-- SET_FEATURE(VOLUME) with DELETE (15 R400). -/
def volumeDelete (c : Cmd) (h : Hw) : Hw :=
  if c.progress != 0 || h.mdm.recovering || volumePending h then h else
  let v := c.fld 32 4
  needFields c (c.zeros [(4, 4), (16, 4), (25, 7), (38, 2), (53, 3)] && (volume h v).isSome) (fun h =>
    if (List.range 32).any (fun x => (ctx h x).st != .free && (ctx h x).objs.any (fun o => o.tier = 3 && o.bindId = v)) then endCmd c.id stBusy h
    else volumeRec c v none (bufDrop v 0 (2 ^ 64) h)) h

def execRead (q slot : Nat) (s : State) : Host.Outcome State Fault Refusal := act true (carry q slot isRead readBody) s
def execWrite (q slot : Nat) (s : State) : Host.Outcome State Fault Refusal := act true (carry q slot isWrite writeBody) s
def execTrim (q slot : Nat) (s : State) : Host.Outcome State Fault Refusal := act true (carry q slot isTrim trimBody) s
def execFlush (q slot : Nat) (s : State) : Host.Outcome State Fault Refusal := act true (carry q slot (hasOp 0x23) flushBody) s
def execObjectRead (q slot : Nat) (s : State) : Host.Outcome State Fault Refusal := act true (carry q slot isObjRead objReadBody) s
def execObjectWrite (q slot : Nat) (s : State) : Host.Outcome State Fault Refusal := act true (carry q slot isObjWrite objWriteBody) s
def execAbort (q slot : Nat) (s : State) : Host.Outcome State Fault Refusal := act true (carry q slot (hasOp 0x0B) abortBody) s
def execVolumeCreate (q slot : Nat) (s : State) : Host.Outcome State Fault Refusal :=
  act true (carry q slot (fun c => setsFeature 0x30 c && c.fld 36 1 != 1) volumeCreate) s
def execVolumeDelete (q slot : Nat) (s : State) : Host.Outcome State Fault Refusal :=
  act true (carry q slot (fun c => setsFeature 0x30 c && c.fld 36 1 == 1) volumeDelete) s

end Sys2Proof.Machine
end

