-- ==== Sys2Proof/Machine/FabricServe.lean ====
section
/-!
DEFINITION. Serving remote operations, mailboxes and fabric barriers, and ending the own requests (19 R506 to R516).
-/
namespace Sys2Proof.Machine

/-- The first packet delivered here of a type, taken from the router. -/
def takeDelivered (ty : Nat) (h : Hw) : Option (Packet × Hw) :=
  match h.ffu.wait.find? (fun p => p.inFlight = 65 && p.ty = ty) with
  | none => none
  | some p => some (p, modFfu (fun u => { u with wait := u.wait.erase p }) h)

/-- The peer context a packet names (19 R509). -/
def peerCtx (p : Packet) : Nat := 4 * (p.peer % 8) + p.peer / 16 % 4

def nack (p : Packet) (st : Nat) (h : Hw) : Hw := reply p 0x83 st 0 h

/-! ## Serving (R509, R510) -/

/-- The conditions of R510 up to the peer context's state, for `n` bytes at a remote object address: the object, or the answer. -/
def ownerCheck (h : Hw) (p : Packet) (addr : DWord) (n : Nat) (need : Right) : Except Nat (Obj × Nat) :=
  let c := peerCtx p
  let x := ctx h c
  if h.wdn.voteSplit then .error stUnreachable
  else if !h.ffu.remoteEn ∨ x.st = .free then .error stRemoteRefused
  else match checkAccess x addr n need [2] 1 with
    | .bad _ => .error stRemoteRefused
    | .ok o off => if x.st = .resetting then .error stBusy else .ok (o, off)

/-- REMOTE_READ_SERVE (R510): DATA packets of up to 4,096 bytes, or a NACK; an uncorrectable word answers DATA with its status. -/
def remoteReadServe (h : Hw) : Hw :=
  match takeDelivered 0x01 h with
  | none => h
  | some (p, h) =>
    let n := p.body / 256 ^ 8 % 2 ^ 32
    match ownerCheck h p (BitVec.ofNat 64 p.body) n .r with
    | .error st => nack p st h
    | .ok (o, off) =>
      let m := objMem h (objKey (peerCtx p) o 0)
      let h := dramAccess (peerCtx p) 0 o off n 3 false none h
      let data := fun (len st body : Nat) (h : Hw) =>
        enqueuePkt { dest := p.src, src := h.ffu.id, ty := 0x81, tag := p.tag, status := st, peer := p.peer, len, body } h
      if m.isBad 2 off n then data 0 stUncorrectable 0 h
      else (List.range ((n + 4095) / 4096)).foldl (fun h i => let k := min 4096 (n - 4096 * i); data k stOk (m.readLE (off + 4096 * i) k) h) h

/-- The bytes that a masked WRITE of `n` bytes stores: a vector has 128 lanes, a scalar is one. -/
def maskedBytes (off n mask data : Nat) : List (Nat × Byte) :=
  if n < 64 then bytesAt off n data
  else
    (List.range n).filterMap (fun i =>
      let l0 := i * 128 / n
      if mask.testBit l0 then some (off + i, byteOf data i) else none)

/-- REMOTE_WRITE_SERVE (R510): the lanes of the mask are written, then ACK; a word left uncorrectable answers NACK. -/
def remoteWriteServe (h : Hw) : Hw :=
  match takeDelivered 0x02 h with
  | none => h
  | some (p, h) =>
    let n := p.body / 256 ^ 8 % 2 ^ 32
    let mask := p.body / 256 ^ 16 % 2 ^ 128
    let data := p.body / 256 ^ 32
    match ownerCheck h p (BitVec.ofNat 64 p.body) n .w with
    | .error st => nack p st h
    | .ok (o, off) =>
      let k := objKey (peerCtx p) o 0
      let ws := if n = 64 then (List.range 64).filterMap (fun i =>
            let (a, b) := (mask.testBit (2 * i), mask.testBit (2 * i + 1))
            let old := ((objMem h k).read (off + i)).toNat
            let new := data / 256 ^ i % 256
            if a || b then some (off + i, BitVec.ofNat 8 ((if a then new % 16 else old % 16) + 16 * (if b then new / 16 else old / 16))) else none)
        else maskedBytes off n mask data
      let (m, lost) := (objMem h k).store 2 ws
      let h := dramAccess (peerCtx p) 0 o off n 3 true none (modMem h k (fun _ => m))
      if lost then nack p stUncorrectable h else reply p 0x82 stOk 0 h

/-- REMOTE_ADD_SERVE (R510): the owner's adders apply the masked elements in order, then ACK. -/
def remoteAddServe (h : Hw) : Hw :=
  match takeDelivered 0x10 h with
  | none => h
  | some (p, h) =>
    let n := p.len - 32
    let fp := p.body / 256 ^ 8 % 256 = 1
    let mask := p.body / 256 ^ 16 % 2 ^ 128
    let data := p.body / 256 ^ 32
    match ownerCheck h p (BitVec.ofNat 64 p.body) n .w with
    | .error st => nack p st h
    | .ok (o, off) =>
      let k := objKey (peerCtx p) o 0
      let adds := ((List.range (n / 4)).filter (fun j => mask.testBit j)).map (fun j => (4 * j, BitVec.ofNat 32 (data / 2 ^ (32 * j))))
      let (m, lost) := addElems 2 fp off adds (objMem h k)
      let h := dramAccess (peerCtx p) 0 o off n 3 true none (modMem h k (fun _ => m))
      if lost then nack p stUncorrectable h else reply p 0x82 stOk 0 h

/-! ## Mailboxes (R511, R512) -/

/-- The thread a mailbox delivers to; none when its index is outside THREADS or the thread has not started or has halted (R511). -/
def mailThread (h : Hw) (c m : Nat) : Option Thr :=
  let gs := partGals h (c / 4)
  let g := max 1 gs.length
  let th : Thr := { g := (gs[m % g]?).getD 0, t := (ctx h c).first + m / g }
  let st := (thread h th).st
  if gs.isEmpty ∨ (ctx h c).threads ≤ m / g ∨ st = .free ∨ st = .halted then none else some th

/-- MAIL_SERVE (R511, R512): into the inbox, into the context's store of 64, or NACK BUSY. -/
def mailServe (h : Hw) : Hw :=
  match takeDelivered 0x03 h with
  | none => h
  | some (p, h) =>
    let c := peerCtx p
    let mb := p.body % 256
    let msg : Msg := { len := p.len - 8, data := p.body / 256 ^ 8, remote := true, sg := 0, st := 0, srcModule := p.src }
    if h.wdn.voteSplit then nack p stUnreachable h
    else if !h.ffu.remoteEn ∨ (ctx h c).st = .free then nack p stRemoteRefused h
    else if (ctx h c).st = .resetting then nack p stBusy h
    else match mailThread h c mb with
      | none => nack p stRemoteRefused h
      | some th =>
        let held := (ctx h c).mailStore.any (fun x => mailThread h c x.1 == some th)
        if (thread h th).inbox.length < 4 && !held then reply p 0x82 stOk 0 (deliver th msg h)
        else if (ctx h c).mailStore.length < 64 then reply p 0x82 stOk 0 (modCtx h c (fun x => { x with mailStore := x.mailStore ++ [(mb, msg)] }))
        else nack p stBusy h

/-- MAIL_STORE_MOVE (R512): the first held message whose inbox has a slot free moves into it. -/
def mailStoreMove (c : Nat) (h : Hw) : Hw :=
  let fits := fun (x : Nat × Msg) => match mailThread h c x.1 with
    | some th => decide ((thread h th).inbox.length < 4)
    | none => false
  match (ctx h c).mailStore.find? fits with
  | none => h
  | some x =>
    match mailThread h c x.1 with
    | none => h
    | some th => deliver th x.2 (modCtx h c (fun y => { y with mailStore := y.mailStore.erase x }))

/-! ## Ending the own requests (R506 to R508) -/

/-- Threads that wait for a flight credit issue again. -/
def creditFreed (h : Hw) : Hw := (List.range 96).foldl (fun h g => wakeAgain g (fun w => w == .credit) h) h

/-- The next MAIL that waits behind an ended one of the same thread and module is sent (R512). -/
def nextMail (r : Req) (h : Hw) : Hw :=
  match r.kind with
  | .mail th _ =>
    match h.ffu.reqs.find? (fun q => q.queued && q.pkt.dest = r.pkt.dest && (match q.kind with | .mail t _ => t == th | _ => false)) with
    | none => h
    | some q => modFfu (fun u => { u with reqs := u.reqs.map (fun x => if x.tag = q.tag then { x with queued := false, resend := some (now h) } else x) }) h
  | _ => h

/-- A request ends with a status (R507, R508): its entry and credit are free. -/
def endReq (r : Req) (st : Nat) (h : Hw) : Hw :=
  let h := modFfu (fun u => { u with reqs := u.reqs.filter (fun x => x.tag ≠ r.tag) }) h
  let h := match r.kind with
    | .load th seq => finishLda th seq st r.data h
    | .post g id => arrivePost g id st h
    | .mail th id => arrivePost th.g id st h
    | .arrive n => if (tget (ctx h r.ctx).arrived n).isSome then endFabricBarrier r.ctx n (if st = stOk then none else some st) h else h
    | .cancel _ => h
  nextMail r (creditFreed h)

def reqOf (h : Hw) (tag : Nat) : Option Req := h.ffu.reqs.find? (fun r => r.tag = tag)

/-- REMOTE_DATA (R507, R510): response data of a READ is written to its destination's entry; the last packet, or one with a status, ends it. -/
def remoteData (h : Hw) : Hw :=
  match takeDelivered 0x81 h with
  | none => h
  | some (p, h) =>
    match reqOf h p.tag with
    | none => h
    | some r =>
      let r := { r with data := r.data + p.body * 256 ^ r.got, got := r.got + p.len }
      if p.status ≠ stOk ∨ r.pkt.body / 256 ^ 8 % 2 ^ 32 ≤ r.got then endReq r p.status h
      else modFfu (fun u => { u with reqs := u.reqs.map (fun x => if x.tag = r.tag then r else x) }) h

/-- REMOTE_ACK (R507). -/
def remoteAck (h : Hw) : Hw :=
  match takeDelivered 0x82 h with
  | none => h
  | some (p, h) => match reqOf h p.tag with
    | none => h
    | some r => endReq r stOk h

/-- NACK (R506, R508, R510): DROPPED sends again 5 µs later, until the fourth drop; BUSY sends again every 5 µs; LOST and every other status
end the operation. -/
def nackIn (h : Hw) : Hw :=
  match takeDelivered 0x83 h with
  | none => h
  | some (p, h) =>
    match reqOf h p.tag with
    | none => h
    | some r =>
      let put := fun (q : Req) (h : Hw) => modFfu (fun u => { u with reqs := u.reqs.map (fun x => if x.tag = q.tag then q else x) }) h
      if p.body % 256 = 1 then
        if 4 ≤ r.drops + 1 then endReq r stUnreachable h
        else put { r with drops := r.drops + 1, resend := some (now h + 500), dropped := true, busy := false } h
      else if p.body % 256 = 2 then endReq r stUnreachable h
      else if p.status = stBusy then put { r with resend := some (now h + 500), dropped := false, busy := true } h
      else endReq r p.status h

/-- RESEND_TIMER (R506, R507, R512): a request that is due is sent by a fresh route, once it has a credit. -/
def resendTimer (tag : Nat) (h : Hw) : Hw :=
  match reqOf h tag with
  | none => h
  | some r =>
    match r.resend with
    | none => h
    | some t =>
      if now h < t ∨ r.queued then h else
      let h0 := modFfu (fun u => { u with reqs := u.reqs.filter (fun x => x.tag ≠ tag) }) h
      if !assigned h ∨ (routes h r.pkt).isEmpty then endReq r stUnreachable h
      else match pickRoute h0 r.ctx r.pkt with
        | none => h
        | some (f, q) =>
          let h := if r.dropped then
              let n := satAdd 32 h.ffu.resends 1
              saturated 32 0x30810 h.ffu.resends n (modFfu (fun u => { u with resends := n }) h)
            else h
          let r' := { r with flight := some f, resend := none, dropped := false }
          enqueuePkt (routed r.pkt q (routeExit h r.pkt f)) (modFfu (fun u => { u with reqs := u.reqs.map (fun x => if x.tag = tag then r' else x) }) h)

def reqMsOf (h : Hw) : Nat := min 1000 (max 1 h.ffu.reqMs)
def barSOf (h : Hw) : Nat := min 3600 (max 1 h.ffu.barS)

/-- REQUEST_TIMEOUT (R508, R512, R516): a request without a final response ends, BUSY when that was the last answer; a response that is here
wins; fabric barriers are exempt. -/
def requestTimeout (tag : Nat) (h : Hw) : Hw :=
  match reqOf h tag with
  | none => h
  | some r =>
    let barrier : Bool := match r.kind with
      | .arrive _ => true
      | _ => false
    if barrier ∨ now h < r.since + 100000 * reqMsOf h ∨ h.ffu.wait.any (fun p => p.inFlight = 65 && p.tag = tag && pktClass p.ty = 1) then h
    else endReq r (if r.busy then stBusy else stUnreachable) (setFfuEvt 6 0 h)

/-! ## Fabric barriers (R513, R514) -/

/-- ARRIVE at the root: counted for the current epoch or the next, else refused; with HALTED the member counts as arrived from now on. -/
def arriveServe (h : Hw) : Hw :=
  match takeDelivered 0x04 h with
  | none => h
  | some (p, h) =>
    let c := peerCtx p
    let n := p.body % 16
    let halted := p.body / 256 % 2 = 1
    let e := p.body / 65536 % 65536
    let cur := epochOf h c n
    if h.wdn.voteSplit then nack p stUnreachable h
    else if (ctx h c).st = .free ∨ rootOf h c ≠ h.ffu.id ∨ !(membersOf h c).contains p.src then nack p stRemoteRefused h
    else if (ctx h c).st = .resetting then nack p stBusy h
    else if halted then
      let h := modRoot c 0 (fun r => { r with halted := if r.halted.contains p.src then r.halted else r.halted ++ [p.src] }) h
      (List.range 16).foldl (fun h n => tryRelease c n h) (reply p 0x84 stOk 0 h)
    else if e ≠ cur ∧ e ≠ (cur + 1) % 65536 then nack p stRemoteRefused h
    else rootArrive c n p.src e (modRoot c n (fun r => { r with tags := tput r.tags p.src p.tag }) h)

/-- BARRIER_RELEASE: a member receives RELEASE; its threads go on and its epoch advances. -/
def barrierRelease (h : Hw) : Hw :=
  match takeDelivered 0x84 h with
  | none => h
  | some (p, h) => match reqOf h p.tag with
    | none => h
    | some r => endReq r stOk h

/-- The root ends the current epoch for every arrived member with REMOTE_UNREACHABLE (R514). -/
def cancelEpoch (c n : Nat) (h : Hw) : Hw :=
  endFabricBarrier c n (some stUnreachable) (advanceRoot c n (answerMembers c n 0x83 stUnreachable 0 h))

/-- BARRIER_CANCEL: a CANCEL for the current epoch reaches the root. -/
def barrierCancel (h : Hw) : Hw :=
  match takeDelivered 0x05 h with
  | none => h
  | some (p, h) =>
    let c := peerCtx p
    let n := p.body % 16
    let h := reply p 0x82 stOk 0 h
    if rootOf h c = h.ffu.id ∧ (membersOf h c).contains p.src ∧ p.body / 65536 % 65536 = epochOf h c n ∧ (ctx h c).st ≠ .free then cancelEpoch c n h else h

/-- BARRIER_TIMEOUT: a member whose ARRIVE has had no RELEASE for BAR_S ends its BAR and sends CANCEL. -/
def barrierTimeout (c n : Nat) (h : Hw) : Hw :=
  match tget (ctx h c).arrived n with
  | none => h
  | some t =>
    if now h < t + 100000000 * barSOf h then h else
    let e := epochOf h c n
    let h := modFfu (fun u => { u with reqs := u.reqs.filter (fun r => !(r.ctx = c && r.kind == .arrive n)) }) h
    let h := endFabricBarrier c n (some stUnreachable) h
    match issueReq c (.cancel n) (rootOf h c) 0x05 8 (n + 65536 * e) h with
    | .sent h _ => h
    | _ => h

/-- ROOT_BARRIER_TIMEOUT: BAR_S since the root's first arrival of the current epoch. -/
def rootTimeout (c n : Nat) (h : Hw) : Hw :=
  match (rootRec h c n).curSince with
  | none => h
  | some t => if now h < t + 100000000 * barSOf h ∨ (rootRec h c n).cur.isEmpty then h else cancelEpoch c n h

/-! ## The commands -/

def execRemoteReadServe (s : State) : Host.Outcome State Fault Refusal := act true remoteReadServe s
def execRemoteWriteServe (s : State) : Host.Outcome State Fault Refusal := act true remoteWriteServe s
def execRemoteAddServe (s : State) : Host.Outcome State Fault Refusal := act true remoteAddServe s
def execMailServe (s : State) : Host.Outcome State Fault Refusal := act true mailServe s
def execMailStoreMove (c : Nat) (s : State) : Host.Outcome State Fault Refusal := act (decide (c < 32)) (mailStoreMove c) s
def execRemoteData (s : State) : Host.Outcome State Fault Refusal := act true remoteData s
def execRemoteAck (s : State) : Host.Outcome State Fault Refusal := act true remoteAck s
def execNack (s : State) : Host.Outcome State Fault Refusal := act true nackIn s
def execResendTimer (tag : Nat) (s : State) : Host.Outcome State Fault Refusal := act true (resendTimer tag) s
def execRequestTimeout (tag : Nat) (s : State) : Host.Outcome State Fault Refusal := act true (requestTimeout tag) s
def execArrive (s : State) : Host.Outcome State Fault Refusal := act true arriveServe s
def execBarrierRelease (s : State) : Host.Outcome State Fault Refusal := act true barrierRelease s
def execBarrierCancel (s : State) : Host.Outcome State Fault Refusal := act true barrierCancel s
def execBarrierTimeout (c n : Nat) (s : State) : Host.Outcome State Fault Refusal := act (decide (c < 32) && decide (n < 16)) (barrierTimeout c n) s
def execRootBarrierTimeout (c n : Nat) (s : State) : Host.Outcome State Fault Refusal := act (decide (c < 32) && decide (n < 16)) (rootTimeout c n) s

end Sys2Proof.Machine
end

