-- ==== Sys2Proof/Machine/Firmware.lean ====
section
/-!
DEFINITION. Firmware download and commit, overlays as they are stored, attestation (20 R519 to R522, R527 to R536).
-/
namespace Sys2Proof.Machine

/-! ## Firmware (R521, R528) -/

/-- The slot FW_DOWNLOAD writes: the inactive one; slot A in ROM service (R521, R527). -/
def inactive (h : Hw) : Nat := if h.boot.stage = 15 then 0 else 1 - h.boot.run

/-- The slot has been committed and not yet activated. -/
def committed (h : Hw) (k : Nat) : Bool := h.boot.stage != 15 && h.boot.rec0.slot == k && h.boot.run != k && slotState h.boot.rec0 k == 2

/-- The boot record with a slot in another state. -/
def BootRec.setState (r : BootRec) (k st : Nat) : BootRec := if k = 0 then { r with stA := st } else { r with stB := st }

/-- A pending switch withdrawn: the running slot is booted next; the other is EMPTY until it is committed again (log 53). -/
def withdrawn (h : Hw) : BootRec := { (h.boot.rec0.setState (1 - h.boot.run) 0) with slot := h.boot.run, trials := 0 }

/-- FW_DOWNLOAD (R521; 18 R472): a commit of the slot is withdrawn first; then the chunk is written and its pages enter the chunk map. -/
def fwDownload (c : Cmd) (h : Hw) : Hw :=
  let off := c.fld 24 4
  let n := c.dataLen
  needFields c (c.zeros [(4, 4), (28, 36)] && off % 4096 == 0 && n % 4096 == 0 && decide (4096 ≤ n) && decide (n ≤ 1048576)
      && decide (off + n ≤ 67108864)) (fun h =>
    if h.boot.newRec.isSome then h else
    let k := inactive h
    if committed h k then writeRec (withdrawn h) h
    else withData c n (fun d h =>
      endCmd c.id stOk (modSlotFw k (fun S =>
        { shipped := false
          data := (List.range (n / 4096)).foldl (fun (t : Tbl Nat) i => tput t (off / 4096 + i) (fldOf d (4096 * i) 4096)) S.data
          map := (List.range (n / 4096)).foldl (fun (m : List Nat) i => if m.contains (off / 4096 + i) then m else m ++ [off / 4096 + i]) S.map }) h)) h) h

/-- The chunk map covers the signed region and the signature (R528). -/
def covered (h : Hw) (k : Nat) : Bool := (List.range ((imageLen h k + 132 + 4095) / 4096)).all (fun i => (fwSlot h k).map.contains i)

/-- What a FW_COMMIT of a slot that is not running is refused with (R528; the worked example of chapter 20 puts the rollback of an
authentic image before the chunk map: log 54). -/
def commitStatus (h : Hw) (k action : Nat) : Option Nat :=
  match imageFault h k with
  | 1 => some stFwInvalid
  | 2 => some stFwRollback
  | _ =>
    if !covered h k then some stFwInvalid
    else if action = 1 ∧ (List.range 32).any (fun x => (ctx h x).st != .free) then some stFwJobs
    else none

/-- FW_COMMIT (R528): the new boot record is written; with ACTION 0 the command completes once it is durable, with ACTION 1 the module
resets, and it completes when the trial has ended. -/
def fwCommit (c : Cmd) (h : Hw) : Hw :=
  let k := c.fld 24 1
  let action := c.fld 25 1
  if c.progress = 2 then h
  else if c.progress = 1 then
    (if h.boot.newRec.isSome then h
     else if action = 0 ∨ k = h.boot.run ∧ h.boot.stage ≠ 15 then endCmd c.id stOk h
     else setProgress c 2 (modBoot (fun b => { b with commit := some c.id, resetDue := some 2 }) h))
  else needFields c (c.zeros [(4, 4), (16, 4), (26, 38)] && decide (k < 2) && decide (action < 2)) (fun h =>
    if h.boot.newRec.isSome then h
    else if k = h.boot.run ∧ h.boot.stage ≠ 15 then
      (if h.boot.rec0.slot = k ∧ !committed h (1 - k) then endCmd c.id stOk h else setProgress c 1 (writeRec (withdrawn h) h))
    else
      let clear := modSlotFw k (fun S => { S with map := [] })
      match commitStatus h k action with
      | some st => endCmd c.id st (clear h)
      | none =>
        let r := { (h.boot.rec0.setState k 2) with slot := k, trials := 0 }
        let d := imageDigest h k
        clear (setProgress c 1 (writeRec (if k = 0 then { r with digA := d } else { r with digB := d }) h))) h

/-! ## Overlays (R530 to R533) -/

/-- The accepted range of a key (R532); none when the key is unknown. -/
def keyRange (k v : Nat) : Option Bool :=
  let within := fun (lo hi : Nat) => some (decide (lo ≤ v) && decide (v ≤ hi))
  match k with
  | 0x0001 => within 3000 10240
  | 0x0002 => within 0 2
  | 0x0003 => some true
  | 0x0010 => within 0 3
  | 0x0011 => within 0 1
  | 0x0020 => within 1 255
  | 0x0021 => some (v / 2 ^ 6 % 4 == 0 && v / 2 ^ 10 % 4 == 0 && !v.testBit 15)
  | 0x0030 => within 100 65535
  | 0x0031 => within 0 1
  | 0x0040 => within 10000 6000000
  | 0x0041 => within 100 1000000
  | 0x0050 => within 1 65535
  | 0x0051 => some true
  | 0x0060 => some (v / 2 ^ 16 % 2 ^ 15 == 0)
  | _ => none

/-- The signature of an overlay image verifies under the running image's SIGN_KEY (R530). -/
def overlaySigned (h : Hw) (len d : Nat) : Bool :=
  let n := 64 + 8 * fldOf d 8 2
  decide (n + 132 ≤ len) && Config.sigOk (signKey h h.boot.run) (Config.sha512 n (fldOf d 0 n)) (fldOf d n 132)

/-- Every field of an overlay image is in range (R530, R531, R533). -/
def overlayOk (d : Nat) : Bool :=
  let n := fldOf d 8 2
  let keys := (List.range n).map (fun i => fldOf d (64 + 8 * i) 2)
  fldOf d 0 4 == ascii "ACVO" 4 && fldOf d 4 2 == 0x0100 && decide (1 ≤ fldOf d 6 1) && decide (fldOf d 6 1 ≤ 8) && fldOf d 7 1 == 0
    && fldOf d 10 54 == 0 && decide (n ≤ 487)
    && (List.range n).all (fun i => fldOf d (66 + 8 * i) 2 == 0 && keyRange (fldOf d (64 + 8 * i) 2) (fldOf d (68 + 8 * i) 4) == some true
        && !(keys.take i).contains (fldOf d (64 + 8 * i) 2))

/-- The entry is SET_FEATURE(OVERLAY) with this OP. -/
def overlayOp (op : Nat) (c : Cmd) : Bool := setsFeature 0x40 c && c.fld 32 1 == op
def ovFields (c : Cmd) : Bool := c.zeros [(4, 4), (25, 7), (34, 30)]

/-- STORE (R533). An OP that is none of the three is a field out of range. -/
def overlayStore (c : Cmd) (h : Hw) : Hw :=
  let k := c.fld 33 1
  needFields c (ovFields c && c.fld 32 1 == 0 && decide (k < 8) && decide (c.dataLen ≤ 4096)) (fun h =>
    withData c c.dataLen (fun d h =>
      if !overlaySigned h c.dataLen d then endCmd c.id stFwInvalid h
      else needFields c (overlayOk d) (fun h =>
        let n := 64 + 8 * fldOf d 8 2 + 132
        endCmd c.id stOk (modBoot (fun b => { b with overlays := tput b.overlays k { len := n, data := fldOf d 0 n } }) h)) h) h) h

/-- DELETE (R533). -/
def overlayDelete (c : Cmd) (h : Hw) : Hw :=
  let k := c.fld 33 1
  let named := (List.range 8).any (fun p => [(part h p).stored, (part h p).inEff].any (fun d => d.valid && d.overlay == k))
    || h.boot.rec0.ovl == k || h.boot.modOverlay == k
  needFields c (ovFields c && c.dataLen == 0 && decide (k < 8) && !named) (fun h =>
    endCmd c.id stOk (modBoot (fun b => { b with overlays := tdel b.overlays k }) h)) h

/-- SELECT (R533): MODULE_OVERLAY of the boot record (R522); the command completes when the record is durable. -/
def overlaySelect (c : Cmd) (h : Hw) : Hw :=
  let k := c.fld 33 1
  if h.boot.newRec.isSome then h
  else if c.progress = 1 then endCmd c.id stOk h
  else needFields c (ovFields c && c.dataLen == 0 && (k == 0xFF || (tget h.boot.overlays k).isSome)) (fun h =>
    setProgress c 1 (writeRec { h.boot.rec0 with ovl := k } h)) h

/-! ## Attestation (R536) -/

/-- What OVERLAY_DIGEST is taken over: each slot's image, or 64 zero bytes when it is empty; its bytes and how many. -/
def overlayStream (h : Hw) : Nat × Nat :=
  (List.range 8).foldl (fun (a : Nat × Nat) k => match tget h.boot.overlays k with
    | some o => (a.1 + o.data * 256 ^ a.2, a.2 + o.len)
    | none => (a.1, a.2 + 64)) (0, 0)

/-- Bytes 0 to 591 of the report. -/
def reportBody (h : Hw) (nonce : Nat) (token : Option Nat) : Nat :=
  let b := h.boot
  let flags := bit h.host.expertEver + 2 * bit h.dbg.opened + 4 * bit token.isSome + 8 * bit b.trial + 16 * bit b.fallback
  let o := overlayStream h
  bytesOf [(0, 4, ascii "ACVA" 4), (4, 2, 0x0100), (6, 2, flags), (8, 16, serialNo h), (24, 2, h.ffu.id), (26, 1, b.run),
    (27, 1, secVersion h b.run), (28, 1, b.anti), (29, 1, b.modOverlay), (32, 32, nonce), (64, 8, now h), (72, 16, fwVersion h b.run),
    (96, 64, imageDigest h b.run), (160, 64, if slotState b.rec0 (1 - b.run) = 0 then 0 else imageDigest h (1 - b.run)),
    (224, 64, Config.sha512 o.2 o.1), (296, 16, token.getD 0), (320, 133, Config.deviceKey.toNat), (456, 132, Config.endorsement.toNat)]
  + bytesOf ((List.range 8).map (fun p => (288 + p, 1, (part h p).ovl.ty)))

/-- ATTEST (R536; 18 R475). The signature is the standard's, with whatever it leaves to chance (log 47). -/
def attest (c : Cmd) (h : Hw) : Hw :=
  needFields c (c.zeros [(4, 4), (57, 7)] && decide (c.fld 56 1 < 2) && decide (724 ≤ c.dataLen)) (fun h =>
    let (t, h) := freeVal 128 h
    let token := if c.fld 56 1 = 1 then some t.toNat else none
    let h := if token.isSome then { h with host := { h.host with token } } else h
    let body := reportBody h (c.fld 24 32) token
    writeStruct c 724 (body + 256 ^ 592 * (Config.sign Config.attestKey.toNat (Config.sha512 592 body) h.free % 256 ^ 132))
      { h with free := h.free + 1 }) h

def execFwDownload (q slot : Nat) (s : State) : Host.Outcome State Fault Refusal := act true (carry q slot (hasOp 0x05) fwDownload) s
def execFwCommit (q slot : Nat) (s : State) : Host.Outcome State Fault Refusal := act true (carry q slot (hasOp 0x06) fwCommit) s
def execOverlayStore (q slot : Nat) (s : State) : Host.Outcome State Fault Refusal :=
  act true (carry q slot (fun c => setsFeature 0x40 c && c.fld 32 1 != 1 && c.fld 32 1 != 2) overlayStore) s
def execOverlayDelete (q slot : Nat) (s : State) : Host.Outcome State Fault Refusal := act true (carry q slot (overlayOp 1) overlayDelete) s
def execOverlaySelect (q slot : Nat) (s : State) : Host.Outcome State Fault Refusal := act true (carry q slot (overlayOp 2) overlaySelect) s
def execAttest (q slot : Nat) (s : State) : Host.Outcome State Fault Refusal := act true (carry q slot (hasOp 0x07) attest) s

end Sys2Proof.Machine
end

