-- ==== Sys2Proof/Machine/Link.lean ====
section
/-!
DEFINITION. The host link (17 R448 to R463; 22 R555), the acceptance engine (17 R460; 18 R465, R466) and the completion rings (18 R467,
R470, R488, R489).
-/
namespace Sys2Proof.Machine

def modLink (f : HostLink → HostLink) (h : Hw) : Hw := { h with host := { h.host with link := f h.host.link } }

/-- A bit of HLU_EVT set (17 R463; 18 R595): 0 FEC_UNCORR, 1 RETRAIN, 2 LINK_RESET, 3 WIDTH_REDUCED, 4 PROTOCOL. -/
def setHluEvt (b : Nat) (h : Hw) : Hw :=
  if h.host.link.evt.testBit b then h
  else raiseEvent 1 b (if b ≤ 1 then 0 else 1) 0 0 (modLink (fun l => { l with evt := l.evt + 2 ^ b }) h)

/-! ## Training (R451, R452, R462) -/

/-- The widest width of Table: host link rates by width whose lanes all pass; 0 when there is none. -/
def widest (lanes : Nat) : Nat :=
  if lanes % 256 = 255 then 8
  else if lanes % 16 = 15 ∨ lanes / 16 % 16 = 15 then 4
  else if lanes % 4 = 3 ∨ lanes / 4 % 4 = 3 then 2 else 0

/-- Step 5 of R451: INIT goes out, whatever credits are held, with the module's own buffers (R457). -/
def sendInit (h : Hw) : Hw :=
  modLink (fun l => { l with
    out := l.out ++ [{ cls := 3, msgId := (l.msgIds[3]?).getD 0, flits := 1, last := some l.txNext, body := .init 0x0100 l.trained [64, 1024, 16] }]
    txNext := (l.txNext + 1) % 4096
    msgIds := l.msgIds.set 3 (((l.msgIds[3]?).getD 0 + 1) % 65536) }) h

/-- Training has passed or failed with these lanes: the width, WIDTH_REDUCED, and INIT; without two lanes it starts again after 100 ms. -/
def trainEnd (lanes : Nat) (h : Hw) : Hw :=
  let w := widest lanes
  let h := modLink (fun l => { l with lanesGood := lanes % 256 }) h
  if w = 0 then modLink (fun l => { l with state := 1, width := 0, trained := 0, retryAt := some (now h + 10000000) }) h
  else
    let h := modLink (fun l => { l with state := 1, width := w, trained := w, coeffs := true, retryAt := none, initAt := none, replayRun := 0,
                                        retrainFails := 0, dropping := false }) h
    sendInit (if w < 8 then setHluEvt 3 h else h)

/-- HOST_LINK_TRAINING (R451): a cold training ends with `lanes` having passed steps 1 to 4. -/
def linkTraining (lanes : Nat) (h : Hw) : Hw :=
  let l := h.host.link
  if !h.wdn.power || decide (2 ≤ l.state) || l.retryAt.isSome || (l.state = 1 && l.trained != 0) then h else trainEnd lanes h

/-- TRAINING_RETRY (R451): the 100 ms have passed. -/
def trainingRetry (h : Hw) : Hw :=
  match h.host.link.retryAt with
  | some t => if now h < t then h else modLink (fun l => { l with retryAt := none }) h
  | none => h

/-- INIT (R451, R457, R458): the adapter's version, width and credits. With less than the minimum of a class the link stays down. Flits that
wait to be replayed hold their credit. -/
def linkInit (credits : List Nat) (h : Hw) : Hw :=
  let l := h.host.link
  if l.state ≠ 1 ∨ l.trained = 0 then h else
  let enough := ([16, 64, 512, 16].zip credits).length = 4 && ([16, 64, 512, 16].zip credits).all (fun x => decide (x.1 ≤ x.2))
  if !enough then modLink (fun l => { l with initAt := some (now h + 1000000) }) h
  else
    let held := fun (k : Nat) => (l.out.filter (fun m => m.cls = k && m.last.isSome && m.cls != 3)).foldl (fun n m => n + m.flits) 0
    pump (modLink (fun l => { l with
      state := 2
      initAt := none
      credits := (List.range 4).map (fun k => (credits[k]?).getD 0 - held k) }) h)

/-- INIT_RETRY (R457): step 5 is repeated after 10 ms. -/
def initRetry (h : Hw) : Hw :=
  match h.host.link.initAt with
  | some t => if now h < t then h else sendInit (modLink (fun l => { l with initAt := none }) h)
  | none => h

/-- HOST_LINK_RETRAIN (R452): steps 3 to 6 with the stored coefficients; both replay buffers are kept. When it fails twice in succession the
next attempt is a cold training. During widening it takes over at full width (R454). -/
def linkRetrain (lanes : Nat) (h : Hw) : Hw :=
  let l := h.host.link
  if !l.coeffs || decide (l.state < 2) then h else
  let w := widest lanes
  let h := setHluEvt 1 (modLink (fun l => { l with retrains := satAdd 8 l.retrains 1, retrainReq := false, replayRun := 0, lanesGood := lanes % 256 }) h)
  if w = 0 then
    (if l.retrainFails = 0 then modLink (fun l => { l with state := 5, retrainFails := 1 }) h
     else modLink (fun l => { l with state := 0, width := 0, trained := 0, retrainFails := 0 }) h)
  else
    let h := modLink (fun l => { l with state := 2, width := w, trained := w, retrainFails := 0, dropping := false }) h
    pump (if w < 8 then setHluEvt 3 h else h)

/-- ADAPTER_LINK_RESET (R462): a cold training follows in which both replay buffers are discarded; the MWR messages not acknowledged and
the reads not finished wait for RESYNC. Sequence numbers start again (log 55). -/
def linkReset (h : Hw) : Hw :=
  let l := h.host.link
  if l.state = 0 then h else
  setHluEvt 2 (modLink (fun l => { l with
    state := 0
    width := 0
    trained := 0
    resets := satAdd 8 l.resets 1
    rxNext := 0
    txNext := 0
    dropping := false
    replayRun := 0
    retrainFails := 0
    awaitResync := true
    out := (l.out.filter (fun m => m.cls = 2 || m.last.isNone)).map (fun m => { m with last := none })
    reads := l.reads.map (fun r => { r with got := 0, data := 0 }) }) h)

/-- What ACC_STATE says of a queue (R458): the last slot accepted, or bit 15. -/
def lastSlot (Q : Queue) : Nat := if Q.configured && Q.accepted then (Q.expected + Q.depth - 1) % Q.depth else 0x8000

/-- RESYNC (R462): ACC_STATE; the MWR messages are sent again; each READ_REQ that was out is issued again. -/
def resync (h : Hw) : Hw :=
  if h.host.link.state ≠ 2 then h else
  let again := h.host.link.reads.filter (fun r => r.sent)
  let h := modLink (fun l => { l with awaitResync := false, reads := l.reads.map (fun r => { r with sent := false }) }) h
  let h := sendMsg 0 (.accState ((List.range 256).map (fun q => lastSlot (queueOf h q)))) h
  pump (again.foldl (fun h r => sendMsg 1 (.readReq r.rtag r.len r.addr) h) h)

/-! ## Listen (R453, R454) -/

/-- The link narrows to its lowest two lanes (R453). -/
def toListen (h : Hw) : Hw :=
  if h.host.link.listenEn && h.host.link.state = 2 then
    { modLink (fun l => { l with state := 3, width := 2 }) h with
      wdn := { h.wdn with vserdes := h.wdn.vserdes.lower .hostPhy 24 } }
  else h

/-- LINK_WIDENING_DONE (R454): the idle lanes are locked and deskewed; WIDTH marks the boundary. -/
def wideningDone (h : Hw) : Hw :=
  let l := h.host.link
  if l.state ≠ 4 then h else
  sendMsg 3 (.width l.trained l.txNext) (modLink (fun l => { l with state := 2, width := l.trained }) h)

/-- WIDTH (R454, R458): from the boundary on the adapter uses this width. -/
def widthMsg (w : Nat) (h : Hw) : Hw :=
  let l := h.host.link
  if !linkUp l || !(w = 2 || w = 4 || w = 8) || decide (l.trained < w) then h
  else if l.state = 4 && w = l.trained then modLink (fun l => { l with state := 2, width := w }) h
  else modLink (fun l => { l with width := if l.state = 2 then w else l.width }) h

/-! ## Flits (R450, R455, R456) -/

/-- A SEQ at or before another, modulo 4,096 (00 R10). -/
def hseqLe (a b : Nat) : Bool := decide ((b + 4096 - a % 4096) % 4096 < 2048)

/-- HOST_FLIT_RECEIVE: a flit is checked and dropped, or taken in order (one that had come before is dropped alone); what it acknowledges leaves the replay buffer and its credits are
held. At L2 a CMD or HRSP flit is returned in MWR (22 R555). -/
def flitReceive (x : HostFlit) (h : Hw) : Hw :=
  if !linkUp h.host.link then h else
  let c := satAdd 32 h.host.link.fecCorr x.corrected
  let h := saturated 32 0x10008 h.host.link.fecCorr c (modLink (fun l => { l with fecCorr := c }) h)
  if x.fecBad then
    let n := satAdd 32 h.host.link.fecUncorr 1
    setHluEvt 0 (saturated 32 0x1000C h.host.link.fecUncorr n (modLink (fun l => { l with fecUncorr := n, dropping := true }) h))
  else if !x.good then modLink (fun l => { l with dropping := true }) h
  else if !x.zeros ∨ 2 < x.cls then setHluEvt 4 (modLink (fun l => { l with dropping := true }) h)
  else if !x.idle && x.seq != h.host.link.rxNext then
    (if hseqLe (x.seq + 1) h.host.link.rxNext then h else modLink (fun l => { l with dropping := true }) h)
  else if x.idle && h.host.link.dropping then h
  else
    let h := match x.ack with
      | none => h
      | some a => modLink (fun l =>
          let left := l.out.filter (fun m => match m.last with
            | some s => !hseqLe s a
            | none => true)
          { l with out := left, replayRun := if left.length = l.out.length then l.replayRun else 0 }) h
    let add := fun (cr : Nat × Nat) (l : HostLink) => { l with credits := l.credits.set cr.1 ((l.credits[cr.1]?).getD 0 + cr.2) }
    let h := modLink (fun l => add x.crB (add x.crA l)) h
    let h := if x.idle then h else modLink (fun l => { l with rxNext := (l.rxNext + 1) % 4096, dropping := false }) h
    if h.host.link.loop = 3 && !x.idle && decide (x.cls ≤ 1) then sendMsg 2 (.echo x.len x.data) h else pump h

/-- HOST_REPLAY_TIMEOUT (R455): the oldest unacknowledged flit has waited 2.0 µs; eight replays of one flit make a retrain due. -/
def hostReplay (h : Hw) : Hw :=
  let l := h.host.link
  if !linkUp l || !l.out.any (fun m => m.last.isSome) then h else
  healthError 8 1 (modLink (fun l => { l with
    replays := satAdd 16 l.replays 1
    replayRun := l.replayRun + 1
    state := if 8 ≤ l.replayRun + 1 then 5 else l.state }) h)

/-! ## Acceptance (R460; 18 R465, R466) -/

/-- Entries of a queue whose completion has not been written (18 R465). -/
def outstanding (h : Hw) (q : Nat) : Nat := (h.host.cmds.filter (fun c => c.q = q)).length

/-- A BUSY verdict; the queue is refused with its REASON (18 R465). -/
def refuse (q slot reason : Nat) (mark : Bool) (h : Hw) : Verdict × Hw :=
  let h := modLink (fun l => { l with busy := satAdd 16 l.busy 1 }) h
  ({ q, slot, busy := true, reason }, if mark then modQueue q (fun Q => { Q with refused := some reason }) h else h)

/-- An entry is judged. While a loop-back is asked for or in force none is accepted (22 R555). -/
def judge (q slot : Nat) (e : BitVec 512) (h : Hw) : Verdict × Hw :=
  let Q := queueOf h q
  if !Q.configured then refuse q slot 2 false h
  else if h.host.link.loopWant ≠ 0 then refuse q slot 1 (slot = Q.expected) h
  else if slot = Q.expected then
    if Q.limit ≤ outstanding h q then refuse q slot 2 true h
    else if 4096 ≤ h.host.cmds.length then refuse q slot 1 true h
    else
      let cid := e.toNat / 2 ^ 16 % 2 ^ 16
      let c : Cmd := { id := h.host.nextId, q, slot, entry := e
                       badCid := cid = 0xFFFF || h.host.cmds.any (fun x => x.q = q && x.cid = cid) }
      ({ q, slot, busy := false, reason := 0 },
        modQueue q (fun Q => { Q with expected := (Q.expected + 1) % Q.depth, accepted := true, refused := none })
          { h with host := { h.host with cmds := h.host.cmds ++ [c], nextId := h.host.nextId + 1 } })
  else if 1 ≤ (Q.expected + Q.depth - slot) % Q.depth ∧ (Q.expected + Q.depth - slot) % Q.depth ≤ Q.depth / 2 then
    ({ q, slot, busy := false, reason := 1 }, setHluEvt 4 h)
  else match Q.refused with
    | none => let (v, h) := refuse q slot 3 true h; (v, setHluEvt 4 h)
    | some r => refuse q slot r false h

/-- DOORBELL (R458, R460): its entries are judged in order and one VERDICT message answers them; `lat` is the time to its first send in
10 ns. A COUNT or LENGTH out of range discards it. At L3 its entries are returned instead (22 R555). -/
def doorbell (q count first len lat : Nat) (es : List (BitVec 512)) (h : Hw) : Hw :=
  if !linkUp h.host.link || h.host.link.loop = 3 then h
  else if count = 0 ∨ 3 < count ∨ len ≠ 8 + 64 * count ∨ es.length ≠ count then setHluEvt 4 h
  else if h.host.link.loop = 4 then es.foldl (fun h e => hostWrite h.host.link.echo 64 e.toNat h) h
  else
    let d := (queueOf h q).depth
    let r := es.zipIdx.foldl (fun (a : List Verdict × Hw) e =>
      let (v, h) := judge q ((first + e.2) % d) e.1 a.2
      (a.1 ++ [v], h)) ([], h)
    sendMsg 0 (.verdicts r.1) (modLink (fun l => { l with maxLat := max l.maxLat (min 65535 lat) }) r.2)

/-- CQ_HEAD (18 R467): every slot up to the new HEAD is freed; a HEAD beyond the tail frees nothing. -/
def cqHead (q head : Nat) (h : Hw) : Hw :=
  let Q := queueOf h q
  if !linkUp h.host.link || h.host.link.loop = 3 || !Q.configured then h
  else if (head + Q.depth - Q.head) % Q.depth ≤ (Q.tail + Q.depth - Q.head) % Q.depth then modQueue q (fun Q => { Q with head := head % Q.depth }) h
  else h

/-- READ_DATA (R458, R459): bytes of a READ_REQ arrive; with the last its RTAG is free. -/
def readData (rtag len data : Nat) (h : Hw) : Hw :=
  if !linkUp h.host.link || h.host.link.loop = 3 then h else
  match h.host.link.reads.find? (fun r => r.rtag = rtag && r.sent) with
  | none => h
  | some r =>
    let n := min len (r.len - r.got)
    let r' := { r with got := r.got + n, data := r.data + data % 256 ^ n * 256 ^ r.got }
    if r'.got < r.len then modLink (fun l => { l with reads := l.reads.map (fun x => if x.rtag = rtag then r' else x) }) h
    else pump (modCmd r.cmd (fun c => { c with chunks := tput c.chunks r.chunk r'.data })
      (modLink (fun l => { l with reads := l.reads.filter (fun x => x.rtag != rtag) }) h))

/-! ## Loop-backs (22 R555) -/

/-- The depth asked for is entered once no command is outstanding. -/
def enterLoop (h : Hw) : Hw :=
  if h.host.link.loopWant ≠ 0 ∧ h.host.cmds.isEmpty then modLink (fun l => { l with loop := l.loopWant }) h else h

/-- LOOP: depth 3 or 4 asks for L2 or L3; depth 0 ends the loop-back. -/
def loopMsg (depth echo : Nat) (h : Hw) : Hw :=
  if !linkUp h.host.link then h
  else if depth = 0 then modLink (fun l => { l with loop := 0, loopWant := 0 }) h
  else if depth = 3 ∨ depth = 4 then enterLoop (modLink (fun l => { l with loopWant := depth, echo }) h)
  else h

/-! ## Completion rings (18 R467, R470) -/

/-- Some row of the table carries out an entry of this opcode, feature or raw operation. -/
def listed (c : Cmd) : Bool :=
  if c.opcode = 0x03 then [0x01, 0x02, 0x03, 0x10, 0x11, 0x20, 0x21, 0x30, 0x31, 0x40, 0x50].contains (c.fld 24 1)
  else if c.opcode = 0x24 then decide (1 ≤ c.fld 24 1) && decide (c.fld 24 1 ≤ 11)
  else adminOp c.opcode || dataOp c.opcode || jobOp c.opcode

/-- Entries of a queue that no row carries out complete here (18 R471, R473; 14 R392). -/
def formUnlisted (q : Nat) (h : Hw) : Hw :=
  (h.host.cmds.filter (fun c => c.q = q && c.comp.isNone && !listed c)).foldl (fun h c =>
    if !carriesOut h c then h else
    let own := if c.opcode = 0x24 && !(queueOf h q).expert then stNotPermitted else stInvalidField
    endCmd c.id ((commonStatus h c).getD own) h) h

/-- A completion entry (18 R470). -/
def compBytes (Q : Queue) (cid slot status flags q aux result : Nat) : Nat :=
  bytesOf [(0, 2, cid), (2, 2, slot + 2 ^ 15 * bit Q.phase), (4, 1, status), (5, 1, flags), (6, 1, q), (7, 1, aux), (8, 24, result)]

/-- An entry is written at the tail of a ring (18 R467). -/
def ringPut (q data : Nat) (h : Hw) : Hw :=
  let Q := queueOf h q
  hostWrite (Q.base + 32 * Q.tail) 32 data (modQueue q (fun Q =>
    { Q with tail := (Q.tail + 1) % Q.depth, phase := if Q.tail + 1 = Q.depth then !Q.phase else Q.phase }) h)

/-- Slots of a ring that may still be written: at most DEPTH − 1 are unfreed (18 R467). -/
def ringRoom (Q : Queue) : Nat := Q.depth - 1 - (Q.tail + Q.depth - Q.head) % Q.depth

/-- COMPLETION_POST (18 R465, R467): the completion formed first on a queue is written, and its entry leaves the buffer. -/
def completionPost (q : Nat) (h : Hw) : Hw :=
  let h := formUnlisted q h
  let Q := queueOf h q
  let formed := h.host.cmds.filter (fun c => c.q = q && c.comp.isSome)
  let first := formed.foldl (fun (a : Option Cmd) c => match a with
    | some b => if c.form < b.form then some c else a
    | none => some c) none
  match first with
  | none => h
  | some c =>
    match c.comp with
    | none => h
    | some x =>
      if ringRoom Q = 0 then h else
      let h := ringPut q (compBytes Q c.cid c.slot x.status x.flags q x.aux x.result) h
      enterLoop { h with host := { h.host with cmds := h.host.cmds.filter (fun y => y.id ≠ c.id) } }

/-- EVENT_POST (18 R467, R488, R489): the oldest pending event is written to queue 0's ring, which keeps a slot free for each outstanding
admin command; AUX bit 7 tells that one was lost. -/
def eventPost (h : Hw) : Hw :=
  let Q := queueOf h 0
  match h.ev.pend with
  | [] => h
  | e :: rest =>
    if !h.wdn.power || decide (ringRoom Q ≤ outstanding h 0) then h else
    ringPut 0 (compBytes Q 0xFFFF 0xFFF 0 2 0 (e.sev + 2 ^ 7 * bit h.ev.loss) e.result) { h with ev := { h.ev with pend := rest, loss := false } }

def execDoorbell (q count first len lat : Nat) (es : List (BitVec 512)) (s : State) : Host.Outcome State Fault Refusal :=
  act (decide (q < 256)) (doorbell q count first len lat es) s
def execCqHead (q head : Nat) (s : State) : Host.Outcome State Fault Refusal := act (decide (q < 256)) (cqHead q head) s
def execCompletionPost (q : Nat) (s : State) : Host.Outcome State Fault Refusal := act (decide (q < 256)) (completionPost q) s
def execEventPost (s : State) : Host.Outcome State Fault Refusal := act true eventPost s
def execReadData (rtag len data : Nat) (s : State) : Host.Outcome State Fault Refusal := act true (readData rtag len data) s
def execInit (credits : List Nat) (s : State) : Host.Outcome State Fault Refusal := act true (linkInit credits) s
def execInitRetry (s : State) : Host.Outcome State Fault Refusal := act true initRetry s
def execWidth (w : Nat) (s : State) : Host.Outcome State Fault Refusal := act true (widthMsg w) s
def execResync (s : State) : Host.Outcome State Fault Refusal := act true resync s
def execLoop (depth echo : Nat) (s : State) : Host.Outcome State Fault Refusal := act true (loopMsg depth echo) s
def execHostFlitReceive (x : HostFlit) (s : State) : Host.Outcome State Fault Refusal := act true (flitReceive x) s
def execHostReplayTimeout (s : State) : Host.Outcome State Fault Refusal := act true hostReplay s
def execHostLinkTraining (lanes : Nat) (s : State) : Host.Outcome State Fault Refusal := act true (linkTraining lanes) s
def execTrainingRetry (s : State) : Host.Outcome State Fault Refusal := act true trainingRetry s
def execHostLinkRetrain (lanes : Nat) (s : State) : Host.Outcome State Fault Refusal := act true (linkRetrain lanes) s
def execAdapterLinkReset (s : State) : Host.Outcome State Fault Refusal := act true linkReset s
def execLinkWideningDone (s : State) : Host.Outcome State Fault Refusal := act true wideningDone s

end Sys2Proof.Machine
end

