-- ==== Sys2Proof/Machine/Integrity.lean ====
section
/-!
DEFINITION. Recovery of the Media Manager (15 R414; 21 R545, R546), patrol scrub and its write-backs (16 R445, R446), the error logs' windows
(16 R442), row remaps (13 R358 to R360; 16 R437) and the loss of a DRAM channel (13 R361).
-/
namespace Sys2Proof.Machine

/-! ## MDM_RECOVERY -/

/-- An open superblock is closed (15 R414); a pair that programs no more takes no page. -/
def closeOpen (M : MapSt) : MapSt := { M with sbs := M.sbs.map (fun (e : Nat × Sblk) => (e.1, if e.2.st = 1 then { e.2 with st := 2 } else e.2)) }

/-- A record whose tail was pending is settled: what the journal does not map was not written (21 R545). -/
def settleTally (t : Nat) (x : Tally) : Tally :=
  if x.settled then x else { x with settled := true, settledAt := t, map := x.map.map (fun u => if u = 1 then 1 else 0) }

/-- A command that a module reset cut short ends (21 R546): READ and the object transfers with RESET_INTERRUPTED, a WRITE or TRIM with
the tally of R545, a RAW_FLASH with RAW_INTERRUPTED. Any other waits to be carried out again. -/
def endCut (c : Cmd) (h : Hw) : Hw :=
  if !c.started || c.comp.isSome then h
  else if c.opcode = 0x24 then endCmd c.id 0xAE h
  else if c.opcode = 0x20 then endCmd c.id 0x64 h
  else if c.opcode = 0x21 ∨ c.opcode = 0x22 then
    match writing h c.id with
    | some w => endWrite w c 0x64 h
    | none => endCmd c.id 0x64 h
  else h

/-- MDM_RECOVERY (15 R414; 20 R523): the map root is voted, the checkpoint loaded and the durable journal replayed; open superblocks are
closed; the commands that the reset cut short end, their tallies settled; a boot that finds a TORN block counts. -/
def recover (h : Hw) : Hw :=
  if !h.mdm.recovering || h.boot.stage != 6 || h.wdn.voteSplit then h else
  match majority (critNow h 1) with
  | none => voteSplit 1 h
  | some _ =>
    let h := critVote 1 [] h
    let h := modMdm (fun M => { M with
      map := closeOpen { replayed M with sbs := M.map.sbs }
      lzPages := []
      forming := none
      journal := M.journal.filter (fun P => decide (P.seq < M.jdone))
      jseq := M.jdone
      reclaims := []
      lz := {}
      copy := {}
      lists := {}
      listCopy := {}
      pieces := [] }) h
    let h := h.host.cmds.foldl (fun h c => endCut c h) h
    let h := { h with host := { h.host with tallies := h.host.tallies.map (settleTally (now h)) } }
    let torn := h.flash.dies.any (fun d => d.2.blks.any (fun b => b.2.st = 3))
    let h := if torn then countUp 48 1 (fun M => M.unsafe_) (fun v M => { M with unsafe_ := v }) h else h
    modMdm (fun M => { M with recovering := false, writes := [] }) h

/-! ## Where a physical word belongs -/

/-- The object instance that holds byte `a` of a gallery's bay (13 R343, R344), and the offset in it. -/
def bayOwner (h : Hw) (g a : Nat) : Option (Nat × Nat) :=
  match galPart h g with
  | none => none
  | some p => ((List.range 4).map (fun i => 4 * p + i)).findSome? (fun c =>
      let x := ctx h c
      if x.st != .free && decide (x.bayBase ≤ a) && decide (a < x.bayBase + x.bayBytes) then
        (x.objs.find? (fun o => o.tier = 0 && decide (x.bayBase + o.place ≤ a) && decide (a < x.bayBase + o.place + o.size))).map (fun o =>
          (objKey c o g, a - x.bayBase - o.place))
      else none)

/-- The object that holds byte `a` of the atrium (13 R345, R346). -/
def atriumOwner (h : Hw) (a : Nat) : Option (Nat × Nat) :=
  (List.range 32).findSome? (fun c =>
    let x := ctx h c
    let base := (part h (c / 4)).atrBase + x.atrBase
    if x.st != .free && decide (base ≤ a) && decide (a < base + x.atrBytes) then
      (x.objs.find? (fun o => o.tier = 1 && decide (base + o.place ≤ a) && decide (a < base + o.place + o.size))).map (fun o =>
        (objKey c o 0, a - base - o.place))
    else none)

/-- The object that holds byte `a` of working memory, through the frame tables (13 R347, R348). -/
def workOwner (h : Hw) (a : Nat) : Option (Nat × Nat) :=
  if a < 32 * 2 ^ 30 then none else
  let f := (a - 32 * 2 ^ 30) / 2 ^ 21
  (List.range 32).findSome? (fun c =>
    let x := ctx h c
    if x.st = .free ∨ !x.frames.contains f then none else
    let pos := x.frames.findIdx (fun y => y == f) * 2 ^ 21 + a % 2 ^ 21
    (x.objs.find? (fun o => o.tier = 2 && decide (o.place ≤ pos) && decide (pos < o.place + o.size))).map (fun o => (objKey c o 0, pos - o.place)))

/-- The work address of word `w` of a 4 KiB row of a channel: the inverse of R349; none for a channel out of service. -/
def rowAddr (h : Hw) (c row w : Nat) : Option Nat :=
  let up := chansUp h
  if !up.contains c then none else
  let n := up.length
  let q := row * 8 + w / 8
  let g := q * n + (up.findIdx (fun x => x == c) + n * (q + 1) - (q + q / n) % n) % n
  some (g * 512 + w % 8 * 64)

/-- A word becomes uncorrectable (13 R355). -/
def spoilWord (tier : Nat) (at_ : Option (Nat × Nat)) (h : Hw) : Hw :=
  match at_ with
  | some (k, off) => modMem h k (fun m => let w := off / wordBytes tier
      if m.bad.contains w then m else { m with bad := w :: m.bad })
  | none => h

/-! ## Patrol scrub (16 R445, R446) -/

/-- An SRAM row needs a remap (16 R437). -/
def sramDue (ty addr : Nat) (h : Hw) : Hw := modDiu (fun d => if d.due.contains (ty, addr) then d else { d with due := d.due ++ [(ty, addr)] }) h

/-- A scrub read of an SRAM row (16 R446): a corrected codeword is logged and written back, an uncorrectable one logged with UNCORR and left;
either may make the row due for a remap. -/
def sramScrub (ty unit row addr ecc : Nat) (owner : Option (Nat × Nat)) (h : Hw) : Hw :=
  let tier := ty - 1
  if ecc = 1 then
    let h := sramCorrected ty addr h
    let h := modDiu (fun d => { d with wb := d.wb ++ [(ty + 1, unit, row)] }) h
    if max 1 h.diu.sramThresh ≤ count24 h ty addr then sramDue ty addr h else h
  else if ecc = 2 then sramDue ty addr (spoilWord tier owner (sramUncorrectable (logEvent ty addr true h)))
  else h

/-- PATROL_SCRUB (16 R445): the read of one place of a store. Store 0 flash: `unit` is the die, `row` the physical block × 2,048 + page; store 1
working memory: the channel, its 4 KiB row and 64-byte word; store 2 a bay: the gallery, the bank × 2,048 + SRAM row, the 8-byte codeword;
store 3 the atrium: the slice, the SRAM row, the codeword. `ecc`: 0 clean, 1 corrected, 2 uncorrectable (flash and working memory tell
theirs as their reads are served). -/
def patrol (store unit row word ecc : Nat) (h : Hw) : Hw :=
  match store with
  | 0 =>
    let b := row / 2048
    if h.mdm.recovering || dieOut h unit || (tget (blk h unit b).pages (row % 2048)).isNone then h else
    flashQueue { id := 0, die := unit, cls := 3, kind := .read, win := false, blk := b, page := row % 2048, cws := List.range 8, owner := .scrub
                 since := 0 } h
  | 1 =>
    if (chan h unit).state = 3 then h else
    let o := (rowAddr h unit row word).bind (fun a => workOwner h a)
    modChan unit (fun x => { x with queue := x.queue ++ [{ cls := 4, write := false, since := now h, thr := none
                                                           key := (o.map (fun y => y.1)).getD 0, word := (o.map (fun y => y.2 / 64)).getD 0, row }] }) h
  | 2 =>
    let bank := row / 2048
    sramScrub 1 unit row (unit + 2 ^ 7 * bank + 2 ^ 11 * (row % 2048)) ecc (bayOwner h unit ((row % 2048 * 16 + bank) * 512 + 8 * word)) h
  | _ =>
    let l := row * 512 + 8 * word
    sramScrub 2 unit row (unit + 4 * row) ecc (atriumOwner h (l / 256 * 1024 + unit * 256 + l % 256)) h

/-- The place a scrub names exists. -/
def patrolOk (store unit row word ecc : Nat) : Bool :=
  decide (ecc ≤ 2) && decide (word < 64) && match store with
  | 0 => decide (unit < 512) && decide (row < 7452 * 2048)
  | 1 => decide (unit < 64) && decide (row < 2 ^ 21)
  | 2 => decide (unit < 96) && decide (row / 2048 < 16) && decide (row % 2048 < 1536)
  | 3 => decide (unit < 4) && decide (row < 131072)
  | _ => false

/-- SCRUB_WRITEBACK (16 R446): the oldest write-back ends. The contents are what they were: a corrected word is written as it reads, and one
written in the meantime (`newer`) keeps its data. -/
def scrubWriteback (newer : Bool) (h : Hw) : Hw :=
  match h.diu.wb with
  | [] => h
  | (st, u, row) :: rest =>
    let h := modDiu (fun d => { d with wb := rest }) h
    if st = 1 && !newer && (chan h u).state != 3 then
      modChan u (fun x => { x with queue := x.queue ++ [{ cls := 4, write := true, since := now h, thr := none, key := 0, word := 0, row }] }) h
    else h

/-- ERROR_LOG_WINDOW (16 R442): a multiple of 24 h of the monotonic counter is passed; COUNT_24H starts again. -/
def errorWindow (h : Hw) : Hw :=
  let w := now h / 8640000000000
  if w ≤ h.diu.window then h else
  modDiu (fun d => { d with
    window := w
    logs := d.logs.map (fun (e : Nat × ErrLog) => (e.1, { e.2 with ents := e.2.ents.map (fun x => { x with c24 := 0 }) })) }) h

/-! ## Row remaps -/

/-- The bank group or slice that holds an SRAM row: its number and its remap entries (16 R437). -/
def sramUnit (ty addr : Nat) : Nat × Nat := if ty = 1 then (addr % 128 * 4 + addr / 128 % 16 / 4, 16) else (384 + addr % 4, 64)

/-- SRAM_ROW_REMAP (16 R437): a row that is due is copied to a spare while an entry is left; the group or slice becomes full with its last. -/
def sramRemap (ty addr : Nat) (h : Hw) : Hw :=
  if !h.diu.due.contains (ty, addr) then h else
  let (u, n) := sramUnit ty addr
  let rows := tgetD h.diu.remaps u []
  let h := modDiu (fun d => { d with due := d.due.filter (fun x => x != (ty, addr)) }) h
  if rows.contains addr || decide (n ≤ rows.length) then h else
  let h := logRemapped ty addr (modDiu (fun d => { d with remaps := tput d.remaps u (rows ++ [addr]) }) h)
  if rows.length + 1 = n then setDiuEvt 3 h else h

/-- The contents of every work-tier object are undefined (13 R361 step 3). -/
def forgetWork (h : Hw) : Hw :=
  (List.range 32).foldl (fun h c => (ctx h c).objs.foldl (fun h o =>
    if o.tier ≠ 2 ∨ (ctx h c).st = .free then h else
    let (e, h) := freshEpoch h
    modMem h (objKey c o 0) (fun m => { (m.forget 0 o.size e) with bad := [] })) h) h

/-- A DRAM channel is lost (13 R361): its accesses end, every partition is to be reset, work addresses are spread over the channels left
with undefined contents, and the map is reloaded. -/
def loseChan (c : Nat) (h : Hw) : Hw :=
  if (chan h c).state = 3 then h else
  let h := modChan c (fun x => { x with state := 3, queue := [], due := [] }) h
  let h := forgetWork (modWmc (fun w => { w with reconfig := true }) h)
  let h := (List.range 8).foldl (fun h p => modPart h p (fun P => { P with resetting := some { stepDone := 0, cause := 3 } })) h
  setMdmEvt 4 (modMdm (fun M => { M with pieces := List.range 384 }) h)

/-- DRAM_ROW_REMAP (13 R358 to R360): a row that is due is copied to a spare while an entry is left; with the last a health event is raised;
beyond it the channel is lost when RETIRE_ON_FULL says so. -/
def dramRemap (c row : Nat) (h : Hw) : Hw :=
  let x := chan h c
  if !x.due.contains row || decide (x.state = 3) then h else
  let h := modChan c (fun x => { x with due := x.due.filter (fun r => r ≠ row) }) h
  if x.remap.length < 64 then
    let h := logRemapped 0 (c + row * 64) (modChan c (fun x => { x with remap := x.remap ++ [(row, x.remap.length)] }) h)
    if x.remap.length + 1 = 64 then raiseEvent 11 3 1 c 0 h else h
  else if h.wmc.retireOnFull then loseChan c h else h

def execMdmRecovery (s : State) : Host.Outcome State Fault Refusal := act true recover s
def execPatrolScrub (store unit row word ecc : Nat) (s : State) : Host.Outcome State Fault Refusal :=
  act (patrolOk store unit row word ecc) (patrol store unit row word ecc) s
def execScrubWriteback (newer : Bool) (s : State) : Host.Outcome State Fault Refusal := act true (scrubWriteback newer) s
def execErrorLogWindow (s : State) : Host.Outcome State Fault Refusal := act true errorWindow s
def execSramRowRemap (ty addr : Nat) (s : State) : Host.Outcome State Fault Refusal := act (decide (1 ≤ ty) && decide (ty ≤ 2)) (sramRemap ty addr) s
def execDramRowRemap (c row : Nat) (s : State) : Host.Outcome State Fault Refusal := act (decide (c < 64)) (dramRemap c row) s
def execDramChannelLoss (c : Nat) (s : State) : Host.Outcome State Fault Refusal := act (decide (c < 64)) (loseChan c) s

end Sys2Proof.Machine
end

