-- ==== Sys2Proof/Machine/Raw.lean ====
section
/-!
DEFINITION. The RAW_FLASH commands (14 R391 to R393, R396; 18 R479).
-/
namespace Sys2Proof.Machine

/-- The entry is a RAW_FLASH of this OP. -/
def isRaw (op : Nat) (c : Cmd) : Bool := c.opcode == 0x24 && c.fld 24 1 == op

/-- The die a RAW_FLASH names. -/
def Cmd.die (c : Cmd) : Nat := c.fld 25 1 * 8 + c.fld 26 1
def Cmd.rawWin (c : Cmd) : Bool := (c.fld 27 1).testBit 0
def Cmd.rawBlk (c : Cmd) : Nat := c.fld 28 4
def Cmd.rawPg (c : Cmd) : Nat := c.fld 32 2
def Cmd.rawByte (c : Cmd) : Nat := c.fld 36 4
def Cmd.rawLen (c : Cmd) : Nat := c.fld 40 4
/-- The physical block it names. -/
def rawPhys (h : Hw) (c : Cmd) : Nat := if c.rawWin then physOf (die h c.die) c.rawBlk else c.rawBlk

/-- The mode a page is programmed in (R379, R388; 15 R402): an OPEN block's own; else pSLC for the blocks below logical block 24. -/
def rawMode (h : Hw) (c : Cmd) : Bool :=
  let p := rawPhys h c
  let B := blk h c.die p
  if B.st = 1 then B.pslc else match logicalBlk (die h c.die) p with
    | some b => decide (b < 24)
    | none => false

/-- The block lies on the die (R379). -/
def rawBlkOk (c : Cmd) : Bool := decide (c.rawBlk < if c.rawWin then 7451 else 7452)
/-- The page lies in its block. -/
def rawPgOk (h : Hw) (c : Cmd) : Bool :=
  let B := blk h c.die (rawPhys h c)
  decide (c.rawPg < blkPages (B.st != 0 && B.pslc))
def rawRange (c : Cmd) (n : Nat) : Bool := decide (c.rawByte + c.rawLen ≤ n)

/-- What every RAW_FLASH meets first: expert enablement (00 R15), its fields (`data`: it moves LENGTH bytes), its die, `addr`, and raw
ownership when the operation needs it (R391). -/
def rawStatus (h : Hw) (c : Cmd) (data owns addr : Bool) : Option Nat :=
  if !(queueOf h c.q).expert then some stNotPermitted
  else if !c.zeros [(4, 4), (34, 2)] || decide (4 ≤ c.fld 27 1) || c.dataLen != (if data then c.rawLen else 0) then some stInvalidField
  else if 64 ≤ c.fld 25 1 ∨ 8 ≤ c.fld 26 1 ∨ !addr then some 0xA8
  else if owns && !owned h c.die then some 0xAA
  else none

/-- Go on past the checks. -/
def rawCheck (c : Cmd) (data owns addr : Bool) (f : Hw → Hw) (h : Hw) : Hw :=
  if c.progress != 0 then h else
  match rawStatus h c data owns addr with
  | some st => endCmd c.id st h
  | none => f h

/-- A die operation in class C (R391). -/
def rawQueue (c : Cmd) (k : FKind) (cws : List Nat) (pslc : Bool) (data : FPage) (h : Hw) : Hw :=
  flashQueue { id := 0, die := c.die, cls := 2, kind := k, win := c.rawWin, blk := c.rawBlk, page := c.rawPg, pslc, cws, data
               owner := .raw c.id, since := 0 } (setProgress c 1 h)

/-- READ, READ_RAW, READ_LEVEL: a range of a page of `n` stored bytes, in codewords of `w`. -/
def rawRead (n w : Nat) (c : Cmd) (h : Hw) : Hw :=
  rawCheck c true false (rawBlkOk c && rawPgOk h c && rawRange c n) (fun h =>
    if dieDead h c.die then endCmd c.id stUncorrectable h else
    let cws := (List.range 8).filter (fun i => decide (i * w < c.rawByte + c.rawLen) && decide (c.rawByte < (i + 1) * w))
    rawQueue c .read cws false { data := 0 } h) h

/-- PROGRAM: one whole page (R388, R392). -/
def rawProgram (c : Cmd) (h : Hw) : Hw :=
  rawCheck c true true (rawBlkOk c && decide (c.rawPg < blkPages (rawMode h c)) && c.rawByte == 0 && c.rawLen == 32768) (fun h =>
    if dieDead h c.die then endCmd c.id 0xAB h else
    withData c 32768 (fun d h => rawQueue c .program [] (rawMode h c) { data := d } h) h) h

/-- ERASE of one block. -/
def rawErase (c : Cmd) (h : Hw) : Hw :=
  rawCheck c false true (rawBlkOk c) (fun h =>
    if dieDead h c.die then endCmd c.id 0xAC h else rawQueue c .erase [] false { data := 0 } h) h

/-- CACHE_LOOP: up to 32 KiB into the cache register and back, with no array operation. -/
def rawCacheLoop (c : Cmd) (h : Hw) : Hw :=
  rawCheck c true true (rawRange c 32768) (fun h =>
    if dieDead h c.die then endCmd c.id stUncorrectable h else
    withData c c.rawLen (fun d h => endCmd c.id stOk (hostWrite c.addr c.rawLen d h)) h) h

/-- GET_DIE_FEATURE: an address that nothing has written holds a value the manual does not state (log 8). -/
def rawGetFeature (c : Cmd) (h : Hw) : Hw :=
  rawCheck c false false true (fun h =>
    if dieDead h c.die then endCmd c.id stUncorrectable h else
    match tget (die h c.die).feats (c.fld 59 1) with
    | some v => finishCmd c.id { status := stOk, result := v } h
    | none =>
      let (v, h) := freeVal 32 h
      finishCmd c.id { status := stOk, result := v.toNat } (modDie c.die (fun D => { D with feats := tput D.feats (c.fld 59 1) v.toNat }) h)) h

/-- SET_DIE_FEATURE. -/
def rawSetFeature (c : Cmd) (h : Hw) : Hw :=
  rawCheck c false true true (fun h =>
    if dieDead h c.die then endCmd c.id stUncorrectable h else
    endCmd c.id stOk (modDie c.die (fun D => { D with feats := tput D.feats (c.fld 59 1) (c.fld 60 4) }) h)) h

/-- READ_IDENT: LENGTH bytes of READ ID and the parameter page, whose contents the manual does not state (log 8). -/
def rawIdent (c : Cmd) (h : Hw) : Hw :=
  rawCheck c true false true (fun h =>
    if dieDead h c.die then endCmd c.id stUncorrectable h else
    let (v, h) := freeVal (8 * c.rawLen) h
    endCmd c.id stOk (hostWrite c.addr c.rawLen v.toNat h)) h

/-- A block's erase-state entry (R387). -/
def eraseEntry (B : Blk) : Nat :=
  2 ^ 30 * B.st + 2 ^ 29 * bit B.pslc + 2 ^ 16 * (B.indet % 4096) + (if B.st = 2 then blkPages B.pslc else B.next) % 4096

/-- BLOCK_STATE: the erase-state entry and the physical block. -/
def rawBlockState (c : Cmd) (h : Hw) : Hw :=
  rawCheck c false false (rawBlkOk c) (fun h =>
    finishCmd c.id { status := stOk, result := eraseEntry (blk h c.die (rawPhys h c)) + 2 ^ 32 * rawPhys h c } h) h

/-- OTP_READ (R396): ATTEST_KEY reads as zeros. -/
def rawOtp (c : Cmd) (h : Hw) : Hw :=
  rawCheck c true false (rawRange c 4096) (fun h =>
    if dieDead h c.die || (die h c.die).otp.bad then endCmd c.id stUncorrectable h else
    endCmd c.id stOk (hostWrite c.addr c.rawLen (fldOf (otpRow h c.die false) c.rawByte c.rawLen) h)) h

def execRawRead (q slot : Nat) (s : State) : Host.Outcome State Fault Refusal := act true (carry q slot (isRaw 1) (rawRead 32768 4096)) s
def execRawReadRaw (q slot : Nat) (s : State) : Host.Outcome State Fault Refusal := act true (carry q slot (isRaw 2) (rawRead 36864 4608)) s
def execRawReadLevel (q slot : Nat) (s : State) : Host.Outcome State Fault Refusal := act true (carry q slot (isRaw 3) (rawRead 36864 4608)) s
def execRawProgram (q slot : Nat) (s : State) : Host.Outcome State Fault Refusal := act true (carry q slot (isRaw 4) rawProgram) s
def execRawErase (q slot : Nat) (s : State) : Host.Outcome State Fault Refusal := act true (carry q slot (isRaw 5) rawErase) s
def execRawCacheLoop (q slot : Nat) (s : State) : Host.Outcome State Fault Refusal := act true (carry q slot (isRaw 6) rawCacheLoop) s
def execRawGetDieFeature (q slot : Nat) (s : State) : Host.Outcome State Fault Refusal := act true (carry q slot (isRaw 7) rawGetFeature) s
def execRawSetDieFeature (q slot : Nat) (s : State) : Host.Outcome State Fault Refusal := act true (carry q slot (isRaw 8) rawSetFeature) s
def execRawReadIdent (q slot : Nat) (s : State) : Host.Outcome State Fault Refusal := act true (carry q slot (isRaw 9) rawIdent) s
def execRawBlockState (q slot : Nat) (s : State) : Host.Outcome State Fault Refusal := act true (carry q slot (isRaw 10) rawBlockState) s
def execRawOtpRead (q slot : Nat) (s : State) : Host.Outcome State Fault Refusal := act true (carry q slot (isRaw 11) rawOtp) s

end Sys2Proof.Machine
end

