-- ==== Sys2Proof/Machine/Reset.lean ====
section
/-!
DEFINITION. Module resets and the loss of the 54 V input (02 R33, R594; 15 R414; 20 R525; 21 R543 to R551, R553; 24 R574, R575, R582). What is
stored in flash or in AON is carried over by name; everything else starts at its reset value.
-/
namespace Sys2Proof.Machine

/-! ## What each unit keeps -/

/-- A gallery restarts with its stored mask and witness state (07 R223, R227); its accumulators are undefined under a new epoch. -/
def restartGallery (e : Nat) (G : Gallery) : Gallery := { bypass := G.bypass, bypassAct := G.bypass, wdis := G.wdis, accEpoch := e }

/-- A wing restarts in S2 with its stored retirement (07 R222, R223). -/
def restartWing (t : Nat) (W : Wing) : Wing := { sleep := 2, since := t, retire := W.retire, restore := W.restore, retired := W.retired }

/-- A channel keeps its remap entries and whether it is lost (13 R363). -/
def restartChan (x : Chan) : Chan := { state := if x.state = 3 then 3 else 0, remap := x.remap }

/-- The fabric unit keeps its ID, its routing table and FFU_CTL (19 R518); its cables are where they were. -/
def restartFfu (u : Ffu) : Ffu :=
  { id := u.id, groute := u.groute, misLimit := u.misLimit, adaptive := u.adaptive, awake := u.awake, remoteEn := u.remoteEn
    flights := u.flights.map (fun e => (e.1, { cable := e.2.cable, supply := e.2.supply })) }

/-- A die keeps its blocks, wear window, read levels and OTP row; a move starts again (15 R550); a die that was owned or in a loop-back is to
be rebuilt (15 R421). -/
def restartDie (away : Bool) (D : Die) : Die :=
  { blks := D.blks, offset := D.offset, gap := D.gap, erases := D.erases, due := D.due + bit D.moving.isSome, cal := D.cal, otp := D.otp
    lost := D.lost, rebuild := D.rebuild || away }

/-- The flash array: operations are gone, settings at reset. -/
def restartFlash (F : Flash) : Flash :=
  let away := fun (d : Nat) => let L := tgetD F.landings (d / 32) {}; L.own.getLsbD (d % 32) || L.loopLink != 0
  let dies := (List.range 512).foldl (fun (t : Tbl Die) d => if away d then tmod t d {} id else t) F.dies
  { dies := dies.map (fun e => (e.1, restartDie (away e.1) e.2))
    landings := F.landings.map (fun e => (e.1, { lost := e.2.lost, width := if e.2.lost then 0 else 4 })), nextOp := F.nextOp }

/-- The Media Manager keeps what is in flash and its health counters (15 R398 to R429); the sanitize goes on from its recorded progress (R427). A
module reset also keeps the writes that MDM_RECOVERY is to account for (21 R545). -/
def restartMdm (power : Bool) (M : Mdm) : Mdm :=
  { map := M.map, journal := M.journal, jseq := M.jseq, jdone := M.jdone, ckptA := M.ckptA, ckptB := M.ckptB
    ckptAt := if power then M.ckptAt else 0, gen := M.gen, nextId := M.nextId
    crit := (M.crit.filter (fun e => e.1 != 3 && (power || e.1 != 4))).map (fun e => (e.1, { e.2 with writing := none }))
    writes := if power then M.writes else [], spanAt := if power then M.spanAt else [], defects := M.defects, readOnly := M.readOnly
    spareFirst := M.spareFirst, warned := M.warned, critted := M.critted
    san := { state := if M.san.durable then M.san.state else 0, durable := M.san.durable, dies := M.san.recorded, recorded := M.san.recorded }
    unitsRead := M.unitsRead, unitsWritten := M.unitsWritten, units4 := M.units4, unitsPslc := M.unitsPslc, hours := M.hours
    hourMark := if power then M.hourMark else 0, unsafe_ := M.unsafe_, errors := M.errors, temps := M.temps }

/-- A partition keeps its stored descriptor; what is in effect stays until its reset at boot (12 R318, R321). -/
def restartPart (power : Bool) (P : Partition) : Partition :=
  if power then { stored := P.stored, inEff := P.inEff, ovl := P.ovl, atrBase := P.atrBase } else { stored := P.stored }

/-- An account of the ledger: grants of the blocks that restart are gone; the ceiling is at its reset value (02 R594). -/
def restartAccount (ceiling : Nat) (x : Account) : Account :=
  let stays := fun (r : Requester) => r == .hostPhy || r == .serdesCommon
  { x with ceiling, held := x.held.filter (fun g => stays g.who), waiting := x.waiting.filter (fun w => stays w.who), headBlocked := false }

/-- The Warden goes on (02 R33): the fields of R594 and the power cap return to their reset values; the other blocks' PLLs are to lock again. -/
def restartWarden (w : Warden) : Warden :=
  { w with
    vcore := restartAccount 9000 w.vcore
    vserdes := restartAccount 1280 w.vserdes
    vflash := restartAccount 8800 w.vflash
    thermLimit := 100
    s4en := true
    s3en := true
    s4idle := 10
    s3idle := 100
    s2idle := 1000
    opAuto := true
    opFloor := 2
    opTarget := 0
    opCur := 0
    opReq := none
    opLowSince := none
    opLastWait := w.aon.toNat
    cap := none
    capLimit := 10240
    capSamples := []
    pllArith := false
    pllNet := false
    pllDram := false
    pllLanding := 0
    modState := 0
    waking := false
    ready := false
    voteSplit := false }

/-- An accepted entry at a module reset (21 R546): one that MDM_RECOVERY ends, a JOB_SUBMIT and the FW_COMMIT that asked for the reset stand;
any other is to be carried out anew. -/
def restartCmd (commit : Option Nat) (c : Cmd) : Cmd :=
  let stands := c.comp.isSome || [0x20, 0x21, 0x22, 0x24, 0x41].contains c.opcode || commit == some c.id
  if stands then c else { c with started := false, asked := false, chunks := [], bads := [], progress := 0 }

/-- The command side keeps link, queues, entries and tallies; expert enablement and the token are gone (21 R544). Data asked for an entry that
starts anew goes to no entry. -/
def restartHost (commit : Option Nat) (durable : Bool) (H : CmdSide) : CmdSide :=
  let cmds := H.cmds.map (restartCmd commit)
  { H with
    cmds
    nextId := H.nextId + 1
    link := { H.link with reads := H.link.reads.map (fun r => if cmds.any (fun c => c.id = r.cmd && !c.asked) then { r with cmd := H.nextId } else r) }
    queues := H.queues.map (fun e => (e.1, { e.2 with expert := false }))
    token := none
    expertEver := false
    sanitize := durable }

/-! ## Module reset (21 R543, R544, R548) -/

/-- The reset may fall now for this cause: FW_COMMIT and a trial's timeout have to ask for it; code 7 stands for a second reset before ready. -/
def resetAllowed (h : Hw) (cause : Nat) : Bool :=
  h.wdn.power && (match cause with
    | 1 | 4 | 5 | 6 => true
    | 2 | 3 => h.boot.resetDue == some cause
    | _ => false)

/-- Every context at a module reset (21 R548): its work stops. A losing reset ends its job and frees it. -/
def resetContext (losing : Bool) (x : Nat) (h : Hw) : Hw :=
  if (ctx h x).st = .free then h else
  let h := freeThreads x (stopWork x h)
  if !losing then modCtx h x (fun X => { X with cancel := none })
  else freeContext x (completeJob x stJobFault { cause := cModuleReset, gallery := 0xFF, thread := 0xFF, pc := 0 } true 0 h)

/-- A trial boot that a reset cuts short before the module was ready a second time has failed (20 R525). -/
def resetTrial (h : Hw) : Hw :=
  if h.boot.trial && !h.wdn.ready && decide (h.boot.rec0.trials = 2) then trialFail 4 h else h

/-- A module reset with a code of Table: module reset causes. -/
def resetWith (code : Nat) (losing : Bool) (h : Hw) : Hw :=
  let h := resetTrial h
  let h := (List.range 32).foldl (fun h x => resetContext losing x h) h
  let n := satAdd 16 h.boot.resets 1
  let h := (List.range 96).foldl (fun h g => modGal { h with free := h.free + 1 } g (restartGallery h.free)) h
  let t := now h
  { h with
    wdn := restartWarden h.wdn
    wing := h.wing.map (fun e => (e.1, restartWing t e.2))
    part := h.part.map (fun e => (e.1, restartPart true e.2))
    mem := if losing then [] else h.mem
    jst := { root := h.jst.root }
    wmc := { chans := h.wmc.chans.map (fun e => (e.1, restartChan e.2)) }
    ffu := restartFfu h.ffu
    probe := {}
    diu := { remaps := h.diu.remaps, window := h.diu.window }
    host := restartHost h.boot.commit h.mdm.san.durable h.host
    flash := restartFlash h.flash
    mdm := restartMdm true h.mdm
    boot := { h.boot with
      slotA := { h.boot.slotA with map := [] }
      slotB := { h.boot.slotB with map := [] }
      newRec := none
      stage := 0
      trial := false
      trialFrom := none
      resetDue := none
      partDue := []
      resets := n
      cause := code
      losing
      told := h.boot.told ++ [code]
      again := true }
    dbg := { h.dbg with gate := false, opened := false, lockUntil := 0, wake := none } }

/-- MODULE_RESET: a second reset before the module was ready is a losing reset with code 7 (21 R551). -/
def moduleReset (cause : Nat) (h : Hw) : Hw :=
  if !resetAllowed h cause then h
  else
    let second := h.boot.again && !h.wdn.ready
    resetWith (if second then 7 else cause) (second || cause = 2 || cause = 5) h

/-- WATCHDOG_EXPIRY (21 R543): a management core gave no sign of life for 100 ms. -/
def watchdog (h : Hw) : Hw := moduleReset 6 h

/-- RESET_PIN (24 R582): low for 10 µs starts a reset, in which the module stays; high lets it boot. -/
def resetPin (low : Bool) (h : Hw) : Hw :=
  if low then (if h.boot.pinLow then h else moduleReset 1 (modBoot (fun b => { b with pinLow := true }) h))
  else { modBoot (fun b => { b with pinLow := false }) h with dbg := { h.dbg with driving := [] } }

/-- TRIAL_READY_TIMEOUT (20 R525): 30 s from the start of the slot's firmware without ready; an emergency stop holds the timer (24 R586). -/
def trialTimeout (h : Hw) : Hw :=
  match h.boot.trialFrom with
  | none => h
  | some t =>
    if !h.wdn.power || !h.boot.trial || h.wdn.ready || h.boot.stopSince.isSome || decide (now h < t + 3000000000) then h
    else moduleReset 3 (modBoot (fun b => { b with resetDue := some 3 }) (trialFail 3 h))

/-- WARDEN_ROM_RESTART (21 R543): an uncorrectable word in Warden SRAM restarts the Warden's code; nothing else changes but the error's own
record (16 R447). -/
def wardenRestart (h : Hw) : Hw := if h.wdn.power then sramUncorrectable h else h

/-! ## Management bits and the emergency stop (24 R585, R586, R593) -/

/-- Bits 0 COOLANT_HOT, 1 COOLANT_DT, 2 STOP_EVT of WDN_MGMT. -/
def mgmtBit (w : Warden) (b : Nat) : Bool := match b with
  | 0 => w.coolantHot
  | 1 => w.coolantDt
  | _ => w.stopEvt
def putMgmt (b : Nat) (v : Bool) (w : Warden) : Warden := match b with
  | 0 => { w with coolantHot := v }
  | 1 => { w with coolantDt := v }
  | _ => { w with stopEvt := v }

/-- A bit of WDN_MGMT set: it raises its event when it was clear (R593; 18 R595). -/
def setMgmtEvt (b : Nat) (h : Hw) : Hw :=
  if mgmtBit h.wdn b then h else raiseEvent 0 (0x10 + b) (if b = 2 then 2 else 1) 0 0 (modWdn (putMgmt b true) h)

/-- A stop begins: gallery grants are revoked (R585); the trial timer stands still until it ends (R586). -/
def stopBegins (h : Hw) : Hw := setMgmtEvt 2 (revokeAll (modBoot (fun b => { b with stopSince := some (now h) }) h))

/-- A source of the emergency stop changes. -/
def stopChange (f : Warden → Warden) (h : Hw) : Hw :=
  let was := emstop h.wdn
  let h := modWdn f h
  if !h.wdn.power then h
  else if !was && emstop h.wdn then stopBegins h
  else if was && !emstop h.wdn then
    match h.boot.stopSince with
    | none => h
    | some t => modBoot (fun b => { b with stopSince := none, trialFrom := b.trialFrom.map (fun x => x + (now h - max t x)) }) h
  else h

/-- EMSTOP_PIN (R585): EMSTOP# held low for 10 µs, or released. -/
def emstopPin (low : Bool) (h : Hw) : Hw := stopChange (fun w => { w with emstopPin := low }) h

/-! ## Power (24 R574, R575; 21 R549) -/

/-- POWER_GOOD_ASSERT: the input has been at 46.0 V or above for 10 ms; the AON domain runs, its counter from 0 (02 R33, R34). -/
def powerGood (v : Nat) (h : Hw) : Hw :=
  if h.wdn.power || decide (v < 4600) then h else
  let h := modWdn (fun w => { w with power := true, aon := 0, inputVoltage := v }) h
  if emstop h.wdn then stopBegins h else h

/-- POWER_GOOD_DEASSERT: everything but what is stored is gone (21 R549); the levels of the pins are outside the module. -/
def powerLost (v : Nat) (h : Hw) : Hw :=
  if !h.wdn.power then h else
  let gals : Tbl Gallery := h.gal.map (fun e => (e.1, restartGallery (h.free + e.1) e.2))
  { free := h.free + 96
    wdn := { inputVoltage := v, emstopPin := h.wdn.emstopPin }
    gal := gals
    wing := h.wing.map (fun e => (e.1, restartWing 0 e.2))
    part := h.part.map (fun e => (e.1, restartPart false e.2))
    jst := { root := h.jst.root }
    wmc := { chans := h.wmc.chans.map (fun e => (e.1, restartChan e.2)) }
    ffu := restartFfu h.ffu
    diu := { remaps := h.diu.remaps }
    host := { sanitize := h.mdm.san.durable }
    flash := restartFlash h.flash
    mdm := restartMdm false h.mdm
    boot := { slotA := { h.boot.slotA with map := [] }, slotB := { h.boot.slotB with map := [] }, rec0 := h.boot.rec0, overlays := h.boot.overlays
              pinLow := h.boot.pinLow }
    dbg := { trst := h.dbg.trst } }

def execModuleReset (cause : Nat) (s : State) : Host.Outcome State Fault Refusal := act true (moduleReset cause) s
def execWatchdogExpiry (s : State) : Host.Outcome State Fault Refusal := act true watchdog s
def execResetPin (low : Bool) (s : State) : Host.Outcome State Fault Refusal := act true (resetPin low) s
def execTrialReadyTimeout (s : State) : Host.Outcome State Fault Refusal := act true trialTimeout s
def execWardenRomRestart (s : State) : Host.Outcome State Fault Refusal := act true wardenRestart s
def execEmstopPin (low : Bool) (s : State) : Host.Outcome State Fault Refusal := act true (emstopPin low) s
def execPowerGoodAssert (v : Nat) (s : State) : Host.Outcome State Fault Refusal := act true (powerGood v) s
def execPowerGoodDeassert (v : Nat) (s : State) : Host.Outcome State Fault Refusal := act true (powerLost v) s

end Sys2Proof.Machine
end

