-- ==== Sys2Proof/Machine/Mgmt.lean ====
section
/-!
DEFINITION. Sensors, coolant checks and FLASH_HOT (24 R588 to R590) and the SMBus management port (24 R583, R584).
-/
namespace Sys2Proof.Machine

/-! ## Sensors (R588 to R590) -/

/-- SENSOR_SAMPLE (R589): sensor `k` returns a reading in 1/16 °C; since when the coolant conditions hold is kept. -/
def sensorSample (k : Nat) (t : BitVec 16) (h : Hw) : Hw :=
  if !h.wdn.power then h else
  let ss := tput h.wdn.sensors k t.toInt
  let hot : Bool := match tget ss 46 with
    | some a => decide (16 * 40 < a)
    | none => false
  let dt : Bool := match tget ss 46, tget ss 47 with
    | some a, some b => decide (16 * 15 < b - a)
    | _, _ => false
  modWdn (fun w => { w with
    sensors := ss
    hotSince := if hot then w.hotSince.or (some (now h)) else none
    dtSince := if dt then w.dtSince.or (some (now h)) else none }) h

/-- A condition has held for 10 s. -/
def held10 (h : Hw) (since : Option Nat) : Bool := match since with
  | some t => h.wdn.power && decide (t + 1000000000 ≤ now h)
  | none => false

/-- COOLANT_HOT_CHECK (R588): sensor 46 above 40 °C for 10 s. -/
def coolantHotCheck (h : Hw) : Hw := if held10 h h.wdn.hotSince then setMgmtEvt 0 h else h

/-- COOLANT_DT_CHECK (R588): sensor 47 more than 15 K above sensor 46 for 10 s. -/
def coolantDtCheck (h : Hw) : Hw := if held10 h h.wdn.dtSince then setMgmtEvt 1 h else h

/-- FLASH_HOT (R590): any of sensors 40 to 43 above 85 °C withholds pulses until all four read below 80 °C. -/
def flashHotCheck (h : Hw) : Hw :=
  let ts := h.wdn.sensors.filter (fun (e : Nat × Int) => decide (40 ≤ e.1) && decide (e.1 ≤ 43))
  if !h.wdn.power then h
  else if ts.any (fun (e : Nat × Int) => decide (16 * 85 < e.2)) then modWdn (fun w => { w with flashHot := true }) h
  else if ts.all (fun (e : Nat × Int) => decide (e.2 < 16 * 80)) then modWdn (fun w => { w with flashHot := false }) h
  else h

/-- WDN_SENSOR's TEMP (R593): signed, 1/16 °C, 0 without a reading. -/
def sensorTemp (h : Hw) (k : Nat) : Nat := (BitVec.ofInt 16 (tgetD h.wdn.sensors k 0)).toNat

/-- WDN_THERM.HOTTEST (02 R58): whole degrees. -/
def hottestByte (h : Hw) : Nat := min 255 ((hottest h.wdn) / 16).toNat

/-! ## The SMBus port (R583, R584) -/

/-- The port's 7-bit address. -/
def smbAddr : Nat := 0x58 + Config.smbStraps.toNat

/-- SMBALERT# is asserted: a bit of WDN_MGMT [2:0] is set. -/
def smbAlert (w : Warden) : Bool := mgmtBit w 0 || mgmtBit w 1 || mgmtBit w 2

/-- A read: with a good PEC the port returns `data`, with a bad one it answers NACK. Transactions to other addresses are not its own. -/
def smbRead (a : Nat) (pec : Bool) (data : Hw → Nat) (h : Hw) : Hw :=
  if !h.wdn.power || a != smbAddr then h else modWdn (fun w => { w with smbOut := if pec then some (data h) else none }) h

/-- A write: one with a bad PEC is ignored. -/
def smbWrite (a : Nat) (pec : Bool) (f : Hw → Hw) (h : Hw) : Hw := if !h.wdn.power || a != smbAddr || !pec then h else f h

/-- INVENTORY: 64 bytes. -/
def smbInventory (h : Hw) : Nat :=
  let id := identity h 0
  bytesOf [(0, 16, fldOf id 50 16), (16, 16, fldOf id 70 16), (32, 16, fldOf id 86 16), (48, 2, fldOf id 103 2), (50, 4, fldOf id 66 4)]

/-- STATUS. -/
def smbStatus (h : Hw) : Nat :=
  bit h.wdn.ready + 2 * bit h.wdn.voteSplit + 4 * bit (emstop h.wdn) + 8 * bit h.wdn.trip + 16 * bit h.mdm.san.durable + 32 * bit h.mdm.readOnly
    + 2 ^ 8 * (h.wdn.modState % 8)

/-- DIU_VOTE_STAT (16 R447). -/
def voteStat (h : Hw) : Nat := 2 ^ 31 * bit h.wdn.voteSplit + 2 ^ 24 * (h.diu.word % 8) + h.diu.corrected % 2 ^ 16

/-- Bits of WDN_MGMT [2:0] cleared (R584, R593). -/
def mgmtClear (v : Nat) (h : Hw) : Hw :=
  [0, 1, 2].foldl (fun (h : Hw) (b : Nat) => if v.testBit b then modWdn (putMgmt b false) h else h) h

/-- EMSTOP of the port (R584, R585). -/
def smbStop (v : Nat) (h : Hw) : Hw :=
  if v = 0x5A then stopChange (fun w => { w with emstopSmb := true }) h
  else if v = 0xA5 then stopChange (fun w => { w with emstopSmb := false }) h else h

def execSensorSample (k : Nat) (t : BitVec 16) (s : State) : Host.Outcome State Fault Refusal := act (decide (k < 48)) (sensorSample k t) s
def execCoolantHotCheck (s : State) : Host.Outcome State Fault Refusal := act true coolantHotCheck s
def execCoolantDtCheck (s : State) : Host.Outcome State Fault Refusal := act true coolantDtCheck s
def execFlashHot (s : State) : Host.Outcome State Fault Refusal := act true flashHotCheck s
def execSmbInventory (a : Nat) (pec : Bool) (s : State) : Host.Outcome State Fault Refusal := act true (smbRead a pec smbInventory) s
def execSmbStatus (a : Nat) (pec : Bool) (s : State) : Host.Outcome State Fault Refusal := act true (smbRead a pec smbStatus) s
def execSmbPower (a : Nat) (pec : Bool) (s : State) : Host.Outcome State Fault Refusal :=
  act true (smbRead a pec (fun h => h.wdn.inputPower % 2 ^ 16)) s
def execSmbVoltage (a : Nat) (pec : Bool) (s : State) : Host.Outcome State Fault Refusal :=
  act true (smbRead a pec (fun h => h.wdn.inputVoltage % 2 ^ 16)) s
def execSmbHottest (a : Nat) (pec : Bool) (s : State) : Host.Outcome State Fault Refusal := act true (smbRead a pec hottestByte) s
def execSmbSensorSel (a : Nat) (pec : Bool) (v : BitVec 8) (s : State) : Host.Outcome State Fault Refusal :=
  act true (smbWrite a pec (modWdn (fun w => { w with sensorSel := min 47 v.toNat }))) s
def execSmbSensor (a : Nat) (pec : Bool) (s : State) : Host.Outcome State Fault Refusal :=
  act true (smbRead a pec (fun h => sensorTemp h h.wdn.sensorSel)) s
def execSmbVoteStat (a : Nat) (pec : Bool) (s : State) : Host.Outcome State Fault Refusal := act true (smbRead a pec voteStat) s
def execSmbAlertClr (a : Nat) (pec : Bool) (v : BitVec 8) (s : State) : Host.Outcome State Fault Refusal :=
  act true (smbWrite a pec (mgmtClear v.toNat)) s
def execSmbEmstop (a : Nat) (pec : Bool) (v : BitVec 8) (s : State) : Host.Outcome State Fault Refusal := act true (smbWrite a pec (smbStop v.toNat)) s
def execSmbReset (a : Nat) (pec : Bool) (v : BitVec 8) (s : State) : Host.Outcome State Fault Refusal :=
  act true (smbWrite a pec (fun h => if v = 0xC3 then moduleReset 1 h else h)) s
/-- The Alert Response Address 0x0C: a port that asserts SMBALERT# answers its own address. -/
def execSmbAlertResponse (s : State) : Host.Outcome State Fault Refusal :=
  act true (fun h => if h.wdn.power && smbAlert h.wdn then modWdn (fun w => { w with smbOut := some (2 * smbAddr) }) h else h) s

end Sys2Proof.Machine
end

