-- ==== Sys2Proof/Machine/Sleep.lean ====
section
/-!
DEFINITION. Sleep states and waking (01 R20, R22; 02 R39 to R41; 07 R212; 17 R453, R454; 19 R500).
-/
namespace Sys2Proof.Machine

/-- A thread of the wing can issue once the wing runs (R39, R40). -/
def wingRunnable (h : Hw) (w : Nat) : Bool :=
  (List.range 8).any (fun i => (List.range 64).any (fun t =>
    match thrCtx h { g := 8 * w + i, t } with
    | none => false
    | some c => (thread h { g := 8 * w + i, t }).st == .ready && mayRun h c (8 * w + i)))

/-- A gallery has work in progress (R39): an issued instruction, array queue, loader, pipeline, selection engine, an LDA whose data may move
(log 62), or probe work of one of its threads. -/
def galBusy (h : Hw) (g : Nat) : Bool :=
  let G := gal h g
  G.latch.isSome || !G.queue.isEmpty || G.loader.isSome || !G.pipe.isEmpty || !G.sel.isEmpty
    || G.thr.any (fun e => e.2.lda.any (fun l => l.done.isNone))
    || h.probe.scans.any (fun s => s.th.g == g && !s.ended) || h.probe.walks.any (fun x => x.th.g == g)

/-- S1_ENTRY (R39): the wing has been idle for 1 µs; its galleries drop to their clock-gated cost. -/
def s1Entry (w : Nat) (h : Hw) : Hw :=
  if (wing h w).sleep ≠ 0 || wingRunnable h w || (List.range 8).any (fun i => galBusy h (8 * w + i)) then h else
  (List.range 8).foldl (fun h i => grainRelease (.gallery (8 * w + i)) 0 h) (modWing h w (fun W => { W with sleep := 1, since := now h, waking := false }))

/-- S2_ENTRY (R39): the wing has been in S1 for S2_IDLE and no group is open in it; stationary sets and accumulators are lost (07 R212; 08
R230). -/
def s2Entry (w : Nat) (h : Hw) : Hw :=
  let W := wing h w
  if W.sleep ≠ 1 || W.waking || decide (now h < W.since + 100 * h.wdn.s2idle) || (List.range 8).any (fun i => (gal h (8 * w + i)).group.isSome) then h else
  (List.range 8).foldl (fun h i =>
    let (e, h) := freshEpoch h
    modGal (grainRelease (.gallery (8 * w + i)) 3 h) (8 * w + i) (fun G => { G with
      set0 := { G.set0 with undef := true }
      set1 := { G.set1 with undef := true }
      acc := []
      accZero := false
      accEpoch := e })) (modWing h w (fun W => { W with sleep := 2, since := now h }))

/-- Background work of the MDM is pending (R39, R41). -/
def mdmBusy (h : Hw) : Bool :=
  h.mdm.recovering || h.mdm.pieces != [] || h.mdm.reclaims != [] || h.mdm.lzPages != [] || h.mdm.writes != [] || h.mdm.forming.isSome
    || decide (h.mdm.jdone < h.mdm.jseq) || h.mdm.san.durable || h.flash.ops != []

/-- Every wing has been in S2 for S3_IDLE. -/
def wingsDeep (h : Hw) : Bool :=
  (List.range 12).all (fun w => decide ((wing h w).sleep = 2) && !(wing h w).waking && decide ((wing h w).since + 100000 * h.wdn.s3idle ≤ now h))

/-- A grant given up. -/
def dropGrants (l : List Requester) (h : Hw) : Hw :=
  l.foldl (fun (h : Hw) (r : Requester) => setAcct h (reqAcct r) ((acct h.wdn (reqAcct r)).lower r 0)) h

/-- S3_ENTRY (R39; 17 R453; 19 R500): the network's clock stops, working memory enters self-refresh and the host link narrows. -/
def s3Entry (h : Hw) : Hw :=
  if !h.wdn.ready || h.wdn.modState != 0 || !h.wdn.s3en || (h.ffu.awake && assigned h) || !wingsDeep h || !h.host.cmds.isEmpty
      || h.probe.scans.any (fun s => !s.ended) || mdmBusy h || !h.ffu.wait.isEmpty || h.ffu.flights.any (fun e => !e.2.replay.isEmpty) then h
  else
    let h := (List.range 64).foldl (fun h c => if (chan h c).state = 0 then modChan c (fun x => { x with state := 1 }) h else h) h
    toListen (dropGrants [.netBase, .hlu, .ffu, .probe] (modWdn (fun w => { w with modState := 3, modSince := now h, waking := false, pllNet := false, pllDram := false }) h))

/-- S4_ENTRY (R39; 01 R20): after S4_IDLE in S3 flights that carry no traffic, holding 0.2 grains each, and the landings go to low power. -/
def s4Entry (h : Hw) : Hw :=
  if h.wdn.modState != 3 || h.wdn.waking || !h.wdn.s4en || decide (now h < h.wdn.modSince + 100000000 * h.wdn.s4idle) then h else
  let h := (List.range 64).foldl (fun h f => if (flight h f).state = 2 && (flight h f).replay.isEmpty then
      modWdn (fun w => { w with vserdes := w.vserdes.lower (.flight f) 2 }) (stateChanged f (modFlight f (fun x => { x with state := 3 }) h))
    else h) h
  dropGrants (.flashStanding :: (List.range 16).map (fun l => .landing l))
    (modWdn (fun w => { w with modState := 4, modSince := now h, pllLanding := 0 }) h)

/-- WAKE_TRIGGER (R40): of a wing in S1 or S2 that has a runnable thread, or (12) of the module in S3 or S4, whose host link begins to widen
(17 R454). -/
def wakeTrigger (k : Nat) (h : Hw) : Hw :=
  if k < 12 then
    if (wing h k).sleep = 0 || (wing h k).waking || (wing h k).retired || h.wdn.modState != 0 || !wingRunnable h k then h
    else modWing h k (fun W => { W with waking := true, since := now h })
  else if h.wdn.modState = 0 || h.wdn.waking then h
  else
    let h := modWdn (fun w => { w with waking := true, modSince := now h }) h
    if h.host.link.state = 3 then grainRequest .hostPhy 0 { h with host := { h.host with link := { h.host.link with state := 4 } } } else h

/-- DOMAIN_WAKE_DONE (R39): the wake latency has passed. A wing that leaves S2 reloads the stationary sets of the running context (07 R212);
working memory leaves self-refresh. -/
def wakeDone (k : Nat) (h : Hw) : Hw :=
  if k < 12 then
    let W := wing h k
    let need := if W.sleep = 1 then 20 else 4000
    if !W.waking || decide (now h < W.since + need) then h else
    let h' := modWing h k (fun W => { W with sleep := 0, since := now h, waking := false })
    if W.sleep = 1 then h' else
    (List.range 8).foldl (fun h i =>
      match galPart h (8 * k + i) with
      | none => h
      | some p => match (part h p).running with
        | some c => reloadSets (4 * p + c) (8 * k + i) h
        | none => h) h'
  else
    let need := if h.wdn.modState = 3 then 60000 else 500000
    if !h.wdn.waking || decide (now h < h.wdn.modSince + need) then h else
    let h := (List.range 64).foldl (fun h c => if (chan h c).state = 1 then modChan c (fun x => { x with state := 0 }) h else h) h
    modWdn (fun w => { w with modState := 0, modSince := now h, waking := false }) h

def execS1Entry (w : Nat) (s : State) : Host.Outcome State Fault Refusal := act (decide (w < 12)) (s1Entry w) s
def execS2Entry (w : Nat) (s : State) : Host.Outcome State Fault Refusal := act (decide (w < 12)) (s2Entry w) s
def execS3Entry (s : State) : Host.Outcome State Fault Refusal := act true s3Entry s
def execS4Entry (s : State) : Host.Outcome State Fault Refusal := act true s4Entry s
def execWakeTrigger (k : Nat) (s : State) : Host.Outcome State Fault Refusal := act (decide (k < 13)) (wakeTrigger k) s
def execDomainWakeDone (k : Nat) (s : State) : Host.Outcome State Fault Refusal := act (decide (k < 13)) (wakeDone k) s

end Sys2Proof.Machine
end

