-- ==== Sys2Proof/Machine/Csr.lean ====
section
/-!
DEFINITION. The CSR space (01 R24 to R27): every register of the manual's register maps, what a read returns and clears, what a write changes.
-/
namespace Sys2Proof.Machine

/-! ## The address space (01 R24, R25) -/

/-- Reserved ranges (R24). -/
def csrReserved (a : Nat) : Bool :=
  (decide (0x31000 ≤ a) && decide (a < 0x40000)) || (decide (0xC0000 ≤ a) && decide (a < 0x100000))
    || (decide (0x160000 ≤ a) && decide (a < 0x200000)) || decide (0x300000 ≤ a)

/-- An access to this address is carried out (R25). -/
def csrOk (a : Nat) : Bool := a % 4 == 0 && !csrReserved a

/-- A register's word from its fields: lowest bit, width, value. -/
def fields (l : List (Nat × Nat × Nat)) : Nat := l.foldl (fun n x => n + x.2.2 % 2 ^ x.2.1 * 2 ^ x.1) 0

/-- Bits [lo + n − 1 : lo] of a word written. -/
def bitsOf (v lo n : Nat) : Nat := v / 2 ^ lo % 2 ^ n

/-- What a read returns: the register's fields, and those whose value a measurement that no command carries decides, as (lowest bit, width,
largest value); `open_` fields read a free value (log 8). -/
structure CsrVal where
  val : Nat
  open_ : List (Nat × Nat × Nat) := []

def rv (n : Nat) : Option CsrVal := some { val := n }

/-- A register of an array: index and whether the offset is one of `n` at a stride. -/
def idx (off base stride n : Nat) : Option Nat :=
  if base ≤ off ∧ (off - base) % stride = 0 ∧ (off - base) / stride < n then some ((off - base) / stride) else none

/-! ## Reading -/

/-- WDN_STATE.WING of a wing (02 R58). -/
def wingState (h : Hw) (w : Nat) : Nat :=
  if (wing h w).sleep ≠ 0 then (wing h w).sleep else if (List.range 8).any (fun i => (gal h (8 * w + i)).stalled) then 3 else 0

/-- Warden (02 R58; 20 R538; 21 R553; 24 R593). -/
def readWarden (h : Hw) (o : Nat) : Option CsrVal :=
  let w := h.wdn
  match idx o 0x200 0x20 3, idx o 0x204 0x20 3, idx o 0x208 0x20 3, idx o 0x20C 0x20 3, idx o 0x600 4 48 with
  | some a, _, _, _, _ => rv (fields [(16, 16, capacity a), (0, 16, (acct w a).ceiling)])
  | _, some a, _, _, _ => rv (fields [(16, 16, (acct w a).waits.foldl (fun n q => n + q.amt) 0), (0, 16, (acct w a).sum)])
  | _, _, some a, _, _ => rv (fields [(16, 3, (effective w a).2), (0, 16, (effective w a).1)])
  | _, _, _, some a, _ => rv (acct w a).revokes
  | _, _, _, _, some k => rv (fields [(31, 1, bit (tget w.sensors k).isSome), (0, 16, sensorTemp h k)])
  | _, _, _, _, _ =>
    match o with
    | 0x100 => rv (w.aon.toNat % 2 ^ 32)
    | 0x104 => rv w.aonHi.toNat
    | 0x300 => rv (fields [(24, 8, hottestByte h), (0, 8, w.thermLimit)])
    | 0x310 => rv (sleepWord w)
    | 0x320 => rv (fields [(8, 1, bit w.opAuto), (4, 2, w.opFloor), (2, 2, w.opTarget), (0, 2, w.opCur)])
    | 0x330 => rv (fields ((24, 3, w.modState) :: (List.range 12).map (fun k => (2 * k, 2, wingState h k))))
    | 0x340 => rv w.evt.toNat
    | 0x400 => rv (fields [(28, 4, h.boot.stage), (16, 4, h.boot.modOverlay), (8, 8, h.boot.anti), (1, 1, bit h.boot.trial), (0, 1, h.boot.run)])
    | 0x404 => rv (fields [(16, 16, h.boot.resets), (8, 1, bit h.boot.losing), (0, 4, h.boot.cause)])
    | 0x500 => rv (fields [(8, 2, Config.smbStraps.toNat), (6, 1, bit w.flashHot), (5, 1, bit (emstop w)), (4, 1, bit w.emstopSmb),
        (3, 1, bit w.emstopPin), (2, 1, bit w.stopEvt), (1, 1, bit w.coolantDt), (0, 1, bit w.coolantHot)])
    | 0x504 => rv (fields [(16, 16, w.inputPower), (0, 16, w.inputVoltage)])
    | _ => none

/-- HLU (17 R463). -/
def readHlu (h : Hw) (o : Nat) : Option CsrVal :=
  let l := h.host.link
  match o with
  | 0x00 => rv (fields [(1, 1, bit l.retrainReq), (0, 1, bit l.listenEn)])
  | 0x04 => rv (fields [(24, 8, l.lanesGood), (20, 4, l.width), (0, 3, l.state)])
  | 0x08 => rv l.fecCorr
  | 0x0C => rv l.fecUncorr
  | 0x10 => rv (fields [(16, 16, l.replays), (8, 8, l.retrains), (0, 8, l.resets)])
  | 0x14 => rv (fields [(16, 16, l.maxLat), (0, 16, l.busy)])
  | 0x18 => rv l.loop
  | 0x1C => rv l.evt
  | _ => none

/-- FFU: flights at their stride, then the common registers (19 R518). -/
def readFfu (h : Hw) (a : Nat) : Option CsrVal :=
  let u := h.ffu
  if a < 0x30000 then
    let x := flight h ((a - 0x20000) / 0x400)
    match a % 0x400 with
    | 0 => rv (fields [(16, 14, x.peer), (8, 8, x.rtt), (4, 3, x.width), (0, 3, x.state)])
    | 4 => rv (fields [(2, 1, bit x.disable), (0, 2, x.loop)])
    | 8 => rv (fields [(16, 16, x.replays), (8, 8, x.retrains), (0, 8, x.fec)])
    | _ => none
  else match idx a 0x30000 4 512 with
    | some k => rv (tgetD u.groute k 0).toNat
    | none => match a with
      | 0x30800 => rv u.id
      | 0x30804 => rv (fields [(4, 2, u.misLimit), (3, 1, bit u.adaptive), (2, 1, bit u.awake), (1, 1, bit u.remoteEn)])
      | 0x30808 => rv (fields [(16, 16, u.barS), (0, 16, u.reqMs)])
      | 0x3080C => rv u.evt
      | 0x30810 => rv u.resends
      | _ => none

/-- JST_PART_STATE (12 R341). -/
def partState (h : Hw) (p : Nat) : Nat :=
  let P := part h p
  let wings := (List.range 12).filter (fun w => wingIn h p w)
  let st := if P.resetting.isSome then 2 else if !P.inEff.valid then 0 else if wings.isEmpty then 3 else 1
  fields (wings.map (fun w => (16 + w, 1, 1)) ++ (List.range 4).map (fun c => (8 + c, 1, bit ((ctx h (4 * p + c)).st != .free)))
    ++ [(7, 1, bit P.running.isSome), (6, 1, bit P.switch.isSome), (4, 2, P.running.getD 0), (0, 2, st)])

/-- Job Steward (12 R341). -/
def readJst (h : Hw) (o : Nat) : Option CsrVal :=
  match idx o 0x100 4 8, idx o 0x140 4 8, idx o 0x180 4 8, idx o 0x200 0x10 32, idx o 0x204 0x10 32 with
  | some p, _, _, _, _ => rv (partState h p)
  | _, some p, _, _, _ => rv (part h p).preempts
  | _, _, some p, _, _ => rv (part h p).abandons
  | _, _, _, some x, _ => rv (ctxStateWord h x)
  | _, _, _, _, some x => rv (fields [(16, 16, (ctx h x).timeouts), (0, 16, (ctx h x).lends)])
  | _, _, _, _, _ =>
    match o with
    | 0x00 => rv (fields [(1, 1, bit h.jst.lendEn), (0, 1, bit h.jst.preemptEn)])
    | 0x04 => rv h.jst.groupLimit
    | 0x08 => rv h.jst.lendLimit
    | 0x10 => rv h.jst.evt
    | _ => none

/-- Probe Engine (11 R316). -/
def readProbe (h : Hw) (o : Nat) : Option CsrVal :=
  let P := h.probe
  match o with
  | 0 => rv (fields [(16, 1, bit P.localKeepEn), (0, 16, P.tightenNs)])
  | 4 => rv (fields [(24, 8, min 255 P.walks.length), (16, 8, min 255 (P.scans.filter (fun s => !s.started && !s.ended)).length),
      (0, 7, (P.scans.filter (fun s => s.started && !s.ended)).length)])
  | 8 => rv P.late
  | _ => none

/-- WMC (13 R363; 22 R558); UTIL is measured. -/
def readWmc (h : Hw) (o : Nat) : Option CsrVal :=
  let W := h.wmc
  match idx o 0x100 4 64, idx o 0x200 4 64 with
  | some c, _ => some { val := fields [(16, 16, (chan h c).queue.length), (0, 2, (chan h c).state)], open_ := [(8, 8, 100)] }
  | _, some c => rv (fields [(31, 1, bit (decide ((chan h c).remap.length = 64))), (0, 7, (chan h c).remap.length)])
  | _, _ =>
    match o with
    | 0 => some { val := fields [(8, 7, (chansUp h).length), (0, 1, bit (reconfiguring h))], open_ := [(24, 8, 100)] }
    | 4 => rv (fields [(8, 1, bit W.retireOnFull), (0, 8, W.thresh)])
    | 8 => rv W.retireSel
    | 0xC => rv (fields [(31, 1, bit W.loopDone), (30, 1, bit W.loopFail), (16, 8, W.loopBad), (8, 2, W.loopMode), (0, 6, W.loopChan)])
    | _ => none

/-- All remap entries of an SRAM unit are in use (16 R437): 16 of a bank group, 64 of an atrium slice. -/
def rowsFull (h : Hw) (unit : Nat) : Bool := decide ((if unit < 384 then 16 else 64) ≤ (tgetD h.diu.remaps unit []).length)

/-- DIU (16 R444, R447). -/
def readDiu (h : Hw) (o : Nat) : Option CsrVal :=
  let D := h.diu
  match idx o 0x20 4 6, idx o 0x40 4 12 with
  | some t, _ =>
    let L := tgetD D.logs t {}
    rv (fields [(31, 1, bit L.overflow), (6, 25, L.total), (0, 6, L.ents.length)])
  | _, some k => rv (fields ((List.range 32).map (fun i => (i, 1, bit (rowsFull h (32 * k + i))))))
  | _, _ =>
    match o with
    | 0x00 => rv (fields ([(31, 1, bit (!D.wb.isEmpty || h.flash.ops.any (fun x => x.owner == .scrub))),
        (4, 1, bit ((List.range 384).any (fun u => rowsFull h u)))] ++ (List.range 4).map (fun s => (s, 1, bit (rowsFull h (384 + s))))))
    | 0x04 => rv (fields [(16, 16, D.retireT2), (0, 16, D.refreshT2)])
    | 0x08 => rv D.sramThresh
    | 0x0C => rv (voteStat h)
    | 0x10 => rv D.evt
    | 0x100 => rv D.chkCtl
    | 0x104 => rv D.chkLo
    | 0x108 => rv D.chkHi
    | 0x10C => rv D.chkEcc
    | 0x110 => rv D.chkSyn
    | _ => none

/-- MDM (15 R430). -/
def readMdm (h : Hw) (o : Nat) : Option CsrVal :=
  let M := h.mdm
  match idx o 0x100 4 16 with
  | some s => rv (fields [(16, 13, freeCount M.map s), (0, 13, (M.map.sbs.filter (fun e => e.1 / 7427 = s && e.2.evict && e.2.st != 3)).length)])
  | none =>
    match o with
    | 0x00 => rv (fields [(24, 8, spareLeft h), (16, 8, wearUsed h), (3, 1, bit (M.recovering || !M.pieces.isEmpty)),
        (2, 1, bit ((List.range 16).any (fun s => decide (freeCount M.map s < reclaimUrgent M)))), (1, 1, bit M.san.durable), (0, 1, bit M.readOnly)])
    | 0x04 => rv (fields [(8, 8, M.urgent), (0, 8, M.start)])
    | 0x08 => rv M.lzMax
    | 0x0C => rv (fields [(16, 16, M.foldS), (0, 16, M.budget)])
    | 0x10 => rv (fields [(16, 16, M.interval), (0, 16, M.jmib)])
    | 0x14 => rv M.evt
    | 0x18 => rv (sanitizeWord h)
    | 0x20 => rv M.reclaimed
    | _ => none

/-- One context's block of the scale stage (09 R265). -/
def readVsu (h : Hw) (g k o : Nat) : Option CsrVal :=
  let p := (galPart h g).getD 0
  let V := vsuOf (gal h g) k
  let slot := slotOf h g (4 * p + k)
  match idx o 0x20 4 8, idx o 0x40 4 8, idx o 0x60 4 8, idx o 0x80 4 8, idx o 0xA0 4 8, idx o 0xC0 4 4 with
  | some s, _, _, _, _, _ => rv (slot s).cfg.toNat
  | _, some s, _, _, _, _ =>
    let x := slot s
    rv (fields [(16, 16, x.adapts), (4, 1, bit x.seeded), (3, 1, bit x.noobs), (2, 1, bit x.degenerate), (1, 1, bit x.rerun),
      (0, 1, bit (x.inStartup (gal h g).warmup))])
  | _, _, some s, _, _, _ => rv (slot s).narrowed
  | _, _, _, some s, _, _ => rv (slot s).clamped
  | _, _, _, _, some s, _ => rv (fields [(16, 16, (slot s).satFrac), (0, 16, (slot s).ver)])
  | _, _, _, _, _, some j => rv (bitsOf (slot (V.sel.toNat % 8)).degen.toNat (32 * j) 32)
  | _, _, _, _, _, _ =>
    match o with
    | 0 => rv V.sel.toNat
    | 4 => rv (fields [(16, 16, V.active.ver), (15, 1, bit V.waiting), (8, 3, V.pend.slot), (0, 3, V.active.slot)])
    | _ => none

/-- The physical column a gallery's witness holds now (07 R219, R227). -/
def witnessed (G : Gallery) : Nat := match (if G.active = 0 then G.set0 else G.set1).witness with
  | some w => physCol G w.1
  | none => 0

/-- A gallery's window (07 R227; 08 R245; 09 R265); the wing's registers are the same in all its galleries' windows. -/
def readGal (h : Hw) (g o : Nat) : Option CsrVal :=
  let G := gal h g
  let W := wing h (g / 8)
  if 0x900 ≤ o ∧ o < 0xD00 then readVsu h g ((o - 0x900) / 0x100) (o % 0x100) else
  match idx o 0x10 4 4, idx o 0x20 4 4 with
  | some k, _ => rv (bitsOf G.bypass.toNat (32 * k) 32)
  | _, some k => rv (bitsOf G.bypassAct.toNat (32 * k) 32)
  | _, _ =>
    match o with
    | 0x00 =>
      let v := fields [(15, 1, bit G.colFault), (14, 1, bit G.stalled), (13, 1, bit (shadowMode h g)), (12, 1, G.active), (11, 1, bit G.group.isSome),
        (3, 2, (G.queue.filter (fun q => !q.started)).length), (2, 1, bit G.nan), (1, 1, bit G.inf), (0, 1, bit G.sat)]
      (match G.group with
        | some x => rv (v + 2 ^ 5 * (x.holder % 64))
        | none => some { val := v, open_ := [(5, 6, 63)] })
    | 0x04 => rv (fields [(8, 5, 128 - cols h g), (0, 8, cols h g)])
    | 0x30 => rv (fields [(31, 1, bit G.wdis), (16, 7, G.lastCol), (8, 8, G.transients), (0, 7, witnessed G)])
    | 0x40 => rv 0
    | 0x44 => rv G.perfRows
    | 0x48 => rv G.perfBusy
    | 0x4C => rv G.perfStream
    | 0x50 => rv G.perfRevoke
    | 0x54 => rv G.stNanz
    | 0x100 => rv (fields [(31, 1, bit G.accAuto), (0, 8, G.accRow8)])
    | 0x104 => rv (fields [(16, 16, G.accCorrected), (15, 1, bit G.accUncorr), (0, 11, G.accLastRow)])
    | 0x108 => rv G.drainRows
    | 0x400 => rv (fields [(2, 1, bit W.joinEn), (0, 2, W.burst)])
    | 0x404 => some { val := fields ((16, 4, min 15 W.convoys.length) :: (List.range 8).map (fun i =>
        (i, 1, bit (W.convoys.any (fun v => v.members.any (fun m => m.g = g / 8 * 8 + i && m.missed.isNone)))))), open_ := [(24, 8, 100)] }
    | 0x408 => rv (fields [(2, 1, bit W.restore), (1, 1, bit W.retire), (0, 1, bit W.retired)])
    | 0x800 => rv G.warmup
    | _ => none

/-- RDWAIT below its minimum (14 R373, R374). -/
def waitLow (x : FChan) : Bool :=
  let least : Nat × Nat := match x.vccqAct, x.rateAct with
    | true, 0 => (2, 1)
    | true, 1 => (4, 1)
    | true, 2 => (6, 2)
    | true, _ => (8, 2)
    | false, 0 => (3, 1)
    | false, 1 => (5, 2)
    | false, 2 => (7, 2)
    | false, _ => (10, 3)
  decide (x.rlatAct < least.1) || decide (x.rpreAct < least.2)

/-- A landing's window and its LPU's (14 R397; 11 R316). -/
def readLnd (h : Hw) (l o : Nat) : Option CsrVal :=
  let L := landing h l
  match idx o 0x100 0x20 4, idx o 0x104 0x20 4, idx o 0x108 0x20 4 with
  | some k, _, _ => let x := fchan h (4 * l + k); rv (fields [(2, 1, bit x.vccq), (0, 2, x.rate)])
  | _, some k, _ => let x := fchan h (4 * l + k); rv (fields [(8, 4, x.rpre), (0, 8, x.rlat)])
  | _, _, some k =>
    let x := fchan h (4 * l + k)
    some { val := fields [(16, 8, x.suspends), (8, 8, x.padErrs), (1, 1, bit x.padSync), (0, 1, bit (waitLow x))], open_ := [(24, 8, 100)] }
  | _, _, _ =>
    match o with
    | 0x000 => rv (fields [(1, 1, bit L.suspendEn), (0, 1, bit L.prefEn)])
    | 0x004 => rv (fields [(16, 1, bit L.ownRefused), (8, 8, 100 * L.buf.length / 8192), (1, 1, bit L.lost), (0, 1, bit L.booted)])
    | 0x010 => rv (fields [(16, 16, L.replays), (8, 8, L.retrains), (0, 3, L.width)])
    | 0x014 => rv (fields [(2, 4, L.loopPad.toNat), (0, 2, L.loopLink)])
    | 0x200 => rv L.period
    | 0x204 => rv L.wwSel
    | 0x208 => let D := die h (32 * l + L.wwSel % 32); rv (fields [(31, 1, bit D.moving.isSome), (13, 13, D.offset), (0, 13, D.gap)])
    | 0x300 => rv (fields [(31, 1, bit L.calEn), (8, 8, L.calWindow), (0, 8, L.calRate)])
    | 0x400 => rv L.own.toNat
    | 0x8000 => rv (fields [(16, 7, lpuContexts h), (0, 9, lpuSlots h)])
    | 0x8004 => rv (tgetD h.probe.records l 0)
    | 0x8008 => rv (tgetD h.probe.survivors l 0)
    | _ => none

/-- The register at an address of R24; none where the maps list none. -/
def csrVal (h : Hw) (a : Nat) : Option CsrVal :=
  if a < 0x10000 then readWarden h a
  else if a < 0x20000 then readHlu h (a - 0x10000)
  else if a < 0x31000 then readFfu h a
  else if a < 0x40000 then none
  else if a < 0x80000 then readJst h (a - 0x40000)
  else if a < 0x90000 then readProbe h (a - 0x80000)
  else if a < 0xA0000 then readWmc h (a - 0x90000)
  else if a < 0xB0000 then readDiu h (a - 0xA0000)
  else if a < 0xC0000 then readMdm h (a - 0xB0000)
  else if a < 0x100000 then none
  else if a < 0x160000 then readGal h ((a - 0x100000) / 0x1000) (a % 0x1000)
  else if a < 0x200000 then none
  else if a < 0x300000 then readLnd h ((a - 0x200000) / 0x10000) (a % 0x10000)
  else none

/-- The register has read-clear fields (00 R7). -/
def csrIsRc (a : Nat) : Bool :=
  if a < 0x10000 then (idx a 0x20C 0x20 3).isSome
  else if a < 0x20000 then [0x10008, 0x1000C, 0x10010, 0x10014].contains a
  else if a < 0x30000 then a % 0x400 == 8
  else if a < 0x40000 then a == 0x30810
  else if a < 0x80000 then (idx a 0x40140 4 8).isSome || (idx a 0x40180 4 8).isSome || (idx a 0x40204 0x10 32).isSome
  else if a < 0x90000 then a == 0x80008
  else if a < 0xB0000 then a == 0xA000C
  else if a < 0xC0000 then a == 0xB0020
  else if a < 0x160000 then decide (0x100000 ≤ a) && [0x54, 0x104, 0x108].contains (a % 0x1000)
  else decide (0x200000 ≤ a) && decide (a < 0x300000) && ([0x10, 0x108, 0x128, 0x148, 0x168, 0x8004, 0x8008].contains (a % 0x10000))

/-- What reading clears or latches (00 R7; 02 R35). -/
def csrTouch (a : Nat) (h : Hw) : Hw :=
  if a < 0x10000 then
    if a = 0x100 then modWdn (fun w => { w with aonHi := BitVec.ofNat 32 (w.aon.toNat / 2 ^ 32) }) h
    else match idx a 0x20C 0x20 3 with
      | some k => setAcct h k { acct h.wdn k with revokes := 0 }
      | none => h
  else if a < 0x20000 then
    match a with
    | 0x10008 => modLink (fun l => { l with fecCorr := 0 }) h
    | 0x1000C => modLink (fun l => { l with fecUncorr := 0 }) h
    | 0x10010 => modLink (fun l => { l with replays := 0, retrains := 0, resets := 0 }) h
    | 0x10014 => modLink (fun l => { l with maxLat := 0, busy := 0 }) h
    | _ => h
  else if a < 0x30000 then
    if a % 0x400 = 8 then modFlight ((a - 0x20000) / 0x400) (fun x => { x with replays := 0, retrains := 0, fec := 0 }) h else h
  else if a < 0x40000 then (if a = 0x30810 then modFfu (fun u => { u with resends := 0 }) h else h)
  else if a < 0x80000 then
    match idx a 0x40140 4 8, idx a 0x40180 4 8, idx a 0x40204 0x10 32 with
    | some p, _, _ => modPart h p (fun P => { P with preempts := 0 })
    | _, some p, _ => modPart h p (fun P => { P with abandons := 0 })
    | _, _, some x => modCtx h x (fun X => { X with lends := 0, timeouts := 0 })
    | _, _, _ => h
  else if a < 0x90000 then (if a = 0x80008 then modProbe (fun P => { P with late := 0 }) h else h)
  else if a < 0xB0000 then (if a = 0xA000C then modDiu (fun D => { D with corrected := 0 }) h else h)
  else if a < 0xC0000 then (if a = 0xB0020 then modMdm (fun M => { M with reclaimed := 0 }) h else h)
  else if a < 0x160000 then
    let g := (a - 0x100000) / 0x1000
    match a % 0x1000 with
    | 0x54 => modGal h g (fun G => { G with stNanz := 0 })
    | 0x104 => modGal h g (fun G => { G with accCorrected := 0 })
    | 0x108 => modGal h g (fun G => { G with drainRows := 0 })
    | _ => h
  else
    let l := (a - 0x200000) / 0x10000
    let o := a % 0x10000
    match idx o 0x108 0x20 4 with
    | some k => modFchan (4 * l + k) (fun x => { x with suspends := 0, padErrs := 0 }) h
    | none => match o with
      | 0x10 => modLanding l (fun L => { L with replays := 0, retrains := 0 }) h
      | 0x8004 => modProbe (fun P => { P with records := tput P.records l 0 }) h
      | 0x8008 => modProbe (fun P => { P with survivors := tput P.survivors l 0 }) h
      | _ => h

/-- A free value for each open field. -/
def openFields (l : List (Nat × Nat × Nat)) (v : Nat) (h : Hw) : Nat × Hw :=
  l.foldl (fun (x : Nat × Hw) f =>
    let (b, h) := freeVal f.2.1 x.2
    (x.1 + b.toNat % (f.2.2 + 1) * 2 ^ f.1, h)) (v, h)

/-- A read: the value, and the state after it. An address with no register behind it reads 0 (R25), unless one of the dumps that the manual
names without an address lies there (22 R565; log 57). -/
def csrRead (a : Nat) (h : Hw) : Nat × Hw :=
  match csrVal h a with
  | some x =>
    let (v, h) := openFields x.open_ x.val h
    (v, csrTouch a h)
  | none =>
    if Config.dumpReg a then
      let (v, h) := freeVal 32 h
      (v.toNat, h)
    else (0, h)

end Sys2Proof.Machine
end

