-- ==== Sys2Proof/Machine/CsrWrite.lean ====
section
/-!
DEFINITION. What a write to a register changes (00 R7, R8; the register maps; 12 R361; 14 R374, R391; 15 R421; 16 R444; 17 R452; 19 R498, R515;
22 R554 to R558). A field holds the value the manual says a written value is taken as (log 56).
-/
namespace Sys2Proof.Machine

/-! ## Flights, landings, channels, the checker -/

/-- FFU_FL_CTL (19 R498, R518; 22 R556): DISABLE set loses the flight, cleared starts a cold training; LOOP leaving 0 takes its traffic
elsewhere, returning to 0 starts a cold training. -/
def flightCtl (f v : Nat) (h : Hw) : Hw :=
  let x := flight h f
  let loop := bitsOf v 0 2
  let dis := v.testBit 2
  let cold := fun (h : Hw) => (if (flight h f).cable then grainRequest (.flight f) 0 else id)
    (stateChanged f (modFlight f (fun y => { y with state := if y.cable then 1 else 0, width := 0, replay := [], used := [], loopAt := none }) h))
  let h := modFlight f (fun y => { y with loop, disable := dis }) h
  let h := if x.loop = 0 ∧ loop ≠ 0 then stateChanged f (modFlight f (fun y => { y with loopAt := some (now h) }) h) else h
  if dis then (if x.state = 4 then h else flightLost f h)
  else if x.disable || (x.loop != 0 && loop == 0) then cold h
  else h

/-- A flight's loop-back is entered once its replay buffer is empty, or after 100 µs: what is still in it gets NACK LOST (22 R556). -/
def flightLoopEnter (f : Nat) (h : Hw) : Hw :=
  let x := flight h f
  match x.loopAt with
  | none => h
  | some t =>
    if !x.replay.isEmpty && decide (now h < t + 10000) then h else
    let h := modFlight f (fun y => { y with replay := [], used := [], loopAt := none }) h
    x.replay.foldl (fun h r => if pktClass r.2.ty = 0 ∨ pktClass r.2.ty = 2 then reply r.2 0x83 0 2 h else h) h

/-- The 8 dies of a channel are in raw ownership. -/
def chanOwned (h : Hw) (l k : Nat) : Bool := (List.range 8).all (fun t => (landing h l).own.getLsbD (8 * k + t))

/-- LND_LOOP (14 R397; 22 R557): a non-zero LINK makes the landing lost to the MDM unless a die of another landing is out of service; back at 0
its dies are to be rebuilt. A PAD bit takes effect only on a channel all of whose dies are in raw ownership. -/
def landingLoop (l v : Nat) (h : Hw) : Hw :=
  let L := landing h l
  let want := if bitsOf v 0 2 = 3 then 0 else bitsOf v 0 2
  let otherOut := (List.range 512).any (fun d => d / 32 != l && dieOut h d)
  let link := if want ≠ 0 ∧ otherOut then 0 else want
  let pad := (List.range 4).foldl (fun (m : BitVec 4) k => if v.testBit (2 + k) && chanOwned h l k then m ||| BitVec.ofNat 4 (2 ^ k) else m) 0
  let h := modLanding l (fun L => { L with loopLink := link, loopPad := pad }) h
  let h := (List.range 4).foldl (fun h k => if pad.getLsbD k then h else modFchan (4 * l + k) (fun x => { x with padSync := false }) h) h
  if L.loopLink = 0 ∧ link ≠ 0 then
    (List.range 32).foldl (fun h i => dieGone (32 * l + i) h) (modLanding l (fun L => { L with buf := [] }) h)
  else if L.loopLink ≠ 0 ∧ link = 0 then
    (List.range 32).foldl (fun h i => if (die h (32 * l + i)).lost then h else modDie (32 * l + i) (fun D => { D with rebuild := true }) h) h
  else h

/-- The checker of a channel in pad loop-back reports (22 R554, R557): locked to the pattern, bit errors found. -/
def padReport (c : Nat) (sync : Bool) (errs : Nat) (h : Hw) : Hw :=
  if !(landing h (c / 4)).loopPad.getLsbD (c % 4) then h
  else modFchan c (fun x => { x with padSync := sync, padErrs := satAdd 8 x.padErrs errs }) h

/-- LND_RAW_OWN (14 R391; 15 R421): a bit newly set is refused when the stripes of its die already lack one; a die taken is out of service
at once; a die released is to be rebuilt, and its channel leaves pad loop-back. -/
def rawOwn (l v : Nat) (h : Hw) : Hw :=
  (List.range 32).foldl (fun h i =>
    let d := 32 * l + i
    let has := (landing h l).own.getLsbD i
    let set := fun (h : Hw) (b : Bool) => modLanding l (fun L => { L with
      own := if b then L.own ||| BitVec.ofNat 32 (2 ^ i) else L.own &&& ~~~(BitVec.ofNat 32 (2 ^ i)) }) h
    if has && !v.testBit i then
      modLanding l (fun L => { L with loopPad := L.loopPad &&& ~~~(BitVec.ofNat 4 (2 ^ (i / 8))) })
        (modDie d (fun D => { D with rebuild := true }) (set h false))
    else if !has && v.testBit i then
      let s := (dieSet d).1
      if (List.range 512).any (fun e => e != d && (dieSet e).1 == s && dieOut h e) then modLanding l (fun L => { L with ownRefused := true }) h
      else dieGone d (set h true)
    else h) h

/-- A channel's new settings take effect once no transfer runs on it (14 R374). -/
def chanApply (c : Nat) (h : Hw) : Hw :=
  if h.flash.ops.any (fun o => o.die / 8 = c && o.kind = .read && o.isRunning) then h
  else modFchan c (fun x => { x with vccqAct := x.vccq, rateAct := x.rate, rlatAct := x.rlat, rpreAct := x.rpre }) h

/-- The checker's codeword: target and index in DIU_CHK_CTL (16 R444; log 59). Targets 0 to 95 are bays, 96 to 99 atrium slices, 100 to 163 DRAM
channels. -/
def chkWindow (v : Nat) : Option Nat := if bitsOf v 3 8 < 164 then some (bitsOf v 0 11) else none

/-- DIU_CHK_CTL.WRITE: the codeword is stored exactly as given. -/
def chkWrite (v : Nat) (h : Hw) : Hw :=
  match chkWindow v with
  | none => h
  | some k => modDiu (fun D => { D with windows := tput D.windows k (D.chkLo + 2 ^ 32 * D.chkHi, D.chkEcc % 256) }) h

/-- The syndrome, result and position of a codeword, and its data as decoded: a codeword at distance 1 from it corrects it. -/
def secdedRead (d e : Nat) : Nat × Nat × Nat × Nat :=
  let chk := fun (x : Nat) => (Config.secded (BitVec.ofNat 64 x)).toNat
  let syn := chk d ^^^ e
  if syn = 0 then (0, 0, 0, d)
  else match (List.range 64).find? (fun i => chk (d ^^^ 2 ^ i) = e), (List.range 8).find? (fun i => chk d = e ^^^ 2 ^ i) with
    | some i, _ => (syn, 1, i, d ^^^ 2 ^ i)
    | none, some i => (syn, 1, 64 + i, d)
    | none, none => (syn, 2, 0, d)

/-- DIU_CHK_CTL.READ: through the normal decoder. A codeword that nothing has stored holds an open value. -/
def chkRead (v : Nat) (h : Hw) : Hw :=
  match chkWindow v with
  | none => h
  | some k =>
    let (w, h) := match tget h.diu.windows k with
      | some w => (w, h)
      | none => let (x, h) := freeVal 72 h; ((x.toNat % 2 ^ 64, x.toNat / 2 ^ 64), modDiu (fun D => { D with windows := tput D.windows k (x.toNat % 2 ^ 64, x.toNat / 2 ^ 64) }) h)
    let (syn, res, pos, d) := secdedRead w.1 w.2
    modDiu (fun D => { D with chkSyn := fields [(0, 8, syn), (8, 2, res), (16, 7, pos)], chkLo := d % 2 ^ 32, chkHi := d / 2 ^ 32 }) h

/-- WMC_LOOP.GO (22 R558): `bad` bytes mismatch. A channel in the wrong state for the mode is refused; with the mode off nothing runs. -/
def wmcLoopGo (bad : Nat) (h : Hw) : Hw :=
  let W := h.wmc
  let ok := W.loopMode = 2 || (W.loopMode = 1 && (chan h W.loopChan).state = 3)
  modWmc (fun W => { W with
    loopDone := W.loopMode != 0
    loopFail := W.loopMode != 0 && (!ok || bad != 0)
    loopBad := if ok then min 255 bad else 0 }) h

/-- Clear the bits written as 1. -/
def w1c (old v : Nat) : Nat := old - (old &&& v)

/-! ## Writing -/

def writeWarden (o v : Nat) (h : Hw) : Hw :=
  match idx o 0x200 0x20 3 with
  | some a => let h := setAcct h a { acct h.wdn a with ceiling := takeCeil a (bitsOf v 0 16) }; critSet 3 (ceilings h) h
  | none =>
    match o with
    | 0x300 => modWdn (fun w => { w with thermLimit := max 85 (min 105 (bitsOf v 0 8)) }) h
    | 0x310 => modWdn (setSleepCtl v) h
    | 0x320 =>
      let t := min 2 (bitsOf v 2 2)
      modWdn (fun w => { w with
        opAuto := v.testBit 8
        opFloor := bitsOf v 4 2
        opTarget := t
        opReq := if v.testBit 8 then w.opReq else if t = w.opCur then none else some t }) h
    | 0x340 => modWdn (fun w => { w with evt := w.evt &&& ~~~(BitVec.ofNat 5 v) }) h
    | 0x500 => mgmtClear v h
    | _ => h

/-- HLU: RETRAIN starts a retrain of a trained link (17 R452); LOOP is the debug port's (22 R554). -/
def writeHlu (dbg : Bool) (o v : Nat) (h : Hw) : Hw :=
  match o with
  | 0x00 =>
    let go := v.testBit 1 && h.host.link.coeffs && decide (2 ≤ h.host.link.state)
    modLink (fun l => { l with listenEn := v.testBit 0, retrainReq := l.retrainReq || go, state := if go then 5 else l.state }) h
  | 0x18 => if dbg && decide (bitsOf v 0 3 ≤ 2) then modLink (fun l => { l with loop := bitsOf v 0 3 }) h else h
  | 0x1C => modLink (fun l => { l with evt := w1c l.evt v }) h
  | _ => h

def writeFfu (a v : Nat) (h : Hw) : Hw :=
  if a < 0x30000 then (if a % 0x400 = 4 then flightCtl ((a - 0x20000) / 0x400) v h else h)
  else match idx a 0x30000 4 512 with
    | some k => modFfu (fun u => { u with groute := tput u.groute k (BitVec.ofNat 32 v &&& 0xFFE0FFE0) }) h
    | none => match a with
      | 0x30804 => modFfu (fun u => { u with
          misLimit := min 2 (bitsOf v 4 2)
          adaptive := v.testBit 3
          awake := v.testBit 2
          remoteEn := v.testBit 1 }) h
      | 0x30808 => modFfu (fun u => { u with barS := max 1 (min 3600 (bitsOf v 16 16)), reqMs := max 1 (min 1000 (bitsOf v 0 16)) }) h
      | 0x3080C => modFfu (fun u => { u with evt := w1c u.evt v }) h
      | _ => h

def writeJst (o v : Nat) (h : Hw) : Hw :=
  match o with
  | 0x00 => modJst (fun j => { j with lendEn := v.testBit 1, preemptEn := v.testBit 0 }) h
  | 0x04 => modJst (fun j => { j with groupLimit := max 10000 (min 6000000 v) }) h
  | 0x08 => modJst (fun j => { j with lendLimit := max 100 (min 1000000 v) }) h
  | 0x10 => modJst (fun j => { j with evt := w1c j.evt v }) h
  | _ => h

def writeProbe (o v : Nat) (h : Hw) : Hw :=
  if o = 0 then modProbe (fun P => { P with localKeepEn := v.testBit 16, tightenNs := max 100 (bitsOf v 0 16) }) h else h

/-- WMC: a GO that would leave fewer than 48 channels is ignored (13 R363). -/
def writeWmc (bad o v : Nat) (h : Hw) : Hw :=
  match o with
  | 0x4 => modWmc (fun W => { W with retireOnFull := v.testBit 8, thresh := max 1 (bitsOf v 0 8) }) h
  | 0x8 =>
    let h := modWmc (fun W => { W with retireSel := bitsOf v 0 6 }) h
    if v.testBit 6 && decide (49 ≤ (chansUp h).length) then loseChan h.wmc.retireSel h else h
  | 0xC =>
    let h := modWmc (fun W => { W with loopMode := if bitsOf v 8 2 = 3 then 0 else bitsOf v 8 2, loopChan := bitsOf v 0 6 }) h
    if v.testBit 7 then wmcLoopGo bad h else h
  | _ => h

def writeDiu (o v : Nat) (h : Hw) : Hw :=
  match o with
  | 0x04 =>
    let r := max 1 (bitsOf v 0 16)
    modDiu (fun D => { D with refreshT2 := r, retireT2 := max r (bitsOf v 16 16) }) h
  | 0x08 => modDiu (fun D => { D with sramThresh := max 1 (bitsOf v 0 8) }) h
  | 0x10 => modDiu (fun D => { D with evt := w1c D.evt v }) h
  | 0x100 =>
    let h := modDiu (fun D => { D with chkCtl := bitsOf v 0 11 }) h
    let h := if v.testBit 31 then chkWrite v h else h
    if v.testBit 30 then chkRead v h else h
  | 0x104 => modDiu (fun D => { D with chkLo := v }) h
  | 0x108 => modDiu (fun D => { D with chkHi := v }) h
  | 0x10C => modDiu (fun D => { D with chkEcc := bitsOf v 0 8 }) h
  | _ => h

def writeMdm (o v : Nat) (h : Hw) : Hw :=
  match o with
  | 0x04 =>
    let st := max 2 (bitsOf v 0 8)
    let u := bitsOf v 8 8
    modMdm (fun M => { M with start := st, urgent := if u = 0 then 1 else min st u }) h
  | 0x08 => modMdm (fun M => { M with lzMax := max 16 (min 128 (bitsOf v 0 8)) }) h
  | 0x0C => modMdm (fun M => { M with foldS := bitsOf v 16 16, budget := min 2000 (bitsOf v 0 16) }) h
  | 0x10 => modMdm (fun M => { M with interval := max 60 (bitsOf v 16 16), jmib := max 64 (min 4096 (bitsOf v 0 16)) }) h
  | 0x14 => modMdm (fun M => { M with evt := w1c M.evt v }) h
  | _ => h

/-- GAL_BYPASS (07 R223, R227): the stored mask changes; one with more than 16 columns retires the wing instead. -/
def writeBypass (g k v : Nat) (h : Hw) : Hw :=
  let old := (gal h g).bypass
  let keep := old &&& ~~~(BitVec.ofNat 128 (0xFFFFFFFF * 2 ^ (32 * k)))
  let new := keep ||| BitVec.ofNat 128 (v * 2 ^ (32 * k))
  if 16 < ((List.range 128).filter (fun i => new.getLsbD i)).length then modWing h (g / 8) (fun W => { W with retire := true })
  else modGal h g (fun G => { G with bypass := new })

/-- Registers of a gallery's window that a program may write (04 R115; 07 R227; 09 R265): GAL_STATUS's sticky flags, GAL_PERF_CTL, and a
context's calibration selector and slots. -/
def writeProgram (g k o v : Nat) (h : Hw) : Option Hw :=
  if o = 0 then some (modGal h g (fun G => { G with nan := G.nan && !v.testBit 2, inf := G.inf && !v.testBit 1, sat := G.sat && !v.testBit 0 }))
  else if o = 0x40 then
    some (if v.testBit 0 then modGal h g (fun G => { G with perfRows := 0, perfBusy := 0, perfStream := 0, perfRevoke := 0 }) else h)
  else if o = 0x900 + 0x100 * (k % 4) then some (modVsu h g k (fun V => { V with sel := BitVec.ofNat 32 v &&& 0x107 }))
  else match idx o (0x920 + 0x100 * (k % 4)) 4 8 with
    | some s => some (modSlot h g k s (fun x => { x with cfg := BitVec.ofNat 32 v &&& 0xFFFF733F }))
    | none => none

def writeGal (g o v : Nat) (h : Hw) : Hw :=
  match idx o 0x10 4 4 with
  | some k => writeBypass g k v h
  | none =>
    match o with
    | 0x000 => ((writeProgram g 0 0 v h).getD h) |> fun h => modGal h g (fun G => { G with colFault := G.colFault && !v.testBit 15 })
    | 0x100 => modGal h g (fun G => { G with accAuto := v.testBit 31, accRow8 := bitsOf v 0 8 })
    | 0x104 => modGal h g (fun G => { G with accUncorr := G.accUncorr && !v.testBit 15 })
    | 0x400 => modWing h (g / 8) (fun W => { W with joinEn := v.testBit 2, burst := bitsOf v 0 2 })
    | 0x408 => modWing h (g / 8) (fun W => { W with restore := W.restore || v.testBit 2, retire := W.retire || v.testBit 1 })
    | 0x800 => modGal h g (fun G => { G with warmup := bitsOf v 0 8 })
    | _ => (writeProgram g (4 * (galPart h g).getD 0 + (o - 0x900) / 0x100 % 4) o v h).getD h

def writeLnd (l o v : Nat) (h : Hw) : Hw :=
  match idx o 0x100 0x20 4, idx o 0x104 0x20 4 with
  | some k, _ => modFchan (4 * l + k) (fun x => { x with vccq := v.testBit 2, rate := bitsOf v 0 2 }) h
  | _, some k => modFchan (4 * l + k) (fun x => { x with rpre := bitsOf v 8 4, rlat := bitsOf v 0 8 }) h
  | _, _ =>
    match o with
    | 0x000 => modLanding l (fun L => { L with suspendEn := v.testBit 1, prefEn := v.testBit 0 }) h
    | 0x004 => modLanding l (fun L => { L with ownRefused := L.ownRefused && !v.testBit 16 }) h
    | 0x014 => landingLoop l v h
    | 0x200 => let p := bitsOf v 0 16; modLanding l (fun L => { L with period := if p = 0 then 0 else max 256 p }) h
    | 0x204 => modLanding l (fun L => { L with wwSel := bitsOf v 0 5 }) h
    | 0x300 => modLanding l (fun L => { L with calEn := v.testBit 31, calWindow := max 1 (bitsOf v 8 8), calRate := max 4 (bitsOf v 0 8) }) h
    | 0x400 => rawOwn l v h
    | _ => h

/-- A write with expert enablement, or by the debug port: fields that may be written change, others and reserved bits are ignored (00 R7, R8), and
an address with no register ignores it (R25). `bad` is the outcome of a DRAM loop-back that it starts. -/
def csrWrite (dbg : Bool) (bad a v : Nat) (h : Hw) : Hw :=
  if a < 0x10000 then writeWarden a v h
  else if a < 0x20000 then writeHlu dbg (a - 0x10000) v h
  else if a < 0x40000 then writeFfu a v h
  else if a < 0x80000 then writeJst (a - 0x40000) v h
  else if a < 0x90000 then writeProbe (a - 0x80000) v h
  else if a < 0xA0000 then writeWmc bad (a - 0x90000) v h
  else if a < 0xB0000 then writeDiu (a - 0xA0000) v h
  else if a < 0xC0000 then writeMdm (a - 0xB0000) v h
  else if a < 0x100000 then h
  else if a < 0x160000 then writeGal ((a - 0x100000) / 0x1000) (a % 0x1000) v h
  else if a < 0x200000 then h
  else writeLnd ((a - 0x200000) / 0x10000) (a % 0x10000) v h

end Sys2Proof.Machine
end

