-- ==== Sys2Proof/Machine/Regs.lean ====
section
/-!
DEFINITION. The accesses to the CSR space: REG_READ and REG_WRITE (01 R25 to R27; 18 R472, R475), CSRR and CSRW (04 R115, R116; 05 R163; 08 R238,
R239; 22 R562), and the debug access port's tests and accesses (22 R559 to R561).
-/
namespace Sys2Proof.Machine

/-! ## Waking a block for an access (01 R26) -/

/-- The gallery whose wing is power-gated behind an address. -/
def csrAsleep (h : Hw) (a : Nat) : Bool :=
  decide (0x100000 ≤ a) && decide (a < 0x160000) && decide ((wing h ((a - 0x100000) / 0x8000)).sleep = 2)

/-- The grains of the block are held for the access. -/
def csrGranted (h : Hw) (a : Nat) : Bool := !csrAsleep h a || (acct h.wdn (reqAcct (.csrWake a))).held.any (fun g => g.who == .csrWake a)

/-- The domain returns to its state: the access's grains are released, and a request still waiting is withdrawn. -/
def csrRelease (a : Nat) (h : Hw) : Hw := dropGrants [.csrWake a] h

/-- AON time since which the access has waited for its grains. -/
def csrSince (h : Hw) (a : Nat) : Option Nat :=
  ((acct h.wdn (reqAcct (.csrWake a))).waiting.find? (fun w => w.who == .csrWake a)).map (fun w => w.since)

/-- Carry out an access, or ask for the block's grains first and wait. -/
def csrAccess (a : Nat) (f : Hw → Hw) (h : Hw) : Hw :=
  if csrGranted h a then f (if csrAsleep h a then csrRelease a h else h) else grainRequest (.csrWake a) 0 h

/-! ## REG_READ and REG_WRITE -/

def Cmd.reg (c : Cmd) : Nat := c.fld 24 4
def Cmd.regVal (c : Cmd) : Nat := c.fld 28 4
def isRegRead (c : Cmd) : Bool := c.opcode == 0x09
def isRegWrite (c : Cmd) : Bool := c.opcode == 0x0A

/-- An expert command on a queue without expert functions is not permitted (18 R475); then its fields and its address are checked (R25). -/
def regBody (write : Bool) (bad : Nat) (c : Cmd) (h : Hw) : Hw :=
  if !(queueOf h c.q).expert then endCmd c.id stNotPermitted h else
  needFields c (c.zeros [(4, 4), (16, 4), if write then (32, 32) else (28, 36)] && csrOk c.reg) (fun h =>
    csrAccess c.reg (fun h =>
      if write then endCmd c.id stOk (csrWrite false bad c.reg c.regVal h)
      else
        let (v, h) := csrRead c.reg h
        finishCmd c.id { status := stOk, result := v } h) h) h

/-- The rows of the table that name a register's own effect; any other access belongs to REG_READ or REG_WRITE. `h` tells what a write would
change. -/
inductive RegRow where
  | reg | aonLo | rc
  | opPoint | perfClr | bypass | retire | restore | chanRetire | wmcLoop | hluRetrain | flDisable | flLoop | lndLink | lndPad | rawOwn | chkWrite | chkRead
deriving DecidableEq, Repr

/-- The row of a read. -/
def readRow (a : Nat) : RegRow := if a = 0x100 then .aonLo else if csrOk a && csrIsRc a then .rc else .reg

/-- The row of a write of `v`. -/
def writeRow (h : Hw) (a v : Nat) : RegRow :=
  if a % 4 ≠ 0 ∨ csrReserved a then .reg
  else if a = 0x320 ∧ !v.testBit 8 then .opPoint
  else if a = 0x10000 ∧ v.testBit 1 then .hluRetrain
  else if 0x20000 ≤ a ∧ a < 0x30000 ∧ a % 0x400 = 4 then
    (if bitsOf v 0 2 ≠ (flight h ((a - 0x20000) / 0x400)).loop then .flLoop else .flDisable)
  else if a = 0x90008 ∧ v.testBit 6 then .chanRetire
  else if a = 0x9000C ∧ v.testBit 7 then .wmcLoop
  else if a = 0xA0100 ∧ v.testBit 31 then .chkWrite
  else if a = 0xA0100 ∧ v.testBit 30 then .chkRead
  else if 0x100000 ≤ a ∧ a < 0x160000 then
    let o := a % 0x1000
    if 0x10 ≤ o ∧ o < 0x20 then .bypass
    else if o = 0x40 ∧ v.testBit 0 then .perfClr
    else if o = 0x408 ∧ v.testBit 1 then .retire
    else if o = 0x408 ∧ v.testBit 2 then .restore else .reg
  else if 0x200000 ≤ a then
    let o := a % 0x10000
    if o = 0x14 then (if (if bitsOf v 0 2 = 3 then 0 else bitsOf v 0 2) ≠ (landing h ((a - 0x200000) / 0x10000)).loopLink then .lndLink else .lndPad)
    else if o = 0x400 then .rawOwn else .reg
  else .reg

/-- Carry out the entry of a queue's slot when it is a REG_READ of this row. -/
def regRead (row : RegRow) (q slot : Nat) (h : Hw) : Hw := carry q slot (fun c => isRegRead c && readRow c.reg == row) (regBody false 0) h

/-- Carry out the entry of a queue's slot when it is a REG_WRITE of this row. -/
def regWrite (row : RegRow) (bad q slot : Nat) (h : Hw) : Hw :=
  carry q slot (fun c => isRegWrite c && writeRow h c.reg c.regVal == row) (regBody true bad) h

/-- CSR_WAKE_TIMEOUT (R26): the grains were not granted within 10 ms: the access of an entry, or of the debug port, ends with BUSY or ERR and has
no effect. -/
def wakeTimeout (who : Option (Nat × Nat)) (h : Hw) : Hw :=
  let late := fun (a : Nat) => match csrSince h a with
    | some t => decide (t + 1000000 ≤ now h)
    | none => false
  match who with
  | some (q, slot) => match findCmd h q slot with
    | none => h
    | some c => if (isRegRead c || isRegWrite c) && c.started && late c.reg then endCmd c.id stBusy (csrRelease c.reg h) else h
  | none => match h.dbg.wake with
    | none => h
    | some a => if late a then { csrRelease a h with dbg := { h.dbg with wake := none, data := 0, err := true } } else h

/-! ## CSRR and CSRW -/

/-- An accumulator entry as a debug read meets it (08 R238, R239): with an update of it in the pipeline the value before or after the update. -/
def accEntry (g r col : Nat) (h : Hw) : Nat × Hw :=
  let G := gal h g
  if cols h g ≤ col then (0, h) else
  let old := lane (accRowOf g G r) col
  match G.pipe.find? (fun q => q.accRow = r), G.group with
  | some q, some gr =>
    let int : Bool := match fmtOf gr.fw with
      | some f => isIntPair f
      | none => false
    if Config.freeChoice h.free 2 % 2 = 0 then (old.toNat, { h with free := h.free + 1 })
    else ((accUpdate int q.add old (lane q.sums col)).1.toNat, { h with free := h.free + 1 })
  | _, _ => (old.toNat, h)

/-- The partition of a gallery runs the DEBUG overlay (20 R531). -/
def debugOverlay (h : Hw) (g : Nat) : Bool := match galPart h g with
  | some p => (part h p).ovl.ty = 8
  | none => false

/-- OFF29 of a CSR access: bits [28:12], PS, the reserved bits and MOD [3:2] are 0, and A is 0 but for PEER (R163). -/
def csrFieldsOk (f : Fields) : Bool :=
  decide (f.low29.toNat < 0x1000) && f.psm == 0 && f.rm == 0 && decide (f.mod.toNat < 4) && (f.mod.toNat == 1 || f.a == 0)

/-- CSRR (R163): selectors 0 SELF, 1 PEER, 2 TIME, 3 ACC. The thread is BLOCKED until the value arrives (05 R131). -/
def csrrBody (th : Thr) (f : Fields) (c : Nat) (h : Hw) : IRes :=
  let off := f.low29.toNat
  let reg := fun (g : Nat) => let (v, h) := csrRead (0x100000 + 0x1000 * g + off) h
    IRes.block h (.csr (BitVec.ofNat 64 v) f.d)
  if !csrFieldsOk f then .fault cIllegalOperand
  else if off % 4 ≠ 0 then .fault cMisaligned
  else match f.mod.toNat with
    | 0 => reg th.g
    | 1 => (match (partGals h (c / 4))[((thread h th).sreg f.a).toNat]? with
      | some g => reg g
      | none => .fault cCsrDenied)
    | 2 => if off ≠ 0 then .fault cCsrDenied else .block h (.csr h.wdn.aon f.d)
    | _ =>
      if !debugOverlay h th.g then .fault cCsrDenied
      else
        let (v, h) := accEntry th.g (8 * (gal h th.g).accRow8 + off / 2 ^ 9) (off / 4 % 128) h
        .block h (.csr (BitVec.ofNat 64 v) f.d)

/-- CSRW (R115, R163): only the program-writable registers of SELF. -/
def csrwBody (th : Thr) (f : Fields) (c : Nat) (h : Hw) : IRes :=
  let off := f.low29.toNat
  if !csrFieldsOk f then .fault cIllegalOperand
  else if off % 4 ≠ 0 then .fault cMisaligned
  else if f.mod ≠ 0 then .fault cCsrDenied
  else match writeProgram th.g c off (((thread h th).sreg f.d).toNat % 2 ^ 32) h with
    | some h => .next h 1
    | none => .fault cCsrDenied

/-! ## The test access port (22 R559 to R561) -/

/-- The port is out of reset: VREF and power are there and TRST# is high. -/
def tapOn (h : Hw) : Bool := h.wdn.power && !h.dbg.trst

/-- An instruction shifted into a device's register: 0 Idhel, 1 + l landing l. -/
def tapIr (dev code : Nat) (h : Hw) : Hw := { h with dbg := { h.dbg with ir := tput h.dbg.ir dev code } }
def tapOut (v : Nat) (h : Hw) : Hw := { h with dbg := { h.dbg with out := v } }

/-- TRST_PIN (24 R582): low holds the port in its reset state. -/
def trstPin (low : Bool) (h : Hw) : Hw :=
  { h with dbg := if low then { h.dbg with trst := true, ir := [], driving := [], out := 0 } else { h.dbg with trst := false } }

/-- The boundary register: the pins sampled are captured and `cells` preloaded. -/
def tapBoundary (dev code pins cells : Nat) (h : Hw) : Hw :=
  tapOut pins (tapIr dev code { h with dbg := { h.dbg with boundary := tput h.dbg.boundary dev cells, driving := h.dbg.driving.filter (fun d => d != dev) } })

/-- EXTEST (R559): the cells drive the pins while RESET# holds the module in reset; else it acts as SAMPLE/PRELOAD. -/
def tapExtest (dev pins cells : Nat) (h : Hw) : Hw :=
  if !tapOn h then h else
  let h := tapBoundary dev 0x00 pins cells h
  if h.boot.pinLow then { h with dbg := { h.dbg with driving := h.dbg.driving ++ [dev] } } else h

def tapSample (dev pins cells : Nat) (h : Hw) : Hw := if !tapOn h then h else tapBoundary dev 0x02 pins cells h

/-- IDCODE: 32 bits. -/
def tapIdcode (dev : Nat) (h : Hw) : Hw := if !tapOn h then h else tapOut (if dev = 0 then 0x192564E3 else 0x192574E3) (tapIr dev 0x01 h)

/-- BYPASS: one bit, captured as 0. -/
def tapBypass (dev : Nat) (h : Hw) : Hw := if !tapOn h then h else tapOut 0 (tapIr dev 0x3F h)

/-- DBG_UNLOCK (R560): SERIAL opens the gate; a mismatch leaves it as it is and closes the ear for 1 s. -/
def dbgUnlock (v : BitVec 128) (h : Hw) : Hw :=
  if !tapOn h || h.dbg.gate || decide (now h < h.dbg.lockUntil) then h else
  let h := tapIr 0 0x20 h
  if v.toNat = serialNo h then raiseEvent 0 0x40 2 0 0 { h with dbg := { h.dbg with gate := true, opened := true } }
  else { h with dbg := { h.dbg with lockUntil := now h + 100000000 } }

/-- DATA and ERR that the next capture returns. -/
def dbgEnd (v : Nat) (err : Bool) (h : Hw) : Hw := { h with dbg := { h.dbg with data := BitVec.ofNat 32 v, err, wake := none } }

/-- A DBG_ACCESS: nothing while the gate is closed. -/
def dbgAccess (f : Hw → Hw) (h : Hw) : Hw := if !tapOn h || !h.dbg.gate then h else f (tapIr 0 0x21 h)

/-- A CSR access of the port (R561): ERR where REG_READ has INVALID_FIELD. -/
def dbgCsr (a : Nat) (f : Hw → Hw) (h : Hw) : Hw :=
  dbgAccess (fun h => if !csrOk a then dbgEnd 0 true h else csrAccess a f { h with dbg := { h.dbg with wake := some a } }) h

def dbgCsrRead (a : Nat) (h : Hw) : Hw := dbgCsr a (fun h => let (v, h) := csrRead a h; dbgEnd v false h) h
def dbgCsrWrite (a v bad : Nat) (h : Hw) : Hw := dbgCsr a (fun h => dbgEnd v false (csrWrite true bad a v h)) h

/-- OTP read (R561): word, channel and target in ADDRESS; the key is shown. A row that cannot be read returns ERR (log 60). -/
def dbgOtp (a : Nat) (h : Hw) : Hw :=
  dbgAccess (fun h =>
    let d := 8 * bitsOf a 10 6 + bitsOf a 16 3
    if 2 ^ 19 ≤ a ∨ dieDead h d then dbgEnd 0 true h else dbgEnd (fldOf (otpRow h d true) (4 * bitsOf a 0 10) 4) false h) h

/-- Accumulator read (R561): physical gallery, row and column in ADDRESS, under the DEBUG overlay. -/
def dbgAcc (a : Nat) (h : Hw) : Hw :=
  dbgAccess (fun h =>
    let g := bitsOf a 18 7
    if 96 ≤ g || decide (2 ^ 25 ≤ a) || !debugOverlay h g then dbgEnd 0 true h
    else
      let (v, h) := accEntry g (bitsOf a 7 11) (bitsOf a 0 7) h
      dbgEnd v false h) h

/-! ## The commands -/

def execRegRead (q slot : Nat) (s : State) : Host.Outcome State Fault Refusal := act true (regRead .reg q slot) s
def execWdnAontimeLoRead (q slot : Nat) (s : State) : Host.Outcome State Fault Refusal := act true (regRead .aonLo q slot) s
def execRcRead (q slot : Nat) (s : State) : Host.Outcome State Fault Refusal := act true (regRead .rc q slot) s
def execRegWrite (q slot : Nat) (s : State) : Host.Outcome State Fault Refusal := act true (regWrite .reg 0 q slot) s
def execWdnOppointTarget (q slot : Nat) (s : State) : Host.Outcome State Fault Refusal := act true (regWrite .opPoint 0 q slot) s
def execGalPerfClr (q slot : Nat) (s : State) : Host.Outcome State Fault Refusal := act true (regWrite .perfClr 0 q slot) s
def execGalBypassWrite (q slot : Nat) (s : State) : Host.Outcome State Fault Refusal := act true (regWrite .bypass 0 q slot) s
def execWingRetire (q slot : Nat) (s : State) : Host.Outcome State Fault Refusal := act true (regWrite .retire 0 q slot) s
def execWingRestore (q slot : Nat) (s : State) : Host.Outcome State Fault Refusal := act true (regWrite .restore 0 q slot) s
def execWmcChanRetireGo (q slot : Nat) (s : State) : Host.Outcome State Fault Refusal := act true (regWrite .chanRetire 0 q slot) s
def execWmcLoopGo (bad q slot : Nat) (s : State) : Host.Outcome State Fault Refusal := act true (regWrite .wmcLoop bad q slot) s
def execHluLinkCtlRetrain (q slot : Nat) (s : State) : Host.Outcome State Fault Refusal := act true (regWrite .hluRetrain 0 q slot) s
def execFfuFlDisable (q slot : Nat) (s : State) : Host.Outcome State Fault Refusal := act true (regWrite .flDisable 0 q slot) s
/-- With an entry the write; with none a flight enters its loop-back. -/
def execFfuFlLoop (w : Option (Nat × Nat)) (f : Nat) (s : State) : Host.Outcome State Fault Refusal :=
  act (decide (f < 64)) (match w with
    | some (q, slot) => regWrite .flLoop 0 q slot
    | none => flightLoopEnter f) s
def execLndLoopLink (q slot : Nat) (s : State) : Host.Outcome State Fault Refusal := act true (regWrite .lndLink 0 q slot) s
/-- With an entry the write; with none a channel's checker reports. -/
def execLndLoopPad (w : Option (Nat × Nat)) (c : Nat) (sync : Bool) (errs : Nat) (s : State) : Host.Outcome State Fault Refusal :=
  act (decide (c < 64)) (match w with
    | some (q, slot) => regWrite .lndPad 0 q slot
    | none => padReport c sync errs) s
def execLndRawOwnWrite (q slot : Nat) (s : State) : Host.Outcome State Fault Refusal := act true (regWrite .rawOwn 0 q slot) s
def execLndChCfgApply (c : Nat) (s : State) : Host.Outcome State Fault Refusal := act (decide (c < 64)) (chanApply c) s
def execDiuChkWrite (q slot : Nat) (s : State) : Host.Outcome State Fault Refusal := act true (regWrite .chkWrite 0 q slot) s
def execDiuChkRead (q slot : Nat) (s : State) : Host.Outcome State Fault Refusal := act true (regWrite .chkRead 0 q slot) s
def execCsrWakeTimeout (who : Option (Nat × Nat)) (s : State) : Host.Outcome State Fault Refusal := act true (wakeTimeout who) s
def execCsrr (th : Thr) (f : Fields) (s : State) : Host.Outcome State Fault Refusal := act (okThr th) (runIsa .csrr th f (csrrBody th f)) s
def execCsrw (th : Thr) (f : Fields) (s : State) : Host.Outcome State Fault Refusal := act (okThr th) (runIsa .csrw th f (csrwBody th f)) s
def execTrstPin (low : Bool) (s : State) : Host.Outcome State Fault Refusal := act true (trstPin low) s
def execTapExtest (dev pins cells : Nat) (s : State) : Host.Outcome State Fault Refusal := act (decide (dev < 17)) (tapExtest dev pins cells) s
def execTapIdcode (dev : Nat) (s : State) : Host.Outcome State Fault Refusal := act (decide (dev < 17)) (tapIdcode dev) s
def execTapSamplePreload (dev pins cells : Nat) (s : State) : Host.Outcome State Fault Refusal := act (decide (dev < 17)) (tapSample dev pins cells) s
def execTapBypass (dev : Nat) (s : State) : Host.Outcome State Fault Refusal := act (decide (dev < 17)) (tapBypass dev) s
def execDbgUnlock (v : BitVec 128) (s : State) : Host.Outcome State Fault Refusal := act true (dbgUnlock v) s
def execDbgCsrRead (a : Word) (s : State) : Host.Outcome State Fault Refusal := act true (dbgCsrRead a.toNat) s
def execDbgCsrWrite (a v : Word) (bad : Nat) (s : State) : Host.Outcome State Fault Refusal := act true (dbgCsrWrite a.toNat v.toNat bad) s
def execDbgOtpRead (a : Word) (s : State) : Host.Outcome State Fault Refusal := act true (dbgOtp a.toNat) s
def execDbgAccRead (a : Word) (s : State) : Host.Outcome State Fault Refusal := act true (dbgAcc a.toNat) s

end Sys2Proof.Machine
end

