-- ==== Sys2Proof/Machine/Vector.lean ====
section
/-!
DEFINITION. The vector instructions (06 R182 to R189, 09 R248, R251 to R253): VOP, VQUANT, VROT, VHIST.
-/
namespace Sys2Proof.Machine

/-- Saturating INT32 addition, subtraction and multiplication of lanes (03 R80). -/
def i32Add (a b : Word) : Word := clamp32 (a.toInt + b.toInt)
def i32Sub (a b : Word) : Word := clamp32 (a.toInt - b.toInt)
def i32Mul (a b : Word) : Word := clamp32 (a.toInt * b.toInt)

/-- The functions whose result is a vector lane (06 R183), `fp` by MOD[1]; `d` is the old lane of v[D] and `u` the open value of
EXP, RCP and RSQRT. None for a code not in the table or of the wrong type. -/
def vopLane (fn : Nat) (fp : Bool) (a b d u : Word) : Option Word :=
  match fn, fp with
  | 0x00, true => some (f32Add a b) | 0x00, false => some (i32Add a b)
  | 0x01, true => some (f32Sub a b) | 0x01, false => some (i32Sub a b)
  | 0x02, true => some (f32Mul a b) | 0x02, false => some (i32Mul a b)
  | 0x03, true => some (f32Fma a b d)
  | 0x04, true => some (f32Min a b) | 0x04, false => some (if b.slt a then b else a)
  | 0x05, true => some (f32Max a b) | 0x05, false => some (if a.slt b then b else a)
  | 0x06, true => some (f32Abs a) | 0x06, false => some (clamp32 (a.toInt.natAbs : Int))
  | 0x07, true => some (f32Neg a) | 0x07, false => some (clamp32 (-a.toInt))
  | 0x08, false => some (a &&& b)
  | 0x09, false => some (a ||| b)
  | 0x0A, false => some (a ^^^ b)
  | 0x0B, false => some (a <<< (b.toNat % 32))
  | 0x0C, false => some (a >>> (b.toNat % 32))
  | 0x0D, false => some (a.sshiftRight (b.toNat % 32))
  | 0x10, false => some (f32OfInt a.toInt)
  | 0x11, true => some (f32ToInt32 a)
  | 0x12, _ => some a
  | 0x18, true => some (f32Exp a u)
  | 0x19, true => some (f32Rcp a u)
  | 0x1A, true => some (f32Rsqrt a u)
  | _, _ => none

/-- The comparisons (06 R183, 03 R77, R78). -/
def vopCmp (fn : Nat) (fp : Bool) (a b : Word) : Option Bool :=
  match fn, fp with
  | 0x20, true => some (f32Eq a b) | 0x20, false => some (a == b)
  | 0x21, true => some (!f32Eq a b) | 0x21, false => some (a != b)
  | 0x22, true => some (f32Lt a b) | 0x22, false => some (a.slt b)
  | 0x23, true => some (f32Le a b) | 0x23, false => some (!b.slt a)
  | _, _ => none

/-- One step of a reduction (06 R185). -/
def redStep (fn : Nat) (fp : Bool) (a b : Word) : Word :=
  match fn, fp with
  | 0x28, true => f32Add a b | 0x28, false => i32Add a b
  | 0x29, true => f32Max a b | 0x29, false => if a.slt b then b else a
  | _, true => f32Min a b | _, false => if b.slt a then b else a

/-- Neighbours combined: selected lanes 2i and 2i + 1 first; a lane alone goes on as it is (06 R185). -/
def pairUp (f : Word → Word → Word) : List (Option Word) → List (Option Word)
  | some a :: some b :: r => some (f a b) :: pairUp f r
  | some a :: none :: r => some a :: pairUp f r
  | none :: b :: r => b :: pairUp f r
  | l => l

/-- The fixed pairwise tree over the 128 lanes (06 R185). -/
def redTree (f : Word → Word → Word) (l : List (Option Word)) : Option Word :=
  match (List.range 7).foldl (fun l _ => pairUp f l) l with
  | x :: _ => x
  | [] => none

/-- The result of a reduction with no lane selected (06 R185). -/
def redEmpty (fn : Nat) (fp : Bool) : Word :=
  match fn, fp with
  | 0x28, _ => 0
  | 0x29, true => 0xFF800000 | 0x29, false => 0x80000000
  | _, true => 0x7F800000 | _, false => 0x7FFFFFFF

/-- The result of a whole reduction as s[D]: zero-extended from FP32, sign-extended from INT32 (06 R185). -/
def vopReduce (fn : Nat) (fp : Bool) (v : BitVec 4096) (mask : BitVec 128) : DWord :=
  let l := (List.range 128).map (fun j => if mask.getLsbD j then some (lane v j) else none)
  let r := (redTree (redStep fn fp) l).getD (redEmpty fn fp)
  if fp then r.setWidth 64 else r.signExtend 64

/-- The functions for which B must be 0 (06 R183: ABS, NEG, MOV) or that do not use B and so need it 0 (05 R128). -/
def vopUnary (fn : Nat) : Bool := [0x06, 0x07, 0x10, 0x11, 0x12, 0x18, 0x19, 0x1A, 0x28, 0x29, 0x2A].contains fn

/-- VOP (06 R182 to R185). -/
def vopBody (th : Thr) (f : Fields) (_ : Nat) (h : Hw) : IRes :=
  let T := thread h th
  let fn := f.fn
  let fp := f.m 1
  let unary := vopUnary fn
  let bOk := if unary then f.b = 0 && !f.m 0 else f.m 0 || vecOk f.b
  if f.m 2 || f.m 3 || !vecOk f.a || !bOk || !xZero f true true false false true then .fault cIllegalOperand
  else
    let mask := T.preg f.psx
    let a := T.vreg f.a
    let bl := fun (j : Nat) => if f.m 0 then (T.sreg f.b).setWidth 32 else lane (T.vreg f.b) j
    if 0x28 ≤ fn ∧ fn ≤ 0x2A then
      .next (modThr h th (fun T => T.setS f.d (vopReduce fn fp a mask))) 8
    else if 0x20 ≤ fn ∧ fn ≤ 0x23 then
      if !predOk f.d then .fault cIllegalOperand
      else
        let bits := (List.range 128).filter (fun j => mask.getLsbD j && (vopCmp fn fp (lane a j) (bl j)).getD false)
        .next (modThr h th (fun T => T.setP f.d (BitVec.ofNat 128 (bits.foldl (fun n j => n + 2 ^ j) 0)))) 1
    else if !vecOk f.d || (vopLane fn fp 0 0 0 0).isNone then .fault cIllegalOperand
    else
      let slow := fn = 0x18 || fn = 0x19 || fn = 0x1A
      let (u, h) := if slow then freeVal 4096 h else (0, h)
      let d := T.vreg f.d
      let r := ofLanes (fun j => if mask.getLsbD j then (vopLane fn fp (lane a j) (bl j) (lane d j) (lane u j)).getD 0 else lane d j)
      .next (modThr h th (fun T => T.setV f.d r)) (if slow then 4 else 1)

/-- The packed bytes of VQUANT in v[D] (06 R187): element bytes, then for MX targets the scale bytes at the next multiple of 4. -/
def vquantPack (f : Fmt) (es ss : List Nat) : BitVec 4096 :=
  let eb := (es.length * f.bits + 7) / 8
  let off := (eb + 3) / 4 * 4
  BitVec.ofNat 4096 (packElems f.bits es + 256 ^ off * packElems 8 ss)

/-- One lane of VQUANT to an integer target: v[A] ÷ v[B] rounded once, plus the zero point, clamped (06 R186; log 12). -/
def vquantInt (f : Fmt) (zp : Int) (a b : Word) : Narrow :=
  match f32Val a, f32Val b with
  | .fin s m e, .fin t n g =>
    if n = 0 then (if m = 0 then narrow f zp .nan else narrow f zp (.inf (s != t)))
    else narrowQ f zp (s != t) m n (e - g)
  | _, _ => narrow f zp (f32Val (f32Div a b))

/-- VQUANT (06 R186, R187). The integer targets read the zero point from s[C]; BF16 takes neither scale nor zero point. -/
def vquantBody (th : Thr) (f : Fields) (_ : Nat) (h : Hw) : IRes :=
  let T := thread h th
  match fmtOf f.mod.toNat with
  | none => .fault cIllegalOperand
  | some k =>
    let int := k = .int8 || k = .uint8 || k = .int4
    let bad := k = .fp32 || k = .int32 || !vecOk f.d || !vecOk f.a || !xZero f false false true true true
      || (if int then !vecOk f.b else f.b ≠ 0 || f.c ≠ 0)
    if bad then .fault cIllegalOperand
    else
      let a := T.vreg f.a
      let b := T.vreg f.b
      let c := (T.sreg f.c).extractLsb' 0 8
      let zp : Int := if k = .uint8 then (c.toNat : Int) else c.toInt
      let blocks := (List.range 4).map (fun i => (List.range 32).map (fun j => lane a (32 * i + j)))
      let ks := blocks.map (fun bl => mxScale k bl)
      let nr := if int then (List.range 128).map (fun j => vquantInt k zp (lane a j) (lane b j))
        else if k.isMx then (blocks.zip ks).flatMap (fun p => p.1.map (fun y => narrowW k 0 p.2 y))
        else (List.range 128).map (fun j => narrow k 0 (f32Val (lane a j)))
      let ss := if k.isMx then ks.map (fun x => (x + 127).toNat) else []
      let st := stWord [(((nr.filter (fun r => r.nanZeroed)).length), 32), ((nr.filter (fun r => r.clamped)).length, 48)]
      .next (modThr h th (fun T => (T.setV f.d (vquantPack k (nr.map (fun r => r.code)) ss)).setS f.e st)) 4

/-- Entry (i, j) of the Hadamard matrix of order a power of two is negative: the parity of the common bits. -/
def hadNeg (i j : Nat) : Bool := (List.range 7).foldl (fun p k => p != (i.testBit k && j.testBit k)) false

/-- √(2^k) divided out exactly: the exact sum of a block's terms times 1 ÷ √b, rounded once (06 R188). For odd k the factor is
irrational and the rounding uses its value to far more bits than FP32 keeps. -/
def scaleRoot (k : Nat) (v : FVal) : Word :=
  match v with
  | .nan => f32NaN
  | .inf s => f32Inf s
  | .fin s m e =>
    if k % 2 = 0 then f32Round s m 1 (e - (k / 2 : Nat))
    else
      -- m ÷ √2 = √(m² × 2^599) × 2^-300, kept with a sticky last bit
      let q := isqrt (m * m * 2 ^ 599)
      let q2 := 2 * q + (if q * q = m * m * 2 ^ 599 then 0 else 1)
      f32Round s q2 1 (e - 301 - (k / 2 : Nat))

/-- The sign of a lane as a factor: negative when its sign bit is set (06 R188). -/
def signed (s v : Word) : FVal := if s.msb then (f32Val v).negate else f32Val v

/-- VROT (06 R188): blockwise normalised Hadamard transform, optionally with the signs of v[B] before it, or after it with INVERSE. -/
def vrotBody (th : Thr) (f : Fields) (_ : Nat) (h : Hw) : IRes :=
  let T := thread h th
  let k := 4 + f.mod.toNat % 4
  let b := 2 ^ k
  let signs := f.m 2
  let inv := f.m 3
  if !vecOk f.d || !vecOk f.a || (if signs then !vecOk f.b else f.b ≠ 0) || !xZero f true true true true true then .fault cIllegalOperand
  else
    let a := T.vreg f.a
    let sv := T.vreg f.b
    let inp := fun (j : Nat) => if signs && !inv then signed (lane sv j) (lane a j) else f32Val (lane a j)
    let out := fun (j : Nat) =>
      let base := j / b * b
      let sum := (List.range b).foldl (fun acc i => acc.add (if hadNeg (j % b) i then (inp (base + i)).negate else inp (base + i)))
        (FVal.fin false 0 0)
      let r := scaleRoot k sum
      if signs && inv then f32Of (signed (lane sv j) r) else r
    .next (modThr h th (fun T => T.setV f.d (ofLanes out))) 4

/-! ## VHIST (06 R189, 09 R251 to R253) -/

/-- The histogram object's counters as it stands in the bay (09 R251). -/
def readHist (m : ObjMem) (a : Nat) : Hist :=
  { total := m.readLE (a + 4) 4, nan := m.readLE (a + 8) 4, zero := m.readLE (a + 12) 4, neg := m.readLE (a + 16) 4
    under := m.readLE (a + 20) 4, above := m.readLE (a + 24) 4, mn := BitVec.ofNat 32 (m.readLE (a + 28) 4)
    mx := BitVec.ofNat 32 (m.readLE (a + 32) 4), bins := (List.range 64).map (fun i => (i, m.readLE (a + 64 + 4 * i) 4))
    saturated := (m.readLE (a + 3) 1) % 2 = 1 }

/-- The bytes of the counters after an update. -/
def histBytes (a : Nat) (x : Hist) : List (Nat × Byte) :=
  let degen := decide (0 < x.total) && f32Eq x.mn x.mx
  bytesAt (a + 3) 1 (bit x.saturated + 2 * bit degen) ++ bytesAt (a + 4) 4 x.total ++ bytesAt (a + 8) 4 x.nan
    ++ bytesAt (a + 12) 4 x.zero ++ bytesAt (a + 16) 4 x.neg ++ bytesAt (a + 20) 4 x.under ++ bytesAt (a + 24) 4 x.above
    ++ bytesAt (a + 28) 4 x.mn.toNat ++ bytesAt (a + 32) 4 x.mx.toNat
    ++ (List.range 64).flatMap (fun i => bytesAt (a + 64 + 4 * i) 4 (tgetD x.bins i 0))

/-- VHIST: the selected lanes of v[B] counted in the histogram at the bay address s[A]. The object must be 4-byte aligned; a BASE_EXP
outside −120 to 111 or a non-zero reserved bit raises ILLEGAL_OPERAND and leaves it unchanged. An uncorrectable
word of it ends the instruction with MEDIA_UNCORRECTABLE, the histogram unchanged (log 70). -/
def vhistBody (th : Thr) (f : Fields) (c : Nat) (h : Hw) : IRes :=
  let T := thread h th
  let addr := T.sreg f.a
  if f.mod ≠ 0 || !vecOk f.b || !xZero f true true false true true then .fault cIllegalOperand
  else match checkAccess (ctx h c) addr 320 .r [0] 4, checkAccess (ctx h c) addr 320 .w [0] 4 with
    | .bad e, _ => .fault e
    | _, .bad e => .fault e
    | .ok o off, .ok _ _ =>
      let m := objMem h (objKey c o th.g)
      let base : Int := (BitVec.ofNat 16 (m.readLE off 2)).toInt
      let flags := m.readLE (off + 2) 1
      let percol := flags % 2 = 1
      let rsv := m.readLE (off + 36) 28
      let lost := IRes.next (modThr h th (fun T => T.setS f.d (stWord [(stUncorrectable, 0)]))) 1
      if m.isBad 0 off 320 then lost
      else if base < -120 ∨ 111 < base ∨ 1 < flags ∨ 3 < m.readLE (off + 3) 1 ∨ rsv ≠ 0 then .fault cIllegalOperand
      else match (if percol then (checkAccess (ctx h c) addr 1344 .w [0] 4).cause? else none) with
        | some e => .fault e
        | none =>
          if percol && m.isBad 0 off 1344 then lost else
          let mask := T.preg f.psx
          let v := T.vreg f.b
          let js := (List.range 128).filter (fun j => mask.getLsbD j)
          let x := js.foldl (fun x j => x.add base (lane v j)) (readHist m off)
          let pc := if percol then (js.filter (fun j => !f32IsNaN (lane v j))).flatMap (fun j =>
              let a := off + 320 + 8 * j
              let w : Word := if f32IsZero (lane v j) then 0 else lane v j
              bytesAt a 4 (f32Min (BitVec.ofNat 32 (m.readLE a 4)) w).toNat ++ bytesAt (a + 4) 4 (f32Max (BitVec.ofNat 32 (m.readLE (a + 4) 4)) w).toNat)
            else []
          let n := (js.filter (fun j => !f32IsNaN (lane v j))).length
          let (m', _) := m.store 0 (histBytes off x ++ pc)
          .next (modThr (modMem h (objKey c o th.g) (fun _ => m')) th (fun T => T.setS f.d (stWord [(n, 32)]))) 1

def execVop (th : Thr) (f : Fields) (s : State) : Host.Outcome State Fault Refusal :=
  act (okThr th) (runIsa .vop th f (vopBody th f)) s
def execVquant (th : Thr) (f : Fields) (s : State) : Host.Outcome State Fault Refusal :=
  act (okThr th) (runIsa .vquant th f (vquantBody th f)) s
def execVrot (th : Thr) (f : Fields) (s : State) : Host.Outcome State Fault Refusal :=
  act (okThr th) (runIsa .vrot th f (vrotBody th f)) s
def execVhist (th : Thr) (f : Fields) (s : State) : Host.Outcome State Fault Refusal :=
  act (okThr th) (runIsa .vhist th f (vhistBody th f)) s

end Sys2Proof.Machine
end

