-- ==== Sys2Proof/Machine/Dispatch.lean ====
section
/-!
DEFINITION. Which meaning each command has: one arm per constructor of `Instr`.
-/
namespace Sys2Proof.Machine

def exec (i : Instr) (s : State) : Host.Outcome State Fault Refusal :=
  match i with
  | .br th f => Sys2Proof.Machine.execBr th f s
  | .brc th f => Sys2Proof.Machine.execBrc th f s
  | .call th f => Sys2Proof.Machine.execCall th f s
  | .ret th f => Sys2Proof.Machine.execRet th f s
  | .yield th f => Sys2Proof.Machine.execYield th f s
  | .halt th f => Sys2Proof.Machine.execHalt th f s
  | .smov th f => Sys2Proof.Machine.execSmov th f s
  | .sadd th f => Sys2Proof.Machine.execSadd th f s
  | .ssub th f => Sys2Proof.Machine.execSsub th f s
  | .smul th f => Sys2Proof.Machine.execSmul th f s
  | .sand th f => Sys2Proof.Machine.execSand th f s
  | .sor th f => Sys2Proof.Machine.execSor th f s
  | .sxor th f => Sys2Proof.Machine.execSxor th f s
  | .sshl th f => Sys2Proof.Machine.execSshl th f s
  | .sshr th f => Sys2Proof.Machine.execSshr th f s
  | .ssra th f => Sys2Proof.Machine.execSsra th f s
  | .smin th f => Sys2Proof.Machine.execSmin th f s
  | .smax th f => Sys2Proof.Machine.execSmax th f s
  | .scmp th f => Sys2Proof.Machine.execScmp th f s
  | .ld th f => Sys2Proof.Machine.execLd th f s
  | .st th f => Sys2Proof.Machine.execSt th f s
  | .pref th f => Sys2Proof.Machine.execPref th f s
  | .lda th f => Sys2Proof.Machine.execLda th f s
  | .ldaComplete th seq => Sys2Proof.Machine.execLdaComplete th seq s
  | .waita th f => Sys2Proof.Machine.execWaita th f s
  | .sema th f => Sys2Proof.Machine.execSema th f s
  | .semr th f => Sys2Proof.Machine.execSemr th f s
  | .bar th f => Sys2Proof.Machine.execBar th f s
  | .barrierComplete c scope n g => Sys2Proof.Machine.execBarrierComplete c scope n g s
  | .fence th f => Sys2Proof.Machine.execFence th f s
  | .postedOpComplete g id => Sys2Proof.Machine.execPostedOpComplete g id s
  | .send th f => Sys2Proof.Machine.execSend th f s
  | .inboxDelivery g id => Sys2Proof.Machine.execInboxDelivery g id s
  | .recv th f => Sys2Proof.Machine.execRecv th f s
  | .madd th f => Sys2Proof.Machine.execMadd th f s
  | .radd th f => Sys2Proof.Machine.execRadd th f s
  | .memorySideAdd g id => Sys2Proof.Machine.execMemorySideAdd g id s
  | .pgalloc th f => Sys2Proof.Machine.execPgalloc th f s
  | .pgfree th f => Sys2Proof.Machine.execPgfree th f s
  | .stepend th f => Sys2Proof.Machine.execStepend th f s
  | .geom th f => Sys2Proof.Machine.execGeom th f s
  | .csrr th f => Sys2Proof.Machine.execCsrr th f s
  | .csrw th f => Sys2Proof.Machine.execCsrw th f s
  | .tdesc th f => Sys2Proof.Machine.execTdesc th f s
  | .topen th f => Sys2Proof.Machine.execTopen th f s
  | .arrayLeaseGrant g => Sys2Proof.Machine.execArrayLeaseGrant g s
  | .tload th f => Sys2Proof.Machine.execTload th f s
  | .stationaryLoadStart g => Sys2Proof.Machine.execStationaryLoadStart g s
  | .stationaryLoadDone g => Sys2Proof.Machine.execStationaryLoadDone g s
  | .tswap th f => Sys2Proof.Machine.execTswap th f s
  | .tstream th f => Sys2Proof.Machine.execTstream th f s
  | .tstreamt th f => Sys2Proof.Machine.execTstreamt th f s
  | .rowEntry g => Sys2Proof.Machine.execRowEntry g s
  | .accumulatorUpdate g ecc wit => Sys2Proof.Machine.execAccumulatorUpdate g ecc wit s
  | .burstGrant w => Sys2Proof.Machine.execBurstGrant w s
  | .tdrain th f => Sys2Proof.Machine.execTdrain th f s
  | .drainStart g => Sys2Proof.Machine.execDrainStart g s
  | .drainComplete g ecc => Sys2Proof.Machine.execDrainComplete g ecc s
  | .vop th f => Sys2Proof.Machine.execVop th f s
  | .vquant th f => Sys2Proof.Machine.execVquant th f s
  | .vrot th f => Sys2Proof.Machine.execVrot th f s
  | .vhist th f => Sys2Proof.Machine.execVhist th f s
  | .vscale th f => Sys2Proof.Machine.execVscale th f s
  | .selt th f => Sys2Proof.Machine.execSelt th f s
  | .topk th f => Sys2Proof.Machine.execTopk th f s
  | .merge th f => Sys2Proof.Machine.execMerge th f s
  | .selectionResume g => Sys2Proof.Machine.execSelectionResume g s
  | .ptab th f => Sys2Proof.Machine.execPtab th f s
  | .pscan th f => Sys2Proof.Machine.execPscan th f s
  | .scanStart => Sys2Proof.Machine.execScanStart s
  | .lpuPageScan id page => Sys2Proof.Machine.execLpuPageScan id page s
  | .survivorArrival id k => Sys2Proof.Machine.execSurvivorArrival id k s
  | .thresholdSend id q => Sys2Proof.Machine.execThresholdSend id q s
  | .thresholdApply id q l => Sys2Proof.Machine.execThresholdApply id q l s
  | .appendEnd id => Sys2Proof.Machine.execAppendEnd id s
  | .scanEnd id => Sys2Proof.Machine.execScanEnd id s
  | .pcollect th f => Sys2Proof.Machine.execPcollect th f s
  | .gwalk th f => Sys2Proof.Machine.execGwalk th f s
  | .issueSelect g => Sys2Proof.Machine.execIssueSelect g s
  | .identify q slot => Sys2Proof.Machine.execIdentify q slot s
  | .getLog q slot => Sys2Proof.Machine.execGetLog q slot s
  | .getFeature q slot => Sys2Proof.Machine.execGetFeature q slot s
  | .queueCreate q slot => Sys2Proof.Machine.execQueueCreate q slot s
  | .queueDelete q slot => Sys2Proof.Machine.execQueueDelete q slot s
  | .expert q slot => Sys2Proof.Machine.execExpert q slot s
  | .eventMask q slot => Sys2Proof.Machine.execEventMask q slot s
  | .powerCap q slot => Sys2Proof.Machine.execPowerCap q slot s
  | .sleepPolicy q slot => Sys2Proof.Machine.execSleepPolicy q slot s
  | .partition q slot => Sys2Proof.Machine.execPartition q slot s
  | .partitionReset p cmd bad wit other => Sys2Proof.Machine.execPartitionReset p cmd bad wit other s
  | .volumeCreate q slot => Sys2Proof.Machine.execVolumeCreate q slot s
  | .volumeDelete q slot => Sys2Proof.Machine.execVolumeDelete q slot s
  | .errorLogClear q slot => Sys2Proof.Machine.execErrorLogClear q slot s
  | .overlayStore q slot => Sys2Proof.Machine.execOverlayStore q slot s
  | .overlayDelete q slot => Sys2Proof.Machine.execOverlayDelete q slot s
  | .overlaySelect q slot => Sys2Proof.Machine.execOverlaySelect q slot s
  | .moduleId q slot => Sys2Proof.Machine.execModuleId q slot s
  | .fwDownload q slot => Sys2Proof.Machine.execFwDownload q slot s
  | .fwCommit q slot => Sys2Proof.Machine.execFwCommit q slot s
  | .attest q slot => Sys2Proof.Machine.execAttest q slot s
  | .sanitizeStart q slot => Sys2Proof.Machine.execSanitizeStart q slot s
  | .sanitizeStatus q slot => Sys2Proof.Machine.execSanitizeStatus q slot s
  | .regRead q slot => Sys2Proof.Machine.execRegRead q slot s
  | .regWrite q slot => Sys2Proof.Machine.execRegWrite q slot s
  | .csrWakeTimeout who => Sys2Proof.Machine.execCsrWakeTimeout who s
  | .abort q slot => Sys2Proof.Machine.execAbort q slot s
  | .read q slot => Sys2Proof.Machine.execRead q slot s
  | .write q slot => Sys2Proof.Machine.execWrite q slot s
  | .trim q slot => Sys2Proof.Machine.execTrim q slot s
  | .flush q slot => Sys2Proof.Machine.execFlush q slot s
  | .objectRead q slot => Sys2Proof.Machine.execObjectRead q slot s
  | .objectWrite q slot => Sys2Proof.Machine.execObjectWrite q slot s
  | .rawRead q slot => Sys2Proof.Machine.execRawRead q slot s
  | .rawReadRaw q slot => Sys2Proof.Machine.execRawReadRaw q slot s
  | .rawReadLevel q slot => Sys2Proof.Machine.execRawReadLevel q slot s
  | .rawProgram q slot => Sys2Proof.Machine.execRawProgram q slot s
  | .rawErase q slot => Sys2Proof.Machine.execRawErase q slot s
  | .rawCacheLoop q slot => Sys2Proof.Machine.execRawCacheLoop q slot s
  | .rawGetDieFeature q slot => Sys2Proof.Machine.execRawGetDieFeature q slot s
  | .rawSetDieFeature q slot => Sys2Proof.Machine.execRawSetDieFeature q slot s
  | .rawReadIdent q slot => Sys2Proof.Machine.execRawReadIdent q slot s
  | .rawBlockState q slot => Sys2Proof.Machine.execRawBlockState q slot s
  | .rawOtpRead q slot => Sys2Proof.Machine.execRawOtpRead q slot s
  | .jobLoad q slot => Sys2Proof.Machine.execJobLoad q slot s
  | .jobSubmit q slot => Sys2Proof.Machine.execJobSubmit q slot s
  | .jobCancel q slot => Sys2Proof.Machine.execJobCancel q slot s
  | .jobStatus q slot => Sys2Proof.Machine.execJobStatus q slot s
  | .schedulingPoint p => Sys2Proof.Machine.execSchedulingPoint p s
  | .groupLimitExpiry g => Sys2Proof.Machine.execGroupLimitExpiry g s
  | .preemptionSwitch p => Sys2Proof.Machine.execPreemptionSwitch p s
  | .lendStart p n => Sys2Proof.Machine.execLendStart p n s
  | .lendLimitExpiry p g t => Sys2Proof.Machine.execLendLimitExpiry p g t s
  | .contextTeardown c => Sys2Proof.Machine.execContextTeardown c s
  | .programFault g => Sys2Proof.Machine.execProgramFault g s
  | .grainRequest r mode => Sys2Proof.Machine.execGrainRequest r mode s
  | .grainRelease r mode => Sys2Proof.Machine.execGrainRelease r mode s
  | .ledgerArbitration a => Sys2Proof.Machine.execLedgerArbitration a s
  | .headBlocked a => Sys2Proof.Machine.execHeadBlocked a s
  | .revocationWaitExpiry => Sys2Proof.Machine.execRevocationWaitExpiry s
  | .oppointChange => Sys2Proof.Machine.execOppointChange s
  | .autoOppointLower => Sys2Proof.Machine.execAutoOppointLower s
  | .autoOppointRaise => Sys2Proof.Machine.execAutoOppointRaise s
  | .powerCapSample p => Sys2Proof.Machine.execPowerCapSample p s
  | .thermalStep => Sys2Proof.Machine.execThermalStep s
  | .thermalTrip => Sys2Proof.Machine.execThermalTrip s
  | .thermalTripEnd => Sys2Proof.Machine.execThermalTripEnd s
  | .pllLock k => Sys2Proof.Machine.execPllLock k s
  | .s1Entry w => Sys2Proof.Machine.execS1Entry w s
  | .s2Entry w => Sys2Proof.Machine.execS2Entry w s
  | .s3Entry => Sys2Proof.Machine.execS3Entry s
  | .s4Entry => Sys2Proof.Machine.execS4Entry s
  | .wakeTrigger k => Sys2Proof.Machine.execWakeTrigger k s
  | .domainWakeDone k => Sys2Proof.Machine.execDomainWakeDone k s
  | .wdnAontimeLoRead q slot => Sys2Proof.Machine.execWdnAontimeLoRead q slot s
  | .wdnOppointTarget q slot => Sys2Proof.Machine.execWdnOppointTarget q slot s
  | .rcRead q slot => Sys2Proof.Machine.execRcRead q slot s
  | .galPerfClr q slot => Sys2Proof.Machine.execGalPerfClr q slot s
  | .galBypassWrite q slot => Sys2Proof.Machine.execGalBypassWrite q slot s
  | .wingRetire q slot => Sys2Proof.Machine.execWingRetire q slot s
  | .wingRestore q slot => Sys2Proof.Machine.execWingRestore q slot s
  | .wmcChanRetireGo q slot => Sys2Proof.Machine.execWmcChanRetireGo q slot s
  | .wmcLoopGo bad q slot => Sys2Proof.Machine.execWmcLoopGo bad q slot s
  | .hluLinkCtlRetrain q slot => Sys2Proof.Machine.execHluLinkCtlRetrain q slot s
  | .ffuFlDisable q slot => Sys2Proof.Machine.execFfuFlDisable q slot s
  | .ffuFlLoop w f => Sys2Proof.Machine.execFfuFlLoop w f s
  | .lndLoopLink q slot => Sys2Proof.Machine.execLndLoopLink q slot s
  | .lndLoopPad w c sync errs => Sys2Proof.Machine.execLndLoopPad w c sync errs s
  | .lndRawOwnWrite q slot => Sys2Proof.Machine.execLndRawOwnWrite q slot s
  | .lndChCfgApply c => Sys2Proof.Machine.execLndChCfgApply c s
  | .diuChkWrite q slot => Sys2Proof.Machine.execDiuChkWrite q slot s
  | .diuChkRead q slot => Sys2Proof.Machine.execDiuChkRead q slot s
  | .doorbell q count first len lat es => Sys2Proof.Machine.execDoorbell q count first len lat es s
  | .cqHead q head => Sys2Proof.Machine.execCqHead q head s
  | .completionPost q => Sys2Proof.Machine.execCompletionPost q s
  | .eventPost => Sys2Proof.Machine.execEventPost s
  | .readData rtag len data => Sys2Proof.Machine.execReadData rtag len data s
  | .init credits => Sys2Proof.Machine.execInit credits s
  | .initRetry => Sys2Proof.Machine.execInitRetry s
  | .width w => Sys2Proof.Machine.execWidth w s
  | .resync => Sys2Proof.Machine.execResync s
  | .loop depth echo => Sys2Proof.Machine.execLoop depth echo s
  | .hostFlitReceive x => Sys2Proof.Machine.execHostFlitReceive x s
  | .hostReplayTimeout => Sys2Proof.Machine.execHostReplayTimeout s
  | .hostLinkTraining lanes => Sys2Proof.Machine.execHostLinkTraining lanes s
  | .trainingRetry => Sys2Proof.Machine.execTrainingRetry s
  | .hostLinkRetrain lanes => Sys2Proof.Machine.execHostLinkRetrain lanes s
  | .adapterLinkReset => Sys2Proof.Machine.execAdapterLinkReset s
  | .linkWideningDone => Sys2Proof.Machine.execLinkWideningDone s
  | .landingFlitReceive l up x => Sys2Proof.Machine.execLandingFlitReceive l up x s
  | .landingReplayTimeout l up => Sys2Proof.Machine.execLandingReplayTimeout l up s
  | .landingLinkRetrain l lanes => Sys2Proof.Machine.execLandingLinkRetrain l lanes s
  | .landingLost l fatal => Sys2Proof.Machine.execLandingLost l fatal s
  | .channelGrant c => Sys2Proof.Machine.execChannelGrant c s
  | .classCWaitExpiry c => Sys2Proof.Machine.execClassCWaitExpiry c s
  | .classDWaitExpiry c => Sys2Proof.Machine.execClassDWaitExpiry c s
  | .programSuspend d p => Sys2Proof.Machine.execProgramSuspend d p s
  | .suspendResume d p => Sys2Proof.Machine.execSuspendResume d p s
  | .flashReadDone d p errs => Sys2Proof.Machine.execFlashReadDone d p errs s
  | .tier2Reread id left => Sys2Proof.Machine.execTier2Reread id left s
  | .tier3Reconstruct id bad ok => Sys2Proof.Machine.execTier3Reconstruct id bad ok s
  | .flashProgramDone d p ok => Sys2Proof.Machine.execFlashProgramDone d p ok s
  | .flashEraseDone d ok => Sys2Proof.Machine.execFlashEraseDone d ok s
  | .readBufferExpiry l => Sys2Proof.Machine.execReadBufferExpiry l s
  | .calibrationIdleCheck d g => Sys2Proof.Machine.execCalibrationIdleCheck d g s
  | .landingBootCheck l fresh => Sys2Proof.Machine.execLandingBootCheck l fresh s
  | .wearWindowAdvance d => Sys2Proof.Machine.execWearWindowAdvance d s
  | .wearWindowCommit d => Sys2Proof.Machine.execWearWindowCommit d s
  | .antirollAdvance f0 f32 => Sys2Proof.Machine.execAntirollAdvance f0 f32 s
  | .lzPageProgrammed id => Sys2Proof.Machine.execLzPageProgrammed id s
  | .lzCopyFail id => Sys2Proof.Machine.execLzCopyFail id s
  | .journalPageStart => Sys2Proof.Machine.execJournalPageStart s
  | .journalPageDurable => Sys2Proof.Machine.execJournalPageDurable s
  | .tallySettle q cid => Sys2Proof.Machine.execTallySettle q cid s
  | .checkpointStart => Sys2Proof.Machine.execCheckpointStart s
  | .mapRootWrite => Sys2Proof.Machine.execMapRootWrite s
  | .mdmRecovery => Sys2Proof.Machine.execMdmRecovery s
  | .mapPieceReload p ends => Sys2Proof.Machine.execMapPieceReload p ends s
  | .nailFold vol span => Sys2Proof.Machine.execNailFold vol span s
  | .nailBudgetFold => Sys2Proof.Machine.execNailBudgetFold s
  | .voidPageFill id sb => Sys2Proof.Machine.execVoidPageFill id sb s
  | .reclaimStart k => Sys2Proof.Machine.execReclaimStart k s
  | .lzDestage sb => Sys2Proof.Machine.execLzDestage sb s
  | .reclaimRowVerify id sb bad => Sys2Proof.Machine.execReclaimRowVerify id sb bad s
  | .victimErase id => Sys2Proof.Machine.execVictimErase id s
  | .rowProgramFail id sb => Sys2Proof.Machine.execRowProgramFail id sb s
  | .memberSubstitution d b => Sys2Proof.Machine.execMemberSubstitution d b s
  | .dieOutOfService d lost => Sys2Proof.Machine.execDieOutOfService d lost s
  | .dieRebuild d => Sys2Proof.Machine.execDieRebuild d s
  | .readOnlyEntry => Sys2Proof.Machine.execReadOnlyEntry s
  | .sanitizePhase1 d bad => Sys2Proof.Machine.execSanitizePhase1 d bad s
  | .sanitizePhase2 => Sys2Proof.Machine.execSanitizePhase2 s
  | .sanitizeProgress => Sys2Proof.Machine.execSanitizeProgress s
  | .sanitizeEnd => Sys2Proof.Machine.execSanitizeEnd s
  | .powerOnHour => Sys2Proof.Machine.execPowerOnHour s
  | .criticalWordVote w bad => Sys2Proof.Machine.execCriticalWordVote w bad s
  | .criticalWordWrite w n => Sys2Proof.Machine.execCriticalWordWrite w n s
  | .voteSplit w => Sys2Proof.Machine.execVoteSplit w s
  | .patrolScrub store unit row word ecc => Sys2Proof.Machine.execPatrolScrub store unit row word ecc s
  | .scrubWriteback newer => Sys2Proof.Machine.execScrubWriteback newer s
  | .errorLogWindow => Sys2Proof.Machine.execErrorLogWindow s
  | .sramRowRemap ty addr => Sys2Proof.Machine.execSramRowRemap ty addr s
  | .dramRowRemap c row => Sys2Proof.Machine.execDramRowRemap c row s
  | .dramChannelLoss c => Sys2Proof.Machine.execDramChannelLoss c s
  | .dramRequestServe c ecc => Sys2Proof.Machine.execDramRequestServe c ecc s
  | .dramRequestAgeExpiry c => Sys2Proof.Machine.execDramRequestAgeExpiry c s
  | .flightTraining f lanes rtt => Sys2Proof.Machine.execFlightTraining f lanes rtt s
  | .hello f peer => Sys2Proof.Machine.execHello f peer s
  | .flightFlitReceive f x => Sys2Proof.Machine.execFlightFlitReceive f x s
  | .flightReplayTimeout f => Sys2Proof.Machine.execFlightReplayTimeout f s
  | .flightRetrain f ok => Sys2Proof.Machine.execFlightRetrain f ok s
  | .flightLost f => Sys2Proof.Machine.execFlightLost f s
  | .linkState seat st => Sys2Proof.Machine.execLinkState seat st s
  | .linkStatePeriodic loads => Sys2Proof.Machine.execLinkStatePeriodic loads s
  | .flightWake f => Sys2Proof.Machine.execFlightWake f s
  | .packetForward => Sys2Proof.Machine.execPacketForward s
  | .remoteReadServe => Sys2Proof.Machine.execRemoteReadServe s
  | .remoteWriteServe => Sys2Proof.Machine.execRemoteWriteServe s
  | .remoteAddServe => Sys2Proof.Machine.execRemoteAddServe s
  | .mailServe => Sys2Proof.Machine.execMailServe s
  | .mailStoreMove c => Sys2Proof.Machine.execMailStoreMove c s
  | .arrive => Sys2Proof.Machine.execArrive s
  | .barrierCancel => Sys2Proof.Machine.execBarrierCancel s
  | .barrierRelease => Sys2Proof.Machine.execBarrierRelease s
  | .remoteData => Sys2Proof.Machine.execRemoteData s
  | .remoteAck => Sys2Proof.Machine.execRemoteAck s
  | .nack => Sys2Proof.Machine.execNack s
  | .resendTimer tag => Sys2Proof.Machine.execResendTimer tag s
  | .requestTimeout tag => Sys2Proof.Machine.execRequestTimeout tag s
  | .barrierTimeout c n => Sys2Proof.Machine.execBarrierTimeout c n s
  | .rootBarrierTimeout c n => Sys2Proof.Machine.execRootBarrierTimeout c n s
  | .powerGoodAssert v => Sys2Proof.Machine.execPowerGoodAssert v s
  | .powerGoodDeassert v => Sys2Proof.Machine.execPowerGoodDeassert v s
  | .boot => Sys2Proof.Machine.execBoot s
  | .trialReadyTimeout => Sys2Proof.Machine.execTrialReadyTimeout s
  | .watchdogExpiry => Sys2Proof.Machine.execWatchdogExpiry s
  | .moduleReset cause => Sys2Proof.Machine.execModuleReset cause s
  | .wardenRomRestart => Sys2Proof.Machine.execWardenRomRestart s
  | .resetPin low => Sys2Proof.Machine.execResetPin low s
  | .trstPin low => Sys2Proof.Machine.execTrstPin low s
  | .emstopPin low => Sys2Proof.Machine.execEmstopPin low s
  | .coolantHotCheck => Sys2Proof.Machine.execCoolantHotCheck s
  | .coolantDtCheck => Sys2Proof.Machine.execCoolantDtCheck s
  | .flashHot => Sys2Proof.Machine.execFlashHot s
  | .sensorSample k t => Sys2Proof.Machine.execSensorSample k t s
  | .tapExtest dev pins cells => Sys2Proof.Machine.execTapExtest dev pins cells s
  | .tapIdcode dev => Sys2Proof.Machine.execTapIdcode dev s
  | .tapSamplePreload dev pins cells => Sys2Proof.Machine.execTapSamplePreload dev pins cells s
  | .tapBypass dev => Sys2Proof.Machine.execTapBypass dev s
  | .dbgUnlock v => Sys2Proof.Machine.execDbgUnlock v s
  | .dbgCsrRead a => Sys2Proof.Machine.execDbgCsrRead a s
  | .dbgCsrWrite a v bad => Sys2Proof.Machine.execDbgCsrWrite a v bad s
  | .dbgOtpRead a => Sys2Proof.Machine.execDbgOtpRead a s
  | .dbgAccRead a => Sys2Proof.Machine.execDbgAccRead a s
  | .smbInventory a pec => Sys2Proof.Machine.execSmbInventory a pec s
  | .smbStatus a pec => Sys2Proof.Machine.execSmbStatus a pec s
  | .smbPower a pec => Sys2Proof.Machine.execSmbPower a pec s
  | .smbVoltage a pec => Sys2Proof.Machine.execSmbVoltage a pec s
  | .smbHottest a pec => Sys2Proof.Machine.execSmbHottest a pec s
  | .smbSensorSel a pec v => Sys2Proof.Machine.execSmbSensorSel a pec v s
  | .smbSensor a pec => Sys2Proof.Machine.execSmbSensor a pec s
  | .smbVoteStat a pec => Sys2Proof.Machine.execSmbVoteStat a pec s
  | .smbAlertClr a pec v => Sys2Proof.Machine.execSmbAlertClr a pec v s
  | .smbEmstop a pec v => Sys2Proof.Machine.execSmbEmstop a pec v s
  | .smbReset a pec v => Sys2Proof.Machine.execSmbReset a pec v s
  | .smbAlertResponse => Sys2Proof.Machine.execSmbAlertResponse s
  | .loadDataArrival th => Sys2Proof.Machine.execLoadDataArrival th s
  | .selectionComplete g => Sys2Proof.Machine.execSelectionComplete g s
  | .walkComplete th => Sys2Proof.Machine.execWalkComplete th s
  | .cableDetect f present => Sys2Proof.Machine.execCableDetect f present s
  | .cableSupplyOverload f => Sys2Proof.Machine.execCableSupplyOverload f s

end Sys2Proof.Machine
end

