-- ==== Sys2Proof/Machine/Step.lean ====
section
/-!
DEFINITION. One step: take the command at the front of the queue and carry it out; on an empty queue one count of the
monotonic counter passes (log 1).
-/
namespace Sys2Proof.Machine

/-- The command at the front of the queue carried out on the state with the queue's rest; with no command waiting, one AON
count passes. -/
def step (s : State) : Host.Outcome State Fault Refusal :=
  match s.pending with
  | [] => .next { s with hw := tickAon s.hw }
  | c :: r => exec c { s with pending := r }

/-- `s` with the command that the word spells in front: the table gives no row any bits, so no word spells one (log 2). -/
def State.withFetchWord (s : State) (nbits w : Nat) : State :=
  match decodeTableWord nbits w with
  | some c => { s with pending := c :: s.pending }
  | none => s

end Sys2Proof.Machine
end

