-- ==== Sys2Proof/WellFormed.lean ====
section
/-!
DEFINITION. Well-formed commands: every unit that a command's operands number exists (00 R5; 12 R317; 13 R345; 14 R362, R363;
19 R496). Operands that carry data, and queue and slot numbers of a command that may not be there, are not restricted.
-/
namespace Sys2Proof

/-- Galleries 0 to 95, threads 0 to 63 on each (00 R5). -/
def Thr.wf (th : Thr) : Bool := decide (th.g < 96) && decide (th.t < 64)

/-- The blocks that ask for grains (02 R43), by the numbers of their units. -/
def Requester.wf : Requester → Bool
  | .gallery g => decide (g < 96)
  | .flight f => decide (f < 64)
  | .landing l => decide (l < 16)
  | .dieProgram d | .dieErase d => decide (d < 512)
  | .netBase | .hlu | .ffu | .probe | .hostPhy | .serdesCommon | .flashStanding | .csrWake _ => true

/-- The stores the patrol scrub walks (16 R446), by the numbers of their units, rows and words. -/
def patrolWf (store unit row word ecc : Nat) : Bool :=
  decide (ecc ≤ 2) && decide (word < 64) && match store with
  | 0 => decide (unit < 512) && decide (row < 7452 * 2048)
  | 1 => decide (unit < 64) && decide (row < 2 ^ 21)
  | 2 => decide (unit < 96) && decide (row / 2048 < 16) && decide (row % 2048 < 1536)
  | 3 => decide (unit < 4) && decide (row < 131072)
  | _ => false

/-- Every unit that the command's operands number exists. -/
def Instr.wf (c : Instr) : Bool :=
  match c with
  | .br th _ => th.wf
  | .brc th _ => th.wf
  | .call th _ => th.wf
  | .ret th _ => th.wf
  | .yield th _ => th.wf
  | .halt th _ => th.wf
  | .smov th _ => th.wf
  | .sadd th _ => th.wf
  | .ssub th _ => th.wf
  | .smul th _ => th.wf
  | .sand th _ => th.wf
  | .sor th _ => th.wf
  | .sxor th _ => th.wf
  | .sshl th _ => th.wf
  | .sshr th _ => th.wf
  | .ssra th _ => th.wf
  | .smin th _ => th.wf
  | .smax th _ => th.wf
  | .scmp th _ => th.wf
  | .ld th _ => th.wf
  | .st th _ => th.wf
  | .pref th _ => th.wf
  | .lda th _ => th.wf
  | .ldaComplete th _ => th.wf
  | .waita th _ => th.wf
  | .sema th _ => th.wf
  | .semr th _ => th.wf
  | .bar th _ => th.wf
  | .barrierComplete c _ _ g => decide (c < 32) && decide (g < 96)
  | .fence th _ => th.wf
  | .postedOpComplete g _ => decide (g < 96)
  | .send th _ => th.wf
  | .inboxDelivery g _ => decide (g < 96)
  | .recv th _ => th.wf
  | .madd th _ => th.wf
  | .radd th _ => th.wf
  | .memorySideAdd g _ => decide (g < 96)
  | .pgalloc th _ => th.wf
  | .pgfree th _ => th.wf
  | .stepend th _ => th.wf
  | .geom th _ => th.wf
  | .csrr th _ => th.wf
  | .csrw th _ => th.wf
  | .tdesc th _ => th.wf
  | .topen th _ => th.wf
  | .arrayLeaseGrant g => decide (g < 96)
  | .tload th _ => th.wf
  | .stationaryLoadStart g => decide (g < 96)
  | .stationaryLoadDone g => decide (g < 96)
  | .tswap th _ => th.wf
  | .tstream th _ => th.wf
  | .tstreamt th _ => th.wf
  | .rowEntry g => decide (g < 96)
  | .accumulatorUpdate g _ _ => decide (g < 96)
  | .burstGrant w => decide (w < 12)
  | .tdrain th _ => th.wf
  | .drainStart g => decide (g < 96)
  | .drainComplete g _ => decide (g < 96)
  | .vop th _ => th.wf
  | .vquant th _ => th.wf
  | .vrot th _ => th.wf
  | .vhist th _ => th.wf
  | .vscale th _ => th.wf
  | .selt th _ => th.wf
  | .topk th _ => th.wf
  | .merge th _ => th.wf
  | .selectionResume g => decide (g < 96)
  | .ptab th _ => th.wf
  | .pscan th _ => th.wf
  | .scanStart => true
  | .lpuPageScan _ _ => true
  | .survivorArrival _ _ => true
  | .thresholdSend _ _ => true
  | .thresholdApply _ _ l => decide (l < 16)
  | .appendEnd _ => true
  | .scanEnd _ => true
  | .pcollect th _ => th.wf
  | .gwalk th _ => th.wf
  | .issueSelect g => decide (g < 96)
  | .identify _ _ => true
  | .getLog _ _ => true
  | .getFeature _ _ => true
  | .queueCreate _ _ => true
  | .queueDelete _ _ => true
  | .expert _ _ => true
  | .eventMask _ _ => true
  | .powerCap _ _ => true
  | .sleepPolicy _ _ => true
  | .partition _ _ => true
  | .partitionReset p _ _ _ _ => decide (p < 8)
  | .volumeCreate _ _ => true
  | .volumeDelete _ _ => true
  | .errorLogClear _ _ => true
  | .overlayStore _ _ => true
  | .overlayDelete _ _ => true
  | .overlaySelect _ _ => true
  | .moduleId _ _ => true
  | .fwDownload _ _ => true
  | .fwCommit _ _ => true
  | .attest _ _ => true
  | .sanitizeStart _ _ => true
  | .sanitizeStatus _ _ => true
  | .regRead _ _ => true
  | .regWrite _ _ => true
  | .csrWakeTimeout _ => true
  | .abort _ _ => true
  | .read _ _ => true
  | .write _ _ => true
  | .trim _ _ => true
  | .flush _ _ => true
  | .objectRead _ _ => true
  | .objectWrite _ _ => true
  | .rawRead _ _ => true
  | .rawReadRaw _ _ => true
  | .rawReadLevel _ _ => true
  | .rawProgram _ _ => true
  | .rawErase _ _ => true
  | .rawCacheLoop _ _ => true
  | .rawGetDieFeature _ _ => true
  | .rawSetDieFeature _ _ => true
  | .rawReadIdent _ _ => true
  | .rawBlockState _ _ => true
  | .rawOtpRead _ _ => true
  | .jobLoad _ _ => true
  | .jobSubmit _ _ => true
  | .jobCancel _ _ => true
  | .jobStatus _ _ => true
  | .schedulingPoint p => decide (p < 8)
  | .groupLimitExpiry g => decide (g < 96)
  | .preemptionSwitch p => decide (p < 8)
  | .lendStart p n => decide (p < 8) && decide (n < 256)
  | .lendLimitExpiry p g t => decide (p < 8) && decide (g < 96) && decide (t < 64)
  | .contextTeardown c => decide (c < 32)
  | .programFault g => decide (g < 96)
  | .grainRequest r _ => r.wf
  | .grainRelease r _ => r.wf
  | .ledgerArbitration a => decide (a < 3)
  | .headBlocked a => decide (a < 3)
  | .revocationWaitExpiry => true
  | .oppointChange => true
  | .autoOppointLower => true
  | .autoOppointRaise => true
  | .powerCapSample _ => true
  | .thermalStep => true
  | .thermalTrip => true
  | .thermalTripEnd => true
  | .pllLock k => decide (k < 19)
  | .s1Entry w => decide (w < 12)
  | .s2Entry w => decide (w < 12)
  | .s3Entry => true
  | .s4Entry => true
  | .wakeTrigger k => decide (k < 13)
  | .domainWakeDone k => decide (k < 13)
  | .wdnAontimeLoRead _ _ => true
  | .wdnOppointTarget _ _ => true
  | .rcRead _ _ => true
  | .galPerfClr _ _ => true
  | .galBypassWrite _ _ => true
  | .wingRetire _ _ => true
  | .wingRestore _ _ => true
  | .wmcChanRetireGo _ _ => true
  | .wmcLoopGo _ _ _ => true
  | .hluLinkCtlRetrain _ _ => true
  | .ffuFlDisable _ _ => true
  | .ffuFlLoop _ f => decide (f < 64)
  | .lndLoopLink _ _ => true
  | .lndLoopPad _ c _ _ => decide (c < 64)
  | .lndRawOwnWrite _ _ => true
  | .lndChCfgApply c => decide (c < 64)
  | .diuChkWrite _ _ => true
  | .diuChkRead _ _ => true
  | .doorbell q _ _ _ _ _ => decide (q < 256)
  | .cqHead q _ => decide (q < 256)
  | .completionPost q => decide (q < 256)
  | .eventPost => true
  | .readData _ _ _ => true
  | .init _ => true
  | .initRetry => true
  | .width _ => true
  | .resync => true
  | .loop _ _ => true
  | .hostFlitReceive _ => true
  | .hostReplayTimeout => true
  | .hostLinkTraining _ => true
  | .trainingRetry => true
  | .hostLinkRetrain _ => true
  | .adapterLinkReset => true
  | .linkWideningDone => true
  | .landingFlitReceive l _ _ => decide (l < 16)
  | .landingReplayTimeout l _ => decide (l < 16)
  | .landingLinkRetrain l _ => decide (l < 16)
  | .landingLost l _ => decide (l < 16)
  | .channelGrant c => decide (c < 64)
  | .classCWaitExpiry c => decide (c < 64)
  | .classDWaitExpiry c => decide (c < 64)
  | .programSuspend d p => decide (d < 512) && decide (p < 4)
  | .suspendResume d p => decide (d < 512) && decide (p < 4)
  | .flashReadDone d p _ => decide (d < 512) && decide (p < 4)
  | .tier2Reread _ _ => true
  | .tier3Reconstruct _ _ _ => true
  | .flashProgramDone d p _ => decide (d < 512) && decide (p < 4)
  | .flashEraseDone d _ => decide (d < 512)
  | .readBufferExpiry l => decide (l < 16)
  | .calibrationIdleCheck d g => decide (d < 512) && decide (g < 36)
  | .landingBootCheck l _ => decide (l < 16)
  | .wearWindowAdvance d => decide (d < 512)
  | .wearWindowCommit d => decide (d < 512)
  | .antirollAdvance _ _ => true
  | .lzPageProgrammed _ => true
  | .lzCopyFail _ => true
  | .journalPageStart => true
  | .journalPageDurable => true
  | .tallySettle _ _ => true
  | .checkpointStart => true
  | .mapRootWrite => true
  | .mdmRecovery => true
  | .mapPieceReload _ _ => true
  | .nailFold _ _ => true
  | .nailBudgetFold => true
  | .voidPageFill _ _ => true
  | .reclaimStart k => decide (k < 16)
  | .lzDestage sb => decide (sb < 118832)
  | .reclaimRowVerify _ _ _ => true
  | .victimErase _ => true
  | .rowProgramFail _ _ => true
  | .memberSubstitution d b => decide (d < 512) && decide (b < 7451)
  | .dieOutOfService d _ => decide (d < 512)
  | .dieRebuild d => decide (d < 512)
  | .readOnlyEntry => true
  | .sanitizePhase1 d _ => decide (d < 512)
  | .sanitizePhase2 => true
  | .sanitizeProgress => true
  | .sanitizeEnd => true
  | .powerOnHour => true
  | .criticalWordVote w _ => decide (w < 5)
  | .criticalWordWrite w n => decide (w < 5) && decide (n ≤ 3)
  | .voteSplit w => decide (w < 5)
  | .patrolScrub store unit row word ecc => patrolWf store unit row word ecc
  | .scrubWriteback _ => true
  | .errorLogWindow => true
  | .sramRowRemap ty _ => decide (1 ≤ ty) && decide (ty ≤ 2)
  | .dramRowRemap c _ => decide (c < 64)
  | .dramChannelLoss c => decide (c < 64)
  | .dramRequestServe c _ => decide (c < 64)
  | .dramRequestAgeExpiry c => decide (c < 64)
  | .flightTraining f _ _ => decide (f < 64)
  | .hello f _ => decide (f < 64)
  | .flightFlitReceive f _ => decide (f < 64)
  | .flightReplayTimeout f => decide (f < 64)
  | .flightRetrain f _ => decide (f < 64)
  | .flightLost f => decide (f < 64)
  | .linkState seat _ => decide (seat < 32)
  | .linkStatePeriodic _ => true
  | .flightWake f => decide (f < 64)
  | .packetForward => true
  | .remoteReadServe => true
  | .remoteWriteServe => true
  | .remoteAddServe => true
  | .mailServe => true
  | .mailStoreMove c => decide (c < 32)
  | .arrive => true
  | .barrierCancel => true
  | .barrierRelease => true
  | .remoteData => true
  | .remoteAck => true
  | .nack => true
  | .resendTimer _ => true
  | .requestTimeout _ => true
  | .barrierTimeout c n => decide (c < 32) && decide (n < 16)
  | .rootBarrierTimeout c n => decide (c < 32) && decide (n < 16)
  | .powerGoodAssert _ => true
  | .powerGoodDeassert _ => true
  | .boot => true
  | .trialReadyTimeout => true
  | .watchdogExpiry => true
  | .moduleReset _ => true
  | .wardenRomRestart => true
  | .resetPin _ => true
  | .trstPin _ => true
  | .emstopPin _ => true
  | .coolantHotCheck => true
  | .coolantDtCheck => true
  | .flashHot => true
  | .sensorSample k _ => decide (k < 48)
  | .tapExtest dev _ _ => decide (dev < 17)
  | .tapIdcode dev => decide (dev < 17)
  | .tapSamplePreload dev _ _ => decide (dev < 17)
  | .tapBypass dev => decide (dev < 17)
  | .dbgUnlock _ => true
  | .dbgCsrRead _ => true
  | .dbgCsrWrite _ _ _ => true
  | .dbgOtpRead _ => true
  | .dbgAccRead _ => true
  | .smbInventory _ _ => true
  | .smbStatus _ _ => true
  | .smbPower _ _ => true
  | .smbVoltage _ _ => true
  | .smbHottest _ _ => true
  | .smbSensorSel _ _ _ => true
  | .smbSensor _ _ => true
  | .smbVoteStat _ _ => true
  | .smbAlertClr _ _ _ => true
  | .smbEmstop _ _ _ => true
  | .smbReset _ _ _ => true
  | .smbAlertResponse => true
  | .loadDataArrival th => th.wf
  | .selectionComplete g => decide (g < 96)
  | .walkComplete th => th.wf
  | .cableDetect f _ => decide (f < 64)
  | .cableSupplyOverload f => decide (f < 64)

end Sys2Proof
end

