-- ==== Sys2Proof/Safety.lean ====
section
/-!
DEFINITION. The words the statements use: a step that does not stop; an instruction that the sequencer has issued and that is to be carried
out; what an instruction leaves of its thread; which part of the module differs between two states.
-/
namespace Sys2Proof

/-- The outcome is a next state: the step neither faults nor refuses. -/
def Safe (o : Host.Outcome Machine.State Machine.Fault Machine.Refusal) : Prop := ∃ t, o = .next t

/-- The instruction, thread and word fields of a command that is an instruction of the module's instruction set (05 R129, 06 R166). -/
def Instr.isa? (c : Instr) : Option (IsaOp × Thr × Fields) :=
  match c with
  | .br th f => some (.br, th, f)
  | .brc th f => some (.brc, th, f)
  | .call th f => some (.call, th, f)
  | .ret th f => some (.ret, th, f)
  | .yield th f => some (.yield, th, f)
  | .halt th f => some (.halt, th, f)
  | .smov th f => some (.smov, th, f)
  | .sadd th f => some (.sadd, th, f)
  | .ssub th f => some (.ssub, th, f)
  | .smul th f => some (.smul, th, f)
  | .sand th f => some (.sand, th, f)
  | .sor th f => some (.sor, th, f)
  | .sxor th f => some (.sxor, th, f)
  | .sshl th f => some (.sshl, th, f)
  | .sshr th f => some (.sshr, th, f)
  | .ssra th f => some (.ssra, th, f)
  | .smin th f => some (.smin, th, f)
  | .smax th f => some (.smax, th, f)
  | .scmp th f => some (.scmp, th, f)
  | .ld th f => some (.ld, th, f)
  | .st th f => some (.st, th, f)
  | .pref th f => some (.pref, th, f)
  | .lda th f => some (.lda, th, f)
  | .waita th f => some (.waita, th, f)
  | .sema th f => some (.sema, th, f)
  | .semr th f => some (.semr, th, f)
  | .bar th f => some (.bar, th, f)
  | .fence th f => some (.fence, th, f)
  | .send th f => some (.send, th, f)
  | .recv th f => some (.recv, th, f)
  | .madd th f => some (.madd, th, f)
  | .radd th f => some (.radd, th, f)
  | .pgalloc th f => some (.pgalloc, th, f)
  | .pgfree th f => some (.pgfree, th, f)
  | .stepend th f => some (.stepend, th, f)
  | .geom th f => some (.geom, th, f)
  | .csrr th f => some (.csrr, th, f)
  | .csrw th f => some (.csrw, th, f)
  | .tdesc th f => some (.tdesc, th, f)
  | .topen th f => some (.topen, th, f)
  | .tload th f => some (.tload, th, f)
  | .tswap th f => some (.tswap, th, f)
  | .tstream th f => some (.tstream, th, f)
  | .tstreamt th f => some (.tstreamt, th, f)
  | .tdrain th f => some (.tdrain, th, f)
  | .vop th f => some (.vop, th, f)
  | .vquant th f => some (.vquant, th, f)
  | .vrot th f => some (.vrot, th, f)
  | .vhist th f => some (.vhist, th, f)
  | .vscale th f => some (.vscale, th, f)
  | .selt th f => some (.selt, th, f)
  | .topk th f => some (.topk, th, f)
  | .merge th f => some (.merge, th, f)
  | .ptab th f => some (.ptab, th, f)
  | .pscan th f => some (.pscan, th, f)
  | .pcollect th f => some (.pcollect, th, f)
  | .gwalk th f => some (.gwalk, th, f)
  | _ => none

namespace Machine

/-- The sequencer has issued this word for this thread of context `c` (04 R86), the thread's lease permits it (04 R106, 06 R172) and its guard
holds (05 R125): the instruction is to be carried out. -/
abbrev Carried (o : IsaOp) (th : Thr) (f : Fields) (c : Nat) (h : Hw) : Prop :=
  (th.g < 96 ∧ th.t < 64) ∧ ((gal h th.g).latch = some (th.t, some (encodeWord o f)) ∧ (thread h th).st = .ready) ∧ groupIllegal h th o = false ∧
    guardPass (thread h th) f = true ∧ thrCtx h th = some c

/-- The state on which an instruction's own rule runs: its word is off the issue latch. -/
def unlatch (th : Thr) (h : Hw) : Hw := modGal h th.g (fun G => { G with latch := none })

/-- A thread whose instruction is over: at the next word, to issue again `d` cycles after cycle `n` (05 R131). -/
def Thread.stepped (T : Thread) (n d : Nat) : Thread := { T with st := .ready, pc := T.pc + 8, branchFrom := none, notBefore := n + d }

/-- A thread whose instruction waits: BLOCKED, its PC at the next word (04 R85). -/
def Thread.waits (T : Thread) (n : Nat) (w : Wait) : Thread := { T with st := .blocked w, pc := T.pc + 8, branchFrom := none, notBefore := n + 1 }

/-- A thread that took a branch (05 R134, R137): the target is fetched 3 cycles later. -/
def Thread.branched (T : Thread) (n code target : Nat) : Thread :=
  { T with st := .ready, code := code, pc := target, branchFrom := some T.pc, notBefore := n + 3 }

/-- Between `h` and `h'` nothing differs but thread `th`, and its gallery's issue latch is empty. -/
def OnlyThread (th : Thr) (h h' : Hw) : Prop :=
  h' = { h with gal := h'.gal } ∧ (∀ g, g ≠ th.g → gal h' g = gal h g) ∧
    gal h' th.g = { gal h th.g with latch := none, thr := (gal h' th.g).thr } ∧ ∀ u, u ≠ th → thread h' u = thread h u

/-- The command takes the state to one in which `th` is `T` and nothing else differs. -/
def Leaves (o : Host.Outcome State Fault Refusal) (s : State) (th : Thr) (T : Thread) : Prop :=
  ∃ t, o = .next t ∧ t.pending = s.pending ∧ thread t.hw th = T ∧ OnlyThread th s.hw t.hw

/-- The command answers a next state, its queue the one before, in which `P` holds of the hardware. -/
def Yields (o : Host.Outcome State Fault Refusal) (s : State) (P : Hw → Prop) : Prop :=
  ∃ t, o = .next t ∧ t.pending = s.pending ∧ P t.hw

/-- A BLOCKED thread whose wait is over: READY, to issue from the next cycle on (04 R85, 05 R133). -/
def Thread.woken (T : Thread) (n : Nat) : Thread := { T with st := .ready, notBefore := n + 1 }

/-- The command answers the state with this hardware, its queue the one before. -/
def Becomes (o : Host.Outcome State Fault Refusal) (s : State) (h1 : Hw) : Prop := o = .next { s with hw := h1 }

/-- The instruction is over (05 R131): its effect has made `h1`, in which the thread goes on at the next word `d` cycles after the issue. -/
def Goes (o : Host.Outcome State Fault Refusal) (s : State) (th : Thr) (d : Nat) (h1 : Hw) : Prop :=
  o = .next { s with hw := modThr h1 th (fun T => { T with
    st := .ready, pc := (thread s.hw th).pc + 8, branchFrom := none, notBefore := (gal s.hw th.g).cycle + d }) }

/-- The instruction waits for its completion (04 R85): its effect so far has made `h1`, in which the thread is BLOCKED with its PC at the next
word. -/
def Blocks (o : Host.Outcome State Fault Refusal) (s : State) (th : Thr) (w : Wait) (h1 : Hw) : Prop :=
  o = .next { s with hw := modThr h1 th (fun T => { T with
    st := .blocked w, pc := (thread s.hw th).pc + 8, branchFrom := none, notBefore := (gal s.hw th.g).cycle + 1 }) }

/-- The instruction is to be issued again (04 R98, 05 R143, R159): nothing changes but that its thread waits for room. -/
def Reissues (o : Host.Outcome State Fault Refusal) (s : State) (th : Thr) (w : Wait) : Prop :=
  o = .next { s with hw := modThr (unlatch th s.hw) th (fun T => { T with st := .blocked w }) }

/-- A slot of the gallery's posted operations is taken (05 R159). -/
def withPost (th : Thr) (kind : PostKind) (arrived : Bool) (status : Nat) (h : Hw) : Hw :=
  modGal h th.g (fun G => { G with
    postNext := G.postNext + 1, post := G.post ++ [{ id := G.postNext, thr := th.t, kind, arrived, status }] })

/-- The thread's register s[d] takes a value. -/
def withS (th : Thr) (d : Nat) (x : DWord) (h : Hw) : Hw := modThr h th (fun T => T.setS d x)

/-- The entry of a queue's slot that this row of the table is to carry out (18 R464 to R472): it waits, the module carries it out now, and none of
the checks that every command meets answers it. -/
abbrev Due (h : Hw) (q slot : Nat) (mine : Cmd → Bool) (c : Cmd) : Prop :=
  findCmd h q slot = some c ∧ mine c = true ∧ carriesOut h c = true ∧ commonStatus h c = none

/-- The hardware on which a command's own rule runs: its entry has started. -/
def begun (c : Cmd) (h : Hw) : Hw := modCmd c.id (fun x => { x with started := true }) h

/-- The command takes the thread's context to its end with a fault record (04 R117). -/
def Faults (o : Host.Outcome State Fault Refusal) (s : State) (th : Thr) (c cause pc : Nat) : Prop :=
  ∃ t, o = .next t ∧ t.pending = s.pending ∧ (ctx t.hw c).stopped = true ∧
    ((ctx s.hw c).stopped = false → (ctx t.hw c).fault =
      some { cause, gallery := logicalOf s.hw (c / 4) th.g, thread := th.t - (ctx s.hw c).first, pc })

end Machine
end Sys2Proof
end

