-- ==== Sys2Proof/Certificates/Slice0/Obligations.lean ====
section
/-!
DEFINITION. The statements for the provers.
-/
section Statements
open Sys2Proof Sys2Proof.Machine

/-- With a command waiting, a step answers what the command answers on the same hardware with the rest of the queue.
(95_what_each_step_holds.md) -/
def Obligations.StepRunsFront : Prop :=
  ∀ (c : Instr) (r : List Instr) (h : Hw), step { pending := c :: r, hw := h } = exec c { pending := r, hw := h }

/-- For every state, when a step answers a next state its queue is the queue before less its first command, whatever command that
was. With no command waiting a step answers a next state in which nothing has changed but the AON counter, one count later while
the module is powered and unchanged while it is not. That the passing of time is a step on an empty queue is the model's choice
(log 1). (95_what_each_step_holds.md, R34, 02_grains_clocks.md) -/
def Obligations.StepTakesOne : Prop :=
  (∀ (s t : State), step s = .next t → t.pending = s.pending.tail) ∧
    ∀ (h : Hw), ∃ t, step { pending := [], hw := h } = .next { pending := [], hw := t } ∧
      t = { h with wdn := { h.wdn with aon := t.wdn.aon } } ∧ t.wdn.aon = if h.wdn.power then h.wdn.aon + 1 else h.wdn.aon

/-- Whenever the contents of every object instance are in canonical form (addresses strictly rising, no listed byte equal to what
its address reads as unlisted) and a step answers a next state, they are in canonical form there too. At reset nothing is listed
and the form holds (ResetState). (R91, R100, R123, R355, R356) -/
def Obligations.MemoryStaysCanonical : Prop :=
  ∀ (s t : State), Memory.wf s.hw.mem = true → step s = .next t → Memory.wf t.hw.mem = true

/-- For every state and command, the command answers a next state when every unit its operands number exists, and stops with
noSuchUnit when one does not; no command is refused and nothing else stops one. In part this rests on the model's own choices: log
3. (00_scope.md, R5, R317, R345, R362, R496) -/
def Obligations.StopsOnlyOffUnits : Prop :=
  ∀ (c : Instr) (s : State), if c.wf then Safe (exec c s) else exec c s = .fault .noSuchUnit

/-- At cold power-on the AON counter reads 0, the operating point is nominal with automatic stepping on, the three ledgers hold
nothing and have their whole budgets of grains (in tenths), queue 0 alone exists with DEPTH 64, limit 48 and ring address 0, no
expert token stands, FFU_ID reads 0x3FFF, lending and pre-emption are on with their default limits, every context is free, no
memory is listed (which is in canonical form) and nothing waits; the module is neither powered nor ready. In part this rests on
the model's own choices: log 7. (R34, R37, R42, R466, R475, R518, R341, R21, R523, R322) -/
def Obligations.ResetState : Prop :=
  State.reset.pending = [] ∧
    let h := State.reset.hw
    h.wdn.aon = 0 ∧ h.wdn.opCur = 0 ∧ h.wdn.opAuto = true ∧ h.wdn.ready = false ∧ h.wdn.power = false ∧
    (h.wdn.vcore.held = [] ∧ h.wdn.vserdes.held = [] ∧ h.wdn.vflash.held = []) ∧
    (h.wdn.vcore.ceiling = 9000 ∧ h.wdn.vserdes.ceiling = 1280 ∧ h.wdn.vflash.ceiling = 8800) ∧
    (∀ q, (tgetD h.host.queues q {}).configured = true ↔ q = 0) ∧
    ((tgetD h.host.queues 0 {}).depth = 64 ∧ (tgetD h.host.queues 0 {}).limit = 48 ∧ (tgetD h.host.queues 0 {}).base = 0) ∧
    h.host.token = none ∧ h.ffu.id = 0x3FFF ∧ h.jst.lendEn = true ∧ h.jst.preemptEn = true ∧ h.jst.groupLimit = 150000 ∧
    h.jst.lendLimit = 2000 ∧ (∀ c, (ctx h c).st = .free) ∧ h.mem = [] ∧ Memory.wf h.mem = true

/-- For every instruction and every value of its fields, decoding the word that encodes them gives them back; and every word that
decodes at all is the one that encodes what it decodes to. (R124, R126, R129, R166) -/
def Obligations.WordCodec : Prop :=
  (∀ (o : IsaOp) (f : Fields), decodeWord (encodeWord o f) = some (o, f)) ∧
    ∀ (w : DWord) (o : IsaOp) (f : Fields), decodeWord w = some (o, f) → encodeWord o f = w

/-- For every instruction of the set, issued and permitted by the thread's lease, when bit 0 of p[G] exclusive-ORed with GN is 0
it goes on to the next word one cycle later and nothing else differs; an instruction that the lease does not permit takes
GROUP_ILLEGAL whether or not its guard holds; and with G = 0 and GN = 0 the guard always holds. (R125) -/
def Obligations.GuardSkips : Prop :=
  (∀ (i : Instr) (o : IsaOp) (th : Thr) (f : Fields) (c : Nat) (s : State), i.isa? = some (o, th, f) → th.wf = true →
    (gal s.hw th.g).latch = some (th.t, some (encodeWord o f)) → (thread s.hw th).st = .ready → thrCtx s.hw th = some c →
      (groupIllegal s.hw th o = false → (((thread s.hw th).preg f.gd.toNat).getLsbD 0 ^^ f.gn) = false →
        Leaves (exec i s) s th ((thread s.hw th).stepped (gal s.hw th.g).cycle 1)) ∧
      (groupIllegal s.hw th o = true → Faults (exec i s) s th c 0x09 (thread s.hw th).pc)) ∧
    ∀ (T : Thread) (f : Fields), f.gd = 0 → f.gn = false → guardPass T f = true

/-- Every scalar instruction that is carried out with fields its encoding permits goes on with its result in s[D], in each form of
the table of R139, the result modulo 2^64, one cycle later (SMUL three); SCMP sets every bit of the predicate named by D to the
result of the comparison under each condition code, and naming p0 has no effect; nothing else of the thread or the module differs.
(R139) -/
def Obligations.ScalarArithmetic : Prop :=
  ∀ (th : Thr) (f : Fields) (c : Nat) (s : State), let T := thread s.hw th; let n := (gal s.hw th.g).cycle
    (Carried .smov th f c s.hw → f.mod = 0 → f.b = 0 → f.low29 = 0 →
      Leaves (exec (.smov th f) s) s th ((T.setS f.d (T.sreg f.a)).stepped n 1)) ∧
    (Carried .smov th f c s.hw → f.mod = 1 → f.a = 0 →
      Leaves (exec (.smov th f) s) s th ((T.setS f.d (f.imm34.signExtend 64)).stepped n 1)) ∧
    (Carried .smov th f c s.hw → f.mod = 2 → f.a = 0 → f.imm34.extractLsb' 30 4 = 0 →
      Leaves (exec (.smov th f) s) s th ((T.setS f.d (f.imm34.extractLsb' 0 30 ++ (T.sreg f.d).extractLsb' 0 34)).stepped n 1)) ∧
    (∀ (b : DWord) (r : Bool), Carried .scmp th f c s.hw → f.d < 8 →
      (f.m 0 = false ∧ f.low29 = 0 ∧ b = T.sreg f.b ∨ f.m 0 = true ∧ b = f.imm34.signExtend 64) →
      (f.mod.toNat / 2 = 0 ∧ r = decide (T.sreg f.a = b) ∨ f.mod.toNat / 2 = 1 ∧ r = decide (T.sreg f.a ≠ b) ∨
        f.mod.toNat / 2 = 2 ∧ r = decide ((T.sreg f.a).toInt < b.toInt) ∨ f.mod.toNat / 2 = 3 ∧ r = decide (b.toInt ≤ (T.sreg f.a).toInt) ∨
        f.mod.toNat / 2 = 4 ∧ r = decide ((T.sreg f.a).toNat < b.toNat) ∨ f.mod.toNat / 2 = 5 ∧ r = decide (b.toNat ≤ (T.sreg f.a).toNat)) →
      Leaves (exec (.scmp th f) s) s th ((T.setP f.d (if r then BitVec.allOnes 128 else 0)).stepped n 1)) ∧
    ∀ (b : DWord), (f.mod = 0 ∧ f.low29 = 0 ∧ b = T.sreg f.b ∨ f.mod = 1 ∧ b = f.imm34.signExtend 64) →
      let R := fun (i : Instr) (x : DWord) (d : Nat) => Leaves (exec i s) s th ((T.setS f.d x).stepped n d)
      let a := T.sreg f.a
      (Carried .sadd th f c s.hw → R (.sadd th f) (a + b) 1) ∧
      (Carried .ssub th f c s.hw → R (.ssub th f) (a - b) 1) ∧
      (Carried .smul th f c s.hw → R (.smul th f) (a * b) 3) ∧
      (Carried .sand th f c s.hw → R (.sand th f) (a &&& b) 1) ∧
      (Carried .sor th f c s.hw → R (.sor th f) (a ||| b) 1) ∧
      (Carried .sxor th f c s.hw → R (.sxor th f) (a ^^^ b) 1) ∧
      (Carried .sshl th f c s.hw → R (.sshl th f) (a <<< (b.extractLsb' 0 6).toNat) 1) ∧
      (Carried .sshr th f c s.hw → R (.sshr th f) (a >>> (b.extractLsb' 0 6).toNat) 1) ∧
      (Carried .ssra th f c s.hw → R (.ssra th f) (a.sshiftRight (b.extractLsb' 0 6).toNat) 1) ∧
      (Carried .smin th f c s.hw → R (.smin th f) (if a.toInt ≤ b.toInt then a else b) 1) ∧
      (Carried .smax th f c s.hw → R (.smax th f) (if a.toInt ≤ b.toInt then b else a) 1)

/-- A relative BR or CALL goes to PC + 8 x OFF44 in the same code object and takes OUT_OF_BOUNDS when that leaves the offsets
below 2^48; with MOD 1 it goes to the object address in s[A]. CALL pushes the address of the next word and takes a return-stack
fault with 16 entries; RET pops the top entry and goes there and takes that fault with none. BRC compares s[A] and s[B] (or tests
bit 0 of p[A]) and goes to PC + 8 x OFF29 when the condition holds, else on. YIELD goes on. The target is reached 3 cycles later,
the next word 1 cycle later, and nothing else differs. In part this rests on the model's own choices: log 4. (R84, R86, R134,
R135, R136, R131) -/
def Obligations.BranchesAndCalls : Prop :=
  ∀ (th : Thr) (f : Fields) (c : Nat) (s : State), let T := thread s.hw th; let n := (gal s.hw th.g).cycle
    let at_ := fun (off : Int) (k : Nat) => (T.pc : Int) + 8 * off = k ∧ k < 2 ^ 48
    let out := fun (off : Int) => (T.pc : Int) + 8 * off < 0 ∨ 2 ^ 48 ≤ (T.pc : Int) + 8 * off
    let regs := f.mod = 1 ∧ f.d = 0 ∧ f.b = 0 ∧ f.low29 = 0
    let push := { T with stack := mkAddr T.code (T.pc + 8) :: T.stack }
    let zero := f.mod = 0 ∧ f.body = 0
    (Carried .br th f c s.hw →
      (∀ k, f.mod = 0 → at_ f.body.toInt k → Leaves (exec (.br th f) s) s th (T.branched n T.code k)) ∧
      (f.mod = 0 → out f.body.toInt → Faults (exec (.br th f) s) s th c 0x05 T.pc) ∧
      (regs → Leaves (exec (.br th f) s) s th (T.branched n ((T.sreg f.a).toNat / 2 ^ 48) ((T.sreg f.a).toNat % 2 ^ 48)))) ∧
    (Carried .call th f c s.hw →
      (∀ k, f.mod = 0 → at_ f.body.toInt k → T.stack.length < 16 → Leaves (exec (.call th f) s) s th (push.branched n T.code k)) ∧
      (f.mod = 0 → out f.body.toInt → T.stack.length < 16 → Faults (exec (.call th f) s) s th c 0x05 T.pc) ∧
      (regs → T.stack.length < 16 →
        Leaves (exec (.call th f) s) s th (push.branched n ((T.sreg f.a).toNat / 2 ^ 48) ((T.sreg f.a).toNat % 2 ^ 48))) ∧
      (f.mod = 0 ∨ regs → 16 ≤ T.stack.length → Faults (exec (.call th f) s) s th c 0x0B T.pc)) ∧
    (Carried .ret th f c s.hw → zero →
      (∀ a r, T.stack = a :: r →
        Leaves (exec (.ret th f) s) s th ({ T with stack := r }.branched n (a.toNat / 2 ^ 48) (a.toNat % 2 ^ 48))) ∧
      (T.stack = [] → Faults (exec (.ret th f) s) s th c 0x0B T.pc)) ∧
    (Carried .brc th f c s.hw → f.d = 0 → ∀ b : Bool,
      (f.mod.toNat < 6 ∧ condOf f.mod.toNat (T.sreg f.a) (T.sreg f.b) = some b ∨
        (f.mod = 6 ∨ f.mod = 7) ∧ f.a < 8 ∧ f.b = 0 ∧ b = ((T.preg f.a).getLsbD 0 != decide (f.mod = 7))) →
      (b = false → Leaves (exec (.brc th f) s) s th (T.stepped n 1)) ∧
      (∀ k, b = true → at_ f.off29 k → Leaves (exec (.brc th f) s) s th (T.branched n T.code k)) ∧
      (b = true → out f.off29 → Faults (exec (.brc th f) s) s th c 0x05 T.pc)) ∧
    (Carried .yield th f c s.hw → zero → Leaves (exec (.yield th f) s) s th (T.stepped n 1))

/-- An LD whose checks pass writes, from the bay tier, the little-endian value zero- or sign-extended to s[D], or the widened
lanes to v[D], and all ones to p[PS], and goes on 2 cycles later; when a word it reads is uncorrectable it writes 0 to both, or
with PS 0 its context stops with UNCORRECTABLE. From the atrium and work tiers the thread waits; when the data of a load, no
request of which is still queued, arrives it writes the same and the thread is ready. The arrival of a CSRR's value writes s[D].
Memory keeps every byte; but for a vector register the group holder must record, only the thread changes. In part this rests on
the model's own choices: log 4, log 73, log 79, log 84. (R76, R80, R108, R131, R140, R141, R142, R355) -/
def Obligations.Loads : Prop :=
  ∀ (th : Thr) (f : Fields) (c n al off : Nat) (o : Obj) (a : DWord) (s : State),
    let T := thread s.hw th; let y := (gal s.hw th.g).cycle; let m := objMem s.hw (objKey c o th.g)
    let got := fun (T : Thread) (form : BitVec 4) (d ps : Nat) (v : Option Nat) =>
      (if form.getLsbD 3 then T.setV d (match v with
          | some v => ofLanes (fun j => widen (form.toNat % 8) v j)
          | none => ofLanes (fun _ => 0))
        else T.setS d (match v with
          | some v => if form.getLsbD 2 then (BitVec.ofNat (8 * n) v).signExtend 64 else BitVec.ofNat 64 v
          | none => 0)).setP ps (match v with
          | some _ => BitVec.allOnes 128
          | none => 0)
    let keeps := fun (h' : Hw) => h' = { s.hw with gal := h'.gal } ∧ ∀ u, u ≠ th → thread h' u = thread s.hw u
    (Carried .ld th f c s.hw → memForm f.mod = some (n, al) → f.rm = 0 → (f.m 3 = true → f.d < 16) →
      addOff (T.sreg f.a) f.off29 = some a → checkAccess (ctx s.hw c) a n .r [0, 1, 2] al = .ok o off →
        (o.tier = 0 → m.isBad 0 off n = false → Yields (exec (.ld th f) s) s fun h' =>
          thread h' th = (got T f.mod f.d f.psm (some (m.readLE off n))).stepped y 2 ∧ keeps h' ∧
            (f.m 3 = false ∨ isHolder s.hw th = false → OnlyThread th s.hw h')) ∧
        (o.tier = 0 → m.isBad 0 off n = true → f.psm ≠ 0 → Yields (exec (.ld th f) s) s fun h' =>
          thread h' th = (got T f.mod f.d f.psm none).stepped y 2 ∧ keeps h' ∧
            (f.m 3 = false ∨ isHolder s.hw th = false → OnlyThread th s.hw h')) ∧
        (o.tier = 0 → m.isBad 0 off n = true → f.psm = 0 → Faults (exec (.ld th f) s) s th c 0x23 T.pc) ∧
        (o.tier ≠ 0 → Yields (exec (.ld th f) s) s fun h' =>
          thread h' th = T.waits y (.load a f.mod.toNat f.d f.psm) ∧ h' = { s.hw with gal := h'.gal, wmc := h'.wmc })) ∧
    (∀ (v : DWord) (d : Nat), th.wf = true → T.st = .blocked (.csr v d) →
      exec (.loadDataArrival th) s = .next { s with hw := modThr s.hw th (fun T => (T.setS d v).woken y) }) ∧
    ∀ (mod : BitVec 4) (d ps : Nat), th.wf = true → T.st = .blocked (.load a mod.toNat d ps) → thrCtx s.hw th = some c →
      memForm mod = some (n, al) → checkAccess (ctx s.hw c) a n .r [0, 1, 2] al = .ok o off →
      s.hw.wmc.chans.any (fun e => e.2.queue.any (fun r => r.thr == some th)) = false →
        (m.isBad o.tier off n = false → Yields (exec (.loadDataArrival th) s) s fun h' =>
          thread h' th = (got T mod d ps (some (m.readLE off n))).woken y ∧ keeps h') ∧
        (m.isBad o.tier off n = true → ps ≠ 0 → Yields (exec (.loadDataArrival th) s) s fun h' =>
          thread h' th = (got T mod d ps none).woken y ∧ keeps h')

/-- An ST whose checks pass goes on one cycle later. The object it addresses then holds what R355 and R356 make of its stores: the
bytes of s[D], or of the lanes of v[D] that p[PS] names, narrowed, at the address s[A] + OFF29. When no word of the object is
uncorrectable and no LDA is writing it, each stored byte of the scalar form reads as the byte of s[D]; every byte outside those
the form moves reads as before, and every other object too. Only that object, the thread and, for the work tier, the channels'
queues change; a word it leaves uncorrectable is noted for the thread's next FENCE. In part this rests on the model's own choices:
log 4, log 29, log 79. (R76, R91, R131, R140, R141, R355, R356) -/
def Obligations.Stores : Prop :=
  ∀ (th : Thr) (f : Fields) (c n al off : Nat) (o : Obj) (a : DWord) (s : State),
    let T := thread s.hw th; let k := objKey c o th.g; let m := objMem s.hw k
    let ws := if f.m 3 then vecStores m (f.mod.toNat % 8) off (T.vreg f.d) (T.preg f.psm) else bytesAt off n (T.sreg f.d).toNat
    Carried .st th f c s.hw → memForm f.mod = some (n, al) → f.rm = 0 → (f.m 3 = true → f.d < 16) →
      (f.m 3 = false → f.m 2 = false ∧ f.psm = 0) → addOff (T.sreg f.a) f.off29 = some a →
      checkAccess (ctx s.hw c) a n .w [0, 1, 2, 4] al = .ok o off → o.tier < 3 →
        Yields (exec (.st th f) s) s fun h' =>
          h' = { s.hw with gal := h'.gal, mem := h'.mem, wmc := h'.wmc } ∧
          (∀ u, u ≠ th → thread h' u = thread s.hw u) ∧
          thread h' th = (if (m.store o.tier ws).2 then { T with failure := T.failure.or (some 0x20) } else T).stepped (gal s.hw th.g).cycle 1 ∧
          (o.tier ≠ 2 → h'.wmc = s.hw.wmc) ∧
          objMem h' k = (m.store o.tier ws).1 ∧ (∀ j, j ≠ k → objMem h' j = objMem s.hw j) ∧
          (∀ x, x < off ∨ off + n ≤ x → (m.wf = true) → (objMem h' k).read x = m.read x) ∧
          (f.m 3 = false → m.wf = true → m.bad = [] → m.flight = [] → ∀ i, i < n →
            (objMem h' k).read (off + i) = BitVec.ofNat 8 ((T.sreg f.d).toNat / 256 ^ i))

/-- MADD takes a slot of its gallery with its elements and its thread goes on a cycle later; with 64 slots taken it waits to issue
again. The memory-side adder applies every element of a posted MADD in order to the object's contents and records whether one lay
in an uncorrectable word. A completed post frees its slot; its failure is kept, the first one, for the thread's next FENCE, and a
thread waiting in a FENCE for its last post goes on with the status. A channel serves its next request and takes it off its queue;
an uncorrectable word stays uncorrectable; a read that has waited 2 us or more moves to the front. In part this rests on the
model's own choices: log 3, log 4, log 27, log 75, log 79, log 80, log 84. (R159, R103, R155, R350, R351, R355, R356) -/
def Obligations.AddsAndChannels : Prop :=
  (∀ (th : Thr) (f : Fields) (c off : Nat) (o : Obj) (a : DWord) (adds : List (Nat × Word)) (s : State),
    let T := thread s.hw th; let G := gal s.hw th.g
    Carried .madd th f c s.hw → addOperands th f c [1, 2] s.hw = .ok (a, o, off, adds) →
      (G.post.length < 64 → Yields (exec (.madd th f) s) s fun h' =>
        h' = { s.hw with gal := h'.gal } ∧ thread h' th = T.stepped G.cycle 1 ∧ (∀ u, u ≠ th → thread h' u = thread s.hw u) ∧
          (gal h' th.g).post = G.post ++ [{ id := G.postNext, thr := th.t, kind := .madd c a (f.m 1) adds, arrived := false, status := 0 }] ∧
          (gal h' th.g).postNext = G.postNext + 1) ∧
      (64 ≤ G.post.length → Leaves (exec (.madd th f) s) s th { T with st := .blocked .postSlot })) ∧
  (∀ (g id c : Nat) (a : DWord) (fp : Bool) (adds : List (Nat × Word)) (p : Post) (o : Obj) (s : State), g < 96 →
    (gal s.hw g).post.find? (fun p => p.id = id && !p.arrived) = some p → p.kind = .madd c a fp adds →
    (ctx s.hw c).objs.find? (fun o => o.handle = addrHandle a) = some o →
      let r := addElems o.tier fp (addrOff a) adds (objMem s.hw (objKey c o g))
      Yields (exec (.memorySideAdd g id) s) s fun h' =>
        h' = { s.hw with gal := h'.gal, mem := h'.mem, wmc := h'.wmc } ∧ objMem h' (objKey c o g) = r.1 ∧
          (∀ k, k ≠ objKey c o g → objMem h' k = objMem s.hw k) ∧
          gal h' g = { gal s.hw g with post := (gal s.hw g).post.map (fun p =>
            if p.id = id then { p with arrived := true, status := if r.2 then 0x20 else 0 } else p) }) ∧
  (∀ (g id : Nat) (p : Post) (s : State), g < 96 → (gal s.hw g).post.find? (fun p => p.id = id && p.arrived) = some p →
    let th : Thr := { g, t := p.thr }; let T := thread s.hw th
    (T.st = .ready → Yields (exec (.postedOpComplete g id) s) s fun h' =>
      (gal h' g).post = (gal s.hw g).post.filter (fun q => q.id ≠ id) ∧
        thread h' th = { T with failure := if p.status = 0 then T.failure else T.failure.or (some p.status) }) ∧
    (∀ d, T.st = .blocked (.fence d none) → (gal s.hw g).post.any (fun q => q.thr = p.thr && q.id ≠ id) = false →
      Yields (exec (.postedOpComplete g id) s) s fun h' =>
        (gal h' g).post = (gal s.hw g).post.filter (fun q => q.id ≠ id) ∧
        thread h' th = { T.setS d (stWord [((if p.status = 0 then T.failure else T.failure.or (some p.status)).getD 0, 0)]) with
            st := .ready
            failure := none
            notBefore := (gal s.hw g).cycle + 1 })) ∧
  (∀ (c : Nat) (r : DramReq) (s : State), c < 64 → (chan s.hw c).state = 0 → nextReq (chan s.hw c) = some r →
    let served := modChan c (fun x => { x with queue := x.queue.erase r }) s.hw
    exec (.dramRequestServe c 0) s = .next { s with hw := served } ∧
    (r.write = true → ∀ ecc, exec (.dramRequestServe c ecc) s = .next { s with hw := served }) ∧
    (r.write = false → r.key ≠ 0 → Yields (exec (.dramRequestServe c 2) s) s fun h' => r.word ∈ (objMem h' r.key).bad)) ∧
  ∀ (c : Nat) (r : DramReq) (s : State), c < 64 →
    (chan s.hw c).queue.find? (fun r => decide (200 ≤ now s.hw - r.since) && r.cls != 0) = some r →
      exec (.dramRequestAgeExpiry c) s =
        .next { s with hw := modChan c (fun x => { x with queue := { r with cls := 0 } :: x.queue.erase r }) s.hw }

/-- SEMA takes a free semaphore (reporting SEM_ABANDONED once after a teardown), is refused to its owner, reports BUSY with try,
and else waits in the semaphore's queue by class and order. SEMR by the owner frees it or passes it to the head of the queue,
whose waiting thread goes on with the status; by another it is refused. FENCE reports and consumes the thread's first failure, or
waits while posts are outstanding. BAR does the same and then waits at its barrier (a fabric barrier's last arrival is sent to the
root); when every live thread of the scope has arrived each goes on with the status of its fence. HALT waits for LDAs, posts and
scans and then, in the order of R138, retires the tickets, releases the semaphores and leaves the thread HALTED with an empty
inbox. In part this rests on the model's own choices: log 3, log 4, log 41, log 83. (R103, R138, R149, R150, R151, R152, R153,
R154, R155) -/
def Obligations.SemaphoresAndBarriers : Prop :=
  ∀ (th : Thr) (f : Fields) (c n : Nat) (s : State), let T := thread s.hw th; let y := (gal s.hw th.g).cycle; let S := semOf s.hw (c / 4) n
    let status := fun (T : Thread) (v : Nat) => T.setS f.d (stWord [(v, 0)])
    (Carried .sema th f c s.hw → f.b = 0 → f.low29 = 0 → f.mod.toNat ≤ 1 → (T.sreg f.a).toNat = n → n < (ctx s.hw c).sems →
      (S.owner = none → Yields (exec (.sema th f) s) s fun h' =>
        h' = { s.hw with gal := h'.gal, part := h'.part } ∧ (∀ u, u ≠ th → thread h' u = thread s.hw u) ∧
          semOf h' (c / 4) n = { S with owner := some (th.g, th.t), abandoned := false } ∧
          thread h' th = (status T (if S.abandoned then 0x95 else 0)).stepped y 1) ∧
      (S.owner = some (th.g, th.t) → Leaves (exec (.sema th f) s) s th ((status T 0x12).stepped y 1)) ∧
      (∀ o, S.owner = some o → o ≠ (th.g, th.t) → f.mod = 1 → Leaves (exec (.sema th f) s) s th ((status T 0x13).stepped y 1)) ∧
      (∀ o, S.owner = some o → o ≠ (th.g, th.t) → f.mod = 0 → Yields (exec (.sema th f) s) s fun h' =>
        h' = { s.hw with gal := h'.gal, part := h'.part } ∧ (∀ u, u ≠ th → thread h' u = thread s.hw u) ∧
          semOf h' (c / 4) n = { S with queue := queueWaiter (th.g, th.t, thrClass s.hw c th.g) S.queue } ∧
          thread h' th = T.waits y (.sem n f.d))) ∧
    (Carried .semr th f c s.hw → f.b = 0 → f.low29 = 0 → f.mod = 0 → (T.sreg f.a).toNat = n → n < (ctx s.hw c).sems →
      (S.owner ≠ some (th.g, th.t) → Leaves (exec (.semr th f) s) s th ((status T 0x12).stepped y 1)) ∧
      (S.owner = some (th.g, th.t) → S.queue = [] → Yields (exec (.semr th f) s) s fun h' =>
        semOf h' (c / 4) n = { S with owner := none } ∧ thread h' th = (status T 0).stepped y 1 ∧ ∀ u, u ≠ th → thread h' u = thread s.hw u) ∧
      (∀ g t k r d, S.owner = some (th.g, th.t) → S.queue = (g, t, k) :: r → (thread s.hw { g, t }).st = .blocked (.sem n d) → ({ g, t } : Thr) ≠ th →
        Yields (exec (.semr th f) s) s fun h' =>
          semOf h' (c / 4) n = { owner := some (g, t), queue := r, abandoned := false } ∧ thread h' th = (status T 0).stepped y 1 ∧
          thread h' { g, t } = ((thread s.hw { g, t }).setS d (stWord [(if S.abandoned then 0x95 else 0, 0)])).woken (gal s.hw g).cycle)) ∧
    (Carried .fence th f c s.hw → f.mod = 0 → f.a = 0 → f.b = 0 → f.low29 = 0 →
      (hasPosts s.hw th = false →
        Leaves (exec (.fence th f) s) s th ({ status T (T.failure.getD 0) with failure := none }.stepped y 1)) ∧
      (hasPosts s.hw th = true → Leaves (exec (.fence th f) s) s th (T.waits y (.fence f.d none)))) ∧
    (Carried .bar th f c s.hw → f.mod.toNat ≤ 2 → f.a = 0 → f.imm34.toNat = n → n < 16 →
      (hasPosts s.hw th = true → Leaves (exec (.bar th f) s) s th (T.waits y (.fence f.d (some (f.mod.toNat, n))))) ∧
      (hasPosts s.hw th = false → f.mod.toNat ≠ 2 →
        Leaves (exec (.bar th f) s) s th ({ T with failure := none }.waits y (.barrier f.mod.toNat n f.d (T.failure.getD 0)))) ∧
      (hasPosts s.hw th = false → f.mod = 2 →
        let h1 := modThr (modGal s.hw th.g (fun G => { G with latch := none })) th (fun T => { T with failure := none })
        let h2 := modThr h1 th (fun T' => T'.waits y (.barrier 2 n f.d (T.failure.getD 0)))
        exec (.bar th f) s = .next { s with hw := memberArrive c n h2 })) ∧
    (∀ (scope g : Nat) (u : Thr) (d x : Nat), c < 32 → g < 96 → scope < 2 →
      let ths := (liveThreads s.hw c).filter (fun th => scope = 1 || th.g = g)
      u ∈ ths → (∀ v ∈ ths, arrivedAt s.hw scope n v = true) → (thread s.hw u).st = .blocked (.barrier scope n d x) →
        Yields (exec (.barrierComplete c scope n g) s) s fun h' =>
          thread h' u = ((thread s.hw u).setS d (stWord [(x, 0)])).woken (gal s.hw u.g).cycle) ∧
    (Carried .halt th f c s.hw → f.mod = 0 → f.body = 0 →
      let h1 := modThr (modGal s.hw th.g (fun G => { G with latch := none })) th (fun T => T.waits y .halt)
      (T.lda.any (fun l => l.done.isNone) || hasPosts s.hw th || !scansEnded s.hw th) = true →
        exec (.halt th f) s = .next { s with hw := h1 }) ∧
    (Carried .halt th f c s.hw → f.mod = 0 → f.body = 0 →
      (T.lda.any (fun l => l.done.isNone) || hasPosts s.hw th || !scansEnded s.hw th) = false →
        let h1 := modThr (modGal s.hw th.g (fun G => { G with latch := none })) th (fun T => T.waits y .halt)
        let h1' := { h1 with probe := { h1.probe with scans := h1.probe.scans.filter (fun s => s.th ≠ th) } }
        let h2 := T.lda.foldl (fun h l => retireLda th c l false h) h1'
        let h3 := releaseOwned (c / 4) (fun o => o == (th.g, th.t)) false h2
        let h4 := modThr h3 th (fun T => { T with st := .halted, lda := [], failure := none, inbox := [] })
        let h5 := (List.range 16).foldl (fun h n => memberArrive c n h) (releaseSenders th h4)
        exec (.halt th f) s = .next { s with hw := tryEnd c h5 })

/-- A local SEND occupies a slot of the posted operations. To a thread that never started or has halted it delivers nothing and
NOT_PERMITTED waits for the FENCE; to an inbox with room it is delivered, so that a thread blocked in RECV goes on with it and any
other finds it at the end of its inbox; to a full inbox the sender is BLOCKED until the delivery, which then wakes it. A source
with an uncorrectable word sends nothing and reports MEDIA_UNCORRECTABLE. A remote SEND becomes a MAIL packet, or its thread waits
for a slot or a credit. RECV stores the oldest message's first bytes, up to its limit, and reports its length, its sender and
MESSAGE_TRUNCATED; on an empty inbox it waits, or answers BUSY with try. Nothing else changes. In part this rests on the model's
own choices: log 3, log 4, log 27, log 78. (R103, R156, R157, R158, R159, R355, R356, R512) -/
def Obligations.Messages : Prop :=
  ∀ (th : Thr) (f : Fields) (c off : Nat) (o : Obj) (s : State), let T := thread s.hw th; let n := f.low29.toNat; let w := (T.sreg f.d).toNat
    let H := unlatch th s.hw; let m := objMem s.hw (objKey c o th.g); let data := m.readLE off n
    (Carried .send th f c s.hw → f.mod = 0 → f.psm = 0 → f.rm = 0 → 8 ≤ n → n ≤ 256 → n % 8 = 0 → sendRsvOk w = true →
      checkAccess (ctx s.hw c) (T.sreg f.a) n .r [0] 8 = .ok o off →
      (∀ g, w < 2 ^ 63 → (partGals s.hw (c / 4))[w / 256 % 128]? = some g → w % 64 < (ctx s.hw c).threads →
        let tg : Thr := { g, t := (ctx s.hw c).first + w % 64 }
        let msg : Msg := { len := n, data, remote := false, sg := logicalOf s.hw (c / 4) th.g, st := th.t - (ctx s.hw c).first, srcModule := 0 }
        let st := (thread s.hw tg).st
        (64 ≤ (gal s.hw th.g).post.length → Reissues (exec (.send th f) s) s th .postSlot) ∧
        ((gal s.hw th.g).post.length < 64 → m.isBad 0 off n = false →
          (st = .free ∨ st = .halted → Goes (exec (.send th f) s) s th 1 (withPost th (.send tg.g tg.t msg) true 0x12 H)) ∧
          (st ≠ .free → st ≠ .halted → (thread s.hw tg).inbox.length < 4 →
            Goes (exec (.send th f) s) s th 1 (deliver tg msg (withPost th (.send tg.g tg.t msg) true 0 H))) ∧
          (st ≠ .free → st ≠ .halted → 4 ≤ (thread s.hw tg).inbox.length →
            Blocks (exec (.send th f) s) s th (.inboxFull (gal s.hw th.g).postNext) (withPost th (.send tg.g tg.t msg) false 0 H)))) ∧
      ((gal s.hw th.g).post.length < 64 → (w < 2 ^ 63 → w / 256 % 128 < (partGals s.hw (c / 4)).length ∧ w % 64 < (ctx s.hw c).threads) →
        m.isBad 0 off n = true → ∃ k, Goes (exec (.send th f) s) s th 1 (withPost th k true 0x20 H)) ∧
      (2 ^ 63 ≤ w → (gal s.hw th.g).post.length < 64 → m.isBad 0 off n = false →
        let r := issueReq c (.mail th (gal s.hw th.g).postNext) (w / 2 ^ 32 % 2 ^ 14) 0x03 (8 + n) (w % 256 + data * 256 ^ 8) H
        (∀ h1 tag, r = .sent h1 tag → Goes (exec (.send th f) s) s th 1 (holdMail th (w / 2 ^ 32 % 2 ^ 14) tag (withPost th (.remote tag) false 0 h1))) ∧
        (r = .noCredit → Reissues (exec (.send th f) s) s th .credit) ∧
        (r = .unreachable → Goes (exec (.send th f) s) s th 1 (withPost th (.remote 0) true 0x92 H)))) ∧
    (Carried .recv th f c s.hw → f.mod.toNat ≤ 1 → f.psm = 0 → f.rm = 0 → n ≤ 511 →
      checkAccess (ctx s.hw c) (T.sreg f.a) n .w [0] 8 = .ok o off →
      (T.inbox = [] → f.mod = 1 → Goes (exec (.recv th f) s) s th 1 (withS th f.d 0x13 H)) ∧
      (T.inbox = [] → f.mod = 0 → Blocks (exec (.recv th f) s) s th (.recv (T.sreg f.a) n f.d) H) ∧
      (∀ msg r, T.inbox = msg :: r →
        let st := storeObj c th.g (T.sreg f.a) (bytesAt (addrOff (T.sreg f.a)) (min msg.len n) msg.data) (modThr H th (fun T => { T with inbox := r }))
        let code := if n < msg.len then 0x94 else 0
        let word := if msg.remote then stWord [(code, 0), (msg.len, 8), (1, 17), (msg.srcModule, 48)]
          else stWord [(code, 0), (msg.len, 8), (msg.sg, 32), (msg.st, 40)]
        Goes (exec (.recv th f) s) s th 1 (withS th f.d word (if st.2 then noteFailure th 0x20 st.1 else st.1)))) ∧
    (∀ (g id : Nat) (p : Post) (tg : Thr) (msg : Msg), g < 96 → (gal s.hw g).post.find? (fun p => p.id = id && !p.arrived) = some p →
      p.kind = .send tg.g tg.t msg → (thread s.hw tg).inbox.length < 4 →
      let h1 := arrivePost g id 0 (deliver tg msg s.hw)
      (thread h1 { g, t := p.thr }).st = .blocked (.inboxFull id) →
        exec (.inboxDelivery g id) s = .next { s with hw := wake { g, t := p.thr } (fun T => T) h1 }) ∧
    (∀ (u : Thr) (msg : Msg) (h : Hw), (∀ a l d, (thread h u).st ≠ .blocked (.recv a l d)) →
      deliver u msg h = modThr h u (fun T => { T with inbox := T.inbox ++ [msg] }))

/-- In a context with a page pool PGALLOC takes the lowest page of the free set and answers OK and its number in bits from 8, or
POOL_EMPTY; PGFREE puts a page into the pending set, or answers PAGE_NOT_HELD for a page that does not exist or is in one of the
two sets; STEPEND moves the pending set into the free set and answers their number. GEOM answers the geometry item that IMM34 or
bits 7 to 0 of s[A] name, 0 for an item the table does not name. Nothing else changes. In part this rests on the model's own
choices: log 4. (R111, R112, R126, R160, R161, R162) -/
def Obligations.PagePool : Prop :=
  ∀ (th : Thr) (f : Fields) (c : Nat) (s : State), let T := thread s.hw th; let H := unlatch th s.hw; let x := ctx s.hw c
    (Carried .pgalloc th f c s.hw → f.mod = 0 → f.a = 0 → f.b = 0 → f.low29 = 0 → x.poolPages ≠ 0 →
      (x.poolFree = [] → Goes (exec (.pgalloc th f) s) s th 1 (withS th f.d 0x90 H)) ∧
      (∀ k r, x.poolFree = k :: r → Goes (exec (.pgalloc th f) s) s th 1
        (withS th f.d (stWord [(0, 0), (k, 8)]) (modCtx H c (fun x => { x with poolFree := r }))))) ∧
    (Carried .pgfree th f c s.hw → f.mod = 0 → f.b = 0 → f.low29 = 0 → x.poolPages ≠ 0 → let k := (T.sreg f.a).toNat
      (x.poolPages ≤ k ∨ k ∈ x.poolFree ∨ k ∈ x.poolPend → Goes (exec (.pgfree th f) s) s th 1 (withS th f.d 0x91 H)) ∧
      (k < x.poolPages → k ∉ x.poolFree → k ∉ x.poolPend → Goes (exec (.pgfree th f) s) s th 1
        (withS th f.d 0 (modCtx H c (fun x => { x with poolPend := insNat k x.poolPend }))))) ∧
    (Carried .stepend th f c s.hw → f.mod = 0 → f.a = 0 → f.b = 0 → f.low29 = 0 → x.poolPages ≠ 0 →
      let all := x.poolPend.foldl (fun l k => insNat k l) x.poolFree
      Goes (exec (.stepend th f) s) s th 1
        (withS th f.d (stWord [(0, 0), (x.poolFree.length + x.poolPend.length, 8)]) (modCtx H c (fun x => { x with poolFree := all, poolPend := [] })))) ∧
    (∀ k, Carried .geom th f c s.hw → (f.mod = 0 ∧ f.a = 0 ∧ f.imm34.toNat = k ∧ k < 256 ∨ f.mod = 1 ∧ f.imm34 = 0 ∧ (T.sreg f.a).toNat % 256 = k) →
      let gs := partGals s.hw (c / 4); let lg := logicalOf s.hw (c / 4) th.g
      let items := [0x10000, 256, cols s.hw th.g, gs.foldl (fun n g => min n (cols s.hw g)) 128, 128, 32, 32, gs.length, lg, gs.length / 8,
        lg / 8, 8, x.threads, th.t - x.first, x.bayBytes, x.atrBytes, 4, 128, c / 4, c % 4, s.hw.ffu.id]
      Goes (exec (.geom th f) s) s th 1 (withS th f.d (BitVec.ofNat 64 (items.getD k 0)) H))

/-- An LDA whose checks pass takes the next ticket of its thread, puts it into s[D] and into the thread's outstanding LDAs, and
makes its destination undefined until the ticket is returned; a source in DRAM asks its channels, one in a volume asks for its
units, one in another module sends READ (it waits for a credit; an unreachable module completes it at once). At 4 of the thread or
128 of the gallery it waits for one to end. LDA_COMPLETE records the source's bytes and OK, or MEDIA_UNCORRECTABLE. WAITA answers
INVALID_FIELD for a ticket not outstanding, the status of one complete (whose bytes are stored and which is gone), and else waits,
or answers BUSY with try. PREF asks for the unit of the volume that covers its byte, and never faults. Nothing else changes. In
part this rests on the model's own choices: log 3, log 4, log 27, log 38, log 41, log 84, log 111. (R97, R98, R99, R100, R101,
R143, R145, R146, R147, R148, R355) -/
def Obligations.AsynchronousLoads : Prop :=
  ∀ (th : Thr) (f : Fields) (c n off off' : Nat) (o o' : Obj) (s : State), let T := thread s.hw th; let H := unlatch th s.hw
    let src := T.sreg f.b; let dst := T.sreg f.a; let start := startLda th c src dst n T.ldaSeq f.d
    let full := 4 ≤ (T.lda.filter (fun l => l.done.isNone)).length ∨ 128 ≤ galLdas s.hw th.g
    (Carried .lda th f c s.hw → (f.mod = 1 ∧ f.low29 = 0 ∧ (T.sreg f.d).toNat = n ∨ f.mod = 0 ∧ f.low29.toNat < 2 ^ 14 ∧ n = 4 * f.low29.toNat + 4) →
      4 ≤ n → n ≤ 65536 → n % 4 = 0 → checkAccess (ctx s.hw c) dst n .w [0] 4 = .ok o' off' →
      checkAccess (ctx s.hw c) src n .r [0, 1, 2, 3, 4] 4 = .ok o off →
      (full → Reissues (exec (.lda th f) s) s th .ldaSlot) ∧
      (¬full → o.tier < 3 → Goes (exec (.lda th f) s) s th 1 (start none (dramAccess c th.g o off n 3 false none H))) ∧
      (¬full → o.tier = 3 → Goes (exec (.lda th f) s) s th 1
        (volumeReads o.bindId (o.bindOff + off / 4096) ((off % 4096 + n + 4095) / 4096) (fun i => .lda th T.ldaSeq i) (start none H))) ∧
      (¬full → o.tier = 4 →
        (∀ h1 tag, issueReq c (.load th T.ldaSeq) (o.bindId % 2 ^ 14) 0x01 16 (o.bindOff + off + n * 256 ^ 8) H = .sent h1 tag →
          Goes (exec (.lda th f) s) s th 1 (start none h1)) ∧
        (issueReq c (.load th T.ldaSeq) (o.bindId % 2 ^ 14) 0x01 16 (o.bindOff + off + n * 256 ^ 8) H = .noCredit → Reissues (exec (.lda th f) s) s th .credit) ∧
        (issueReq c (.load th T.ldaSeq) (o.bindId % 2 ^ 14) 0x01 16 (o.bindOff + off + n * 256 ^ 8) H = .unreachable →
          Goes (exec (.lda th f) s) s th 1 (start (some 0x92) H)))) ∧
    (∀ q d done h, thread (startLda th c src dst n q d done h) th =
      { (thread h th).setS d (BitVec.ofNat 64 (2 ^ 17 + q)) with
        lda := (thread h th).lda ++ [{ seq := q, src, dst, size := n, done }], ldaSeq := (q + 1) % 65536 }) ∧
    (Carried .waita th f c s.hw → f.mod.toNat ≤ 1 → f.b = 0 → f.low29 = 0 → let l? := T.lda.find? (fun l => BitVec.ofNat 64 (2 ^ 17 + l.seq) == dst)
      (l? = none → Goes (exec (.waita th f) s) s th 1 (withS th f.d 0x11 H)) ∧
      (∀ l st, l? = some l → l.done = some st → Goes (exec (.waita th f) s) s th 1 (withS th f.d (stWord [(st, 0)]) (retireLda th c l true H))) ∧
      (∀ l, l? = some l → l.done = none → f.mod = 1 → Goes (exec (.waita th f) s) s th 1 (withS th f.d 0x13 H)) ∧
      (∀ l, l? = some l → l.done = none → f.mod = 0 → Blocks (exec (.waita th f) s) s th (.ticket l.seq f.d) H)) ∧
    (∀ (q : Nat) (l : Lda), th.g < 96 → th.t < 64 → T.lda.find? (fun l => l.seq = q && l.done.isNone) = some l → thrCtx s.hw th = some c →
      (ctx s.hw c).objs.find? (fun o => o.handle = addrHandle l.src) = some o → let a := addrOff l.src; let m := objMem s.hw (objKey c o th.g)
      let units := (a % 4096 + l.size + 4095) / 4096
      let got := (List.range units).foldr (fun i a => tgetD l.units i 0 + 256 ^ 4096 * a) 0 / 256 ^ (a % 4096) % 256 ^ l.size
      (o.tier < 3 → m.isBad o.tier a l.size = false → exec (.ldaComplete th q) s = .next { s with hw := finishLda th q 0 (m.readLE a l.size) s.hw }) ∧
      (o.tier < 3 → m.isBad o.tier a l.size = true → exec (.ldaComplete th q) s = .next { s with hw := finishLda th q 0x20 0 s.hw }) ∧
      (o.tier = 3 → (∀ i < units, (tget l.units i).isSome) → l.bad = true → exec (.ldaComplete th q) s = .next { s with hw := finishLda th q 0x20 0 s.hw }) ∧
      (o.tier = 3 → (∀ i < units, (tget l.units i).isSome) → l.bad = false → exec (.ldaComplete th q) s = .next { s with hw := finishLda th q 0 got s.hw })) ∧
    (Carried .pref th f c s.hw →
      (∀ z sb pg u, f.mod = 0 → f.d = 0 → f.psm = 0 → f.rm = 0 → addOff (T.sreg f.a) f.off29 = some dst →
        checkAccess (ctx s.hw c) dst 1 .r [0, 1, 2, 3, 4] 1 = .ok o off → o.tier = 3 → let lba := o.bindOff + off / 4096
        unitEnt s.hw.mdm.map o.bindId lba = .located z sb pg u →
        (pageCopies s.hw.mdm.map sb pg).any (fun x => (landing s.hw (x.1 / 32)).prefEn) = true → bufFind s.hw o.bindId lba = none →
        Goes (exec (.pref th f) s) s th 1 (readEnt (.located z sb pg u) [u] 1 (.pref o.bindId lba) H)) ∧
      (f.mod ≠ 0 ∨ f.d ≠ 0 ∨ f.psm ≠ 0 ∨ f.rm ≠ 0 ∨ addOff (T.sreg f.a) f.off29 = none → Goes (exec (.pref th f) s) s th 1 H) ∧
      ∃ h1, Goes (exec (.pref th f) s) s th 1 h1)

/-- An ST to an object of another module and a RADD, when their checks pass, take a posted-operation slot and send WRITE or ADD
with the address in the owning module, the mask, the length or the kind of add, and the data. With no slot or no credit the thread
waits and issues again; a module that cannot be reached leaves REMOTE_UNREACHABLE for the next FENCE. Nothing else changes. In
part this rests on the model's own choices: log 4, log 27, log 79, log 80. (R119, R141, R143, R159, R506, R508) -/
def Obligations.RemoteStoresAndAdds : Prop :=
  ∀ (th : Thr) (f : Fields) (c : Nat) (s : State), let T := thread s.hw th; let H := unlatch th s.hw
    let posts := fun (o : Host.Outcome State Fault Refusal) (ob : Obj) (ty len body : Nat) =>
      let r := issueReq c (.post th.g (gal s.hw th.g).postNext) (ob.bindId % 2 ^ 14) ty len body H
      (64 ≤ (gal s.hw th.g).post.length → Reissues o s th .postSlot) ∧
      ((gal s.hw th.g).post.length < 64 →
        (∀ h1 tag, r = .sent h1 tag → Goes o s th 1 (withPost th (.remote tag) false 0 h1)) ∧
        (r = .noCredit → Reissues o s th .credit) ∧
        (r = .unreachable → Goes o s th 1 (withPost th (.remote 0) true 0x92 H)))
    (∀ n al off o a, Carried .st th f c s.hw → memForm f.mod = some (n, al) → f.rm = 0 → (f.m 3 = true → f.d < 16) →
      (f.m 3 = false → f.m 2 = false ∧ f.psm = 0) → addOff (T.sreg f.a) f.off29 = some a →
      checkAccess (ctx s.hw c) a n .w [0, 1, 2, 4] al = .ok o off → o.tier = 4 →
      let mask := if f.m 3 then (T.preg f.psm).toNat else 2 ^ 128 - 1
      let data := if f.m 3 then vecData (f.mod.toNat % 8) (T.vreg f.d) else (T.sreg f.d).toNat % 256 ^ n
      posts (exec (.st th f) s) o 0x02 (32 + n) (o.bindOff + off + n * 256 ^ 8 + mask * 256 ^ 16 + data * 256 ^ 32)) ∧
    (∀ a o off adds, Carried .radd th f c s.hw → addOperands th f c [4] s.hw = .ok (a, o, off, adds) →
      let n := if f.m 0 then 512 else 4
      let mask := if f.m 0 then (T.preg f.psm).toNat else 2 ^ 128 - 1
      let data := if f.m 0 then (T.vreg f.d).toNat else (T.sreg f.d).toNat % 2 ^ 32
      posts (exec (.radd th f) s) o 0x10 (32 + n) (o.bindOff + off + bit (f.m 1) * 256 ^ 8 + mask * 256 ^ 16 + data * 256 ^ 32))

/-- A PTAB whose table head and operand checks pass writes the distance table of R293 and R294 to the object that s[C] addresses
and answers OK, the NaN bit and the table's bytes; an uncorrectable word of an input ends it with MEDIA_UNCORRECTABLE. A GWALK
whose request, descriptor and operand checks pass gives the Probe Engine its walk and its thread waits; the walk's end writes its
records in ascending distance (R309, R310) and wakes the thread with their number, the stale edges met and whether there were
fewer than asked for, or with MEDIA_UNCORRECTABLE. In part this rests on the model's own choices: log 3, log 4, log 40, log 103,
log 104, log 105. (R195, R292, R293, R294, R308, R309, R310, R198, R355) -/
def Obligations.DistanceTables : Prop :=
  ∀ (th : Thr) (f : Fields) (c : Nat) (s : State), let T := thread s.hw th; let H := unlatch th s.hw; let x := ctx s.hw c; let g := th.g
    let q := T.sreg f.a; let hd := T.sreg f.b; let out := T.sreg f.c
    (∀ metric dim m bits tf qf list cb cen v o off, Carried .ptab th f c s.hw → f.mod = 0 → f.e = 0 → f.psx = 0 → f.fn = 0 → f.rx = 0 → f.f1 = 0 → f.f2 = 0 →
      checkAccess x hd 64 .r [0, 1, 2] 1 = .ok o off → (readAt s.hw c g hd 64).1 = v →
      [fldOf v 0 8, fldOf v 8 8, fldOf v 16 2, fldOf v 18 1, fldOf v 19 1, fldOf v 20 1, fldOf v 21 1, fldOf v 22 1, fldOf v 24 4] =
        [cb, cen, dim, m, bits, tf, metric, qf, list] → fldOf v 23 1 = 0 → fldOf v 28 36 = 0 → 8 ≤ dim → dim ≤ 4096 → 8 ≤ m → m ≤ 128 → dim % m = 0 →
      (bits = 4 ∨ bits = 8) → tf ≤ 1 → metric ≤ 1 → qf ≤ 1 → (cen = 0 ↔ list = 0xFFFFFFFF) →
      let n := 16 + m * 2 ^ bits * (tf + 1); let qn := dim * (4 - 2 * qf); let cn := 2 ^ bits * dim * 2
      let cbA := BitVec.ofNat 64 cb; let cenA := BitVec.ofNat 64 cen
      (checkAccess x q qn .r [0, 1, 2] 1).cause? = none → (checkAccess x cbA cn .r [1, 2] 1).cause? = none →
      (cen ≠ 0 → (checkAccess x cenA (2 * dim) .r [0, 1, 2] 1).cause? = none) → (checkAccess x out n .w [0, 1, 2] 1).cause? = none →
      let bad := (readAt s.hw c g hd 64).2 || (readAt s.hw c g q qn).2 || (readAt s.hw c g cbA cn).2 || (cen ≠ 0 && (readAt s.hw c g cenA (2 * dim)).2)
      let t := buildTable s.hw.free metric m bits (tf = 1) list (vecOf (qf = 1) (readAt s.hw c g q qn).1 dim) (vecOf true (readAt s.hw c g cbA cn).1 (2 ^ bits * dim))
        (if cen = 0 then none else some (vecOf true (readAt s.hw c g cenA (2 * dim)).1 dim))
      let w := storeObj c g out (bytesAt (addrOff out) n t.1) { H with free := H.free + m * 2 ^ bits + 1 }
      (bad = true → Goes (exec (.ptab th f) s) s th 1 (withS th f.d 0x20 H)) ∧
      (bad = false → Goes (exec (.ptab th f) s) s th 1
        (withS th f.d (stWord [(0, 0), (bit t.2, 8), (n, 32)]) (if w.2 then noteFailure th 0x20 w.1 else w.1)))) ∧
    (∀ ef k fl o off o' off' d v, Carried .gwalk th f c s.hw → f.mod = 0 → f.e = 0 → f.psx = 0 → f.fn = 0 → f.rx = 0 → f.f1 = 0 → f.f2 = 0 →
      checkAccess x hd 32 .r [0, 1, 2] 1 = .ok o off → (readAt s.hw c g hd 32).1 = v →
      [fldOf v 8 2, fldOf v 10 2, fldOf v 12 1] = [ef, k, fl] → fldOf v 13 3 = 0 → fldOf v 20 12 = 0 → ef ≤ 1024 → 1 ≤ k → k ≤ ef → fl ≤ 3 →
      let st := BitVec.ofNat 64 (fldOf v 0 8)
      checkAccess x st 64 .r [2] 1 = .ok o' off' → stairOf (readAt s.hw c g st 64).1 = some d →
      (checkAccess x (mkAddr (addrHandle st) (addrOff st + d.off)) (d.slots * d.nodeBytes) .r [2] 1).cause? = none →
      (checkAccess x q (d.dim * (if fl.testBit 1 then 2 else 4)) .r [0, 1, 2] 1).cause? = none → (checkAccess x out (16 * k) .w [0, 1, 2] 1).cause? = none →
      Blocks (exec (.gwalk th f) s) s th .walk
        { H with probe := { H.probe with walks := H.probe.walks ++ [{ ctx := c, th, query := q, req := v, out, d := f.d }] } }) ∧
    (∀ w d, th.g < 96 → th.t < 64 → s.hw.probe.walks.find? (fun w => w.th == th) = some w →
      let h := { s.hw with probe := { s.hw.probe with walks := s.hw.probe.walks.erase w } }
      let st := BitVec.ofNat 64 (fldOf w.req 0 8); let fl := fldOf w.req 12 1; let k := fldOf w.req 10 2
      stairOf (readAt h w.ctx g st 64).1 = some d →
      let qr := readAt h w.ctx g w.query (d.dim * (if fl.testBit 1 then 2 else 4))
      let r := walkRun h w.ctx g st d (vecOf (fl.testBit 1) qr.1 d.dim) (fldOf w.req 8 2) k (fldOf w.req 16 4) (fl.testBit 0)
      let ws := (List.range r.1.length).zip r.1 |>.flatMap (fun (p : Nat × SelRec) => bytesAt (addrOff w.out + 16 * p.1) 16 p.2.raw)
      let o := storeObj w.ctx g w.out ws { h with free := h.free + d.slots + 1 }
      let word := stWord [(0, 0), (bit (decide (r.1.length < k)), 8), (if fl.testBit 0 then 0 else min r.2.stale 0xFFFF, 16), (r.1.length, 32)]
      ((qr.2 || r.2.bad) = false → exec (.walkComplete th) s =
        .next { s with hw := wake th (fun T => T.setS w.d word) (if o.2 then noteFailure th 0x20 o.1 else o.1) }) ∧
      ((qr.2 || r.2.bad) = true → ∃ h1, exec (.walkComplete th) s = .next { s with hw := wake th (fun T => T.setS w.d 0x20) h1 }))

/-- TDESC copies a 64-bit word between a scalar and a tile register. TOPEN with formats of the pair table opens the group when the
array is free, no thread waits for it and its context runs, recording what an abandonment restores, zeroing the accumulators and
adopting a committed bank; else its thread waits for the lease. In an open group TLOAD, TSWAP, TSTREAM, TSTREAMT and TDRAIN, their
descriptor checks passed, put an entry at the end of the array queue of three and advance the descriptor; a shadow load asks for
its grains once; TDRAIN's thread waits for the drain. With the queue full the thread issues again. Nothing else changes. In part
this rests on the model's own choices: log 3, log 4, log 25, log 27. (R105, R108, R165, R169, R170, R171, R172, R173, R174, R175,
R176, R178) -/
def Obligations.TileInstructions : Prop :=
  ∀ (th : Thr) (f : Fields) (c q : Nat) (s : State), let T := thread s.hw th; let H := unlatch th s.hw; let x := ctx s.hw c; let G := gal s.hw th.g
    let adv := fun (t : BitVec 256) => modThr H th (fun T => T.setT f.a t)
    let low0 := f.rx = 0 ∧ f.c = 0 ∧ f.e = 0 ∧ f.psx = 0 ∧ f.fn = 0 ∧ f.f1 = 0 ∧ f.f2 = 0
    (Carried .tdesc th f c s.hw → f.b = 0 → low0 → q < 4 →
      (f.mod.toNat = 4 + q → f.a < 8 → Goes (exec (.tdesc th f) s) s th 1 (withS th f.d ((T.treg f.a).extractLsb' (64 * q) 64) H)) ∧
      (f.mod.toNat = q → f.d < 8 → ∃ t, Goes (exec (.tdesc th f) s) s th 1 (modThr H th (fun T => T.setT f.d t)) ∧
        ∀ i < 4, t.extractLsb' (64 * i) 64 = if i = q then T.sreg f.a else (T.treg f.d).extractLsb' (64 * i) 64)) ∧
    (∀ wf sf, Carried .topen th f c s.hw → f.mod = 0 → f.d = 0 → f.a = 0 → f.b = 0 → f.rx = 0 → f.c = 0 → f.e = 0 → f.psx = 0 → f.fn = 0 →
      fmtOf f.f1 = some wf → fmtOf f.f2 = some sf → pairOk wf sf = true →
      let free := mayOpen s.hw c && G.group.isNone && G.leaseWait.isEmpty
      (free = true → Goes (exec (.topen th f) s) s th 1 (openGroup th c f.f1 f.f2 T.pc H)) ∧
      (free = false → Blocks (exec (.topen th f) s) s th (.lease f.f1 f.f2) (modGal H th.g (fun G => { G with leaseWait := G.leaseWait ++ [th.t] })))) ∧
    (∀ t nxt, Carried .tload th f c s.hw → f.m 3 = false → f.d = 0 → f.a < 8 → (f.m 2 = true → f.b < 16) → (f.m 2 = false → f.b = 0) → low0 →
      tileOperand (T.treg f.a) (f.m 1) x .r [0] (fun t _ => t.fmt == (groupFmts s.hw th.g).2 && decide (t.major ≤ cols s.hw th.g) && decide (t.minor ≤ 256)) = .ok (t, nxt) →
      let ask := f.m 0 && !shadowMode s.hw th.g
      let h1 := if ask then grainRequest (.gallery th.g) 2 (adv nxt) else adv nxt
      let op : ArrOp := { kind := if f.m 0 then .loadShadow else .loadStall, desc := T.treg f.a
                          zps := if f.m 2 then some ((List.range 128).map (fun j => (lane (T.vreg f.b) j).toNat % 256)) else none }
      (G.queue.length < 3 → Goes (exec (.tload th f) s) s th 1 (pushOp th.g c op h1)) ∧
      (3 ≤ G.queue.length → Reissues (exec (.tload th f) s) s th .arrayFull)) ∧
    (Carried .tswap th f c s.hw → f.mod = 0 → f.body = 0 →
      (G.queue.length < 3 → Goes (exec (.tswap th f) s) s th 1 (pushOp th.g c { kind := .swap } H)) ∧
      (3 ≤ G.queue.length → Reissues (exec (.tswap th f) s) s th .arrayFull)) ∧
    (∀ tr t nxt, let o := if tr then IsaOp.tstreamt else .tstream; let out := if tr then exec (.tstreamt th f) s else exec (.tstream th f) s
      Carried o th f c s.hw → f.m 2 = false → f.m 3 = false → f.d = 0 → f.a < 8 → low0 →
      tileOperand (T.treg f.a) (f.m 1) x .r [0, 1, 2] (fun t k => t.fmt == (groupFmts s.hw th.g).1 && decide ((if tr then t.major else t.minor) ≤ 256)
        && decide ((T.sreg f.b).toNat + (if tr then t.minor else t.major) ≤ 2048)
        && (!tr || ((k = .int8 || k = .uint8 || k = .bf16) && (part s.hw (c / 4)).ovl.ty = 4))) = .ok (t, nxt) →
      (G.queue.length < 3 → Goes out s th 1
        (pushOp th.g c { kind := if tr then .streamT else .stream, desc := T.treg f.a, base := (T.sreg f.b).toNat, add := f.m 0 } (adv nxt))) ∧
      (3 ≤ G.queue.length → Reissues out s th .arrayFull)) ∧
    (∀ t nxt, Carried .tdrain th f c s.hw → f.m 2 = false → f.m 3 = false → f.a < 8 → (f.m 0 = false → f.c = 0) →
      f.rx = 0 ∧ f.e = 0 ∧ f.psx = 0 ∧ f.fn = 0 ∧ f.f1 = 0 ∧ f.f2 = 0 →
      tileOperand (T.treg f.a) (f.m 1) x .w [0, 1, 2] (fun t _ => decide (t.minor ≤ cols s.hw th.g) && decide ((T.sreg f.b).toNat + t.major ≤ 2048)) = .ok (t, nxt) →
      (f.m 0 = true → (checkAccess x (T.sreg f.c) (8 * t.major) .w [0, 1, 2] 4).cause? = none) →
      let h1 := modGal (adv nxt) th.g (fun G => { G with group := G.group.map (fun x => { x with drainIssued := true }) })
      let op : ArrOp := { kind := .drain, desc := T.treg f.a, base := (T.sreg f.b).toNat, mxs := if f.m 0 then some (T.sreg f.c) else none, d := f.d }
      (G.queue.length < 3 → Blocks (exec (.tdrain th f) s) s th (.drain f.d) (pushOp th.g c op h1)) ∧
      (3 ≤ G.queue.length → Reissues (exec (.tdrain th f) s) s th .arrayFull))

/-- The array's lease goes to the first waiting thread whose context may open a group: its group opens and it goes on. A stall
load at the head of the queue starts 3 cycles after the last row entered, for the active set; a shadow load with the shadow-mode
grant starts, and leaves the queue, when the last row that read the other set has left the multiply stage, and without the grant
as a stall load that takes 8 cycles more. A load that starts is recorded for a later reload. When its last line is due it writes
its set from the bay as it stands, gives the witness its column and advances it; a stall load frees its place in the queue. An
element that cannot be read stops the context. A drain at the head starts once no update is in the pipeline; its destination is
undefined from then on until it completes. In part this rests on the model's own choices: log 3, log 16, log 21, log 23, log 25,
log 27, log 73. (R89, R105, R174, R208, R209, R210, R211, R212, R219, R225, R236, R237) -/
def Obligations.StationarySets : Prop :=
  ∀ (g c : Nat) (s : State), g < 96 → let G := gal s.hw g
    (∀ t fw fs, G.group = none → G.leaseWait.find? (fun t => (thrCtx s.hw { g, t }).any (mayOpen s.hw)) = some t → thrCtx s.hw { g, t } = some c →
      (thread s.hw { g, t }).st = .blocked (.lease fw fs) →
      let h1 := modGal s.hw g (fun G => { G with leaseWait := G.leaseWait.filter (fun x => x != t) })
      Becomes (exec (.arrayLeaseGrant g) s) s (wake { g, t } id (openGroup { g, t } c fw fs ((thread s.hw { g, t }).pc - 8) h1))) ∧
    (∀ op gr, galRuns s.hw g = true → groupCtx s.hw g = some c → G.group = some gr → G.loader = none →
      let i := (G.queue.takeWhile (fun o => o.started)).length
      let runs := fun (set extra : Nat) => modGal s.hw g (fun G => recordLoad c set op { G with
        queue := G.queue.modify 0 (fun o => { o with started := true })
        loader := some { op, ctx := c, thr := gr.holder, set, since := G.cycle, extra, stall := true } })
      G.queue[i]? = some op →
      (op.kind = .loadStall → i = 0 → G.lastEntry + 3 ≤ G.cycle → Becomes (exec (.stationaryLoadStart g) s) s (runs G.active 0)) ∧
      (op.kind = .loadShadow → shadowMode s.hw g = false → i = 0 → G.lastEntry + 3 ≤ G.cycle →
        Becomes (exec (.stationaryLoadStart g) s) s (runs (1 - G.active) 8)) ∧
      (op.kind = .loadShadow → shadowMode s.hw g = true → tgetD G.lastRead (1 - G.active) 0 + 3 ≤ G.cycle →
        let h1 := modGal s.hw g (fun G' => recordLoad c (1 - G.active) op { G' with
          queue := G'.queue.eraseIdx i
          loader := some { op, ctx := c, thr := gr.holder, set := 1 - G.active, since := G'.cycle, extra := 0, stall := false } })
        Becomes (exec (.stationaryLoadStart g) s) s (wakeAgain g (fun w => w == .arrayFull) (startHead g c 4 h1)))) ∧
    (∀ L, galRuns s.hw g = true → G.loader = some L →
      L.since + L.extra + loadCycles (tileOf L.op.desc) ≤ G.cycle + 1 → let r : TloadRec := { desc := L.op.desc, zps := L.op.zps }
      (∀ st, loadSet s.hw L.ctx g r G.witCount = some st →
        let h1 := modGal s.hw g (fun G => setStat { G with loader := none, witCount := G.witCount + 1 } L.set st)
        Becomes (exec (.stationaryLoadDone g) s) s (if L.stall then popHead g L.ctx h1 else startHead g L.ctx 4 h1)) ∧
      (loadSet s.hw L.ctx g r G.witCount = none → Becomes (exec (.stationaryLoadDone g) s) s (tileUncorrectable L.ctx g L.thr s.hw))) ∧
    (∀ op rest, galRuns s.hw g = true → groupCtx s.hw g = some c → G.queue = op :: rest → op.kind = .drain → op.started = false → G.pipe = [] →
      Becomes (exec (.drainStart g) s) s (modGal (forgetDrain c g op s.hw) g (fun G => { G with queue := { op with started := true, since := G.cycle } :: rest })))

/-- At a burst boundary the next ready convoy after the one last served delivers its slots of rows to each member with room, and
its members without room detach. A stream in progress whose row port is free and whose data is there takes its next row, or two at
double rate, into the pipeline, unless an update of the same accumulator row is in it; after the last row it leaves the queue; a
row that cannot be read stops the context. L cycles after its entry the oldest row, with its pair at double rate, updates its
accumulator row, adding or replacing in every column, and gathers SAT, INF and NAN; a witness mismatch abandons the group and asks
for the partition's reset, an accumulator entry that cannot be read stops the context, a corrected one is counted and logged. In
part this rests on the model's own choices: log 3, log 5, log 24, log 61, log 73, log 129. (R72, R73, R205, R206, R207, R216,
R217, R220, R225, R229, R231, R232) -/
def Obligations.RowsThroughTheArray : Prop :=
  ∀ (g c w ecc : Nat) (wit : Bool) (s : State), let G := gal s.hw g; let W := wing s.hw w
    (∀ v, w < 12 → W.sleep = 0 → let f := (fmtOf (tileOf v.desc).fmt).getD .int8
      let fits := fun (v : Convoy) (m : Member) => m.missed.isNone && hasRoom s.hw ((fmtOf (tileOf v.desc).fmt).getD .int8) (burstSlots W.burst) m
      (match W.convoys.filter (fun v => decide (W.lastConvoy < v.order) && v.members.any (fits v)) with
        | x :: _ => some x
        | [] => (W.convoys.filter (fun v => v.members.any (fits v))).head?) = some v →
      let n := burstSlots W.burst * (rowsPerSlot f).1 / (rowsPerSlot f).2
      let v' := { v with next := v.next + n, members := v.members.map (fun m => if m.missed.isNone && !hasRoom s.hw f (burstSlots W.burst) m then { m with missed := some v.next } else m) }
      let got := v'.members.filter (fun m => m.missed.isNone)
      let h1 := got.foldl (fun h m => modGal h m.g (fun G => { G with
        fifo := G.fifo ++ ((List.range n).filter (fun i => v.next + i < m.upto)).map (fun i => weightRow h v.ctx m.g v.desc v.transposed (v.next + i)) })) s.hw
      let h2 := modWing h1 w (fun W => { W with lastConvoy := v.order, convoys := W.convoys.map (fun x => if x.order == v.order then v' else x) })
      let done := got.filter (fun m => decide (m.upto ≤ v.next + n))
      Becomes (exec (.burstGrant w) s) s (done.foldl (fun h m => settleMember w v.ctx v' m h) h2)) ∧
    (∀ op rest gr, g < 96 → galRuns s.hw g = true → groupCtx s.hw g = some c → G.group = some gr → G.queue = op :: rest →
      let tr := op.kind == .streamT; let wf := (fmtOf gr.fw).getD .int8; let bay := tierOf (ctx s.hw c) (tileOf op.desc).base = 0
      let most := if doubleRate wf ((fmtOf gr.fs).getD .int8) && !tr then 2 else 1
      let rows := if bay then (List.range (min most (op.rows - op.next))).map (fun i => weightRow s.hw c g op.desc tr (op.next + i)) else G.fifo.take most
      (op.kind == .stream || tr) = true → op.started = true → (∀ L, G.loader = some L → L.stall = false) → rows ≠ [] →
      (∀ r ∈ rows, ∀ p ∈ G.pipe, p.accRow ≠ op.base + r.row) → G.portFree ≤ G.cycle →
      ((∃ r ∈ rows, r.bad = true) → Becomes (exec (.rowEntry g) s) s (tileUncorrectable c g gr.holder s.hw)) ∧
      ((∀ r ∈ rows, r.bad = false) → let n := rows.length; let late := G.cycle + (if wf = .bf16 then 3 else 0)
        let a := rows.foldl (fun (a : List PipeRow × Hw) r => let x := enterRow G gr op r (cols s.hw g) a.2; (a.1 ++ [x.1], x.2)) ([], s.hw)
        let h1 := modGal a.2 g (fun G => { G with
          pipe := G.pipe ++ a.1, lastEntry := late, lastRead := tput G.lastRead G.active late, portFree := G.cycle + portCycles wf tr
          fifo := if bay then G.fifo else G.fifo.drop n, queue := { op with next := op.next + n } :: rest
          perfRows := satAdd 32 G.perfRows n, perfBusy := satAdd 32 G.perfBusy 1 })
        let h2 := saturated 32 (0x100044 + g * 0x1000) G.perfRows (satAdd 32 G.perfRows n)
          (saturated 32 (0x100048 + g * 0x1000) G.perfBusy (satAdd 32 G.perfBusy 1) h1)
        Becomes (exec (.rowEntry g) s) s (if op.rows ≤ op.next + n then popHead g c (leaveConvoys g h2) else rejoin g h2))) ∧
    (∀ p rest gr, g < 96 → galRuns s.hw g = true → groupCtx s.hw g = some c → G.group = some gr → G.pipe = p :: rest →
      let wf := (fmtOf gr.fw).getD .int8; let differs := wit && !G.wdis && p.wit.isSome
      p.entered + pipeLen wf ≤ G.cycle →
      (differs = true → let col := physCol G (p.wit.getD 0)
        Becomes (exec (.accumulatorUpdate g ecc wit) s) s (abandonGroup c g (modGal s.hw g (fun G => { G with
          colFault := true, lastCol := col, mismatches := tmod G.mismatches col 0 (· + 1), mismatch := some col, partFault := true })))) ∧
      (differs = false → ecc = 2 → p.add = true → Becomes (exec (.accumulatorUpdate g ecc wit) s) s (tileUncorrectable c g gr.holder
        (sramUncorrectable (modGal s.hw g (fun G => { G with accUncorr := true, accLastRow := p.accRow }))))) ∧
      (∀ h1, differs = false → (∀ q ∈ rest, q.entered ≠ p.entered) →
        (ecc = 0 ∨ ecc = 2 ∧ p.add = false) ∧ h1 = s.hw ∨ ecc = 1 ∧ h1 = saturated 16 (0x100104 + g * 0x1000) G.accCorrected (satAdd 16 G.accCorrected 1)
          (sramCorrected 3 (g + 2 ^ 7 * p.accRow) (modGal s.hw g (fun G => { G with accCorrected := satAdd 16 G.accCorrected 1, accLastRow := p.accRow }))) →
        Becomes (exec (.accumulatorUpdate g ecc wit) s) s (modGal h1 g (fun G =>
          let us := (List.range 128).map (fun j => accUpdate (isIntPair wf) p.add (lane (accRowOf g G p.accRow) j) (lane p.sums j))
          let sat := us.any (fun u => u.2.1); let inf := p.inf || us.any (fun u => u.2.2.1); let nan := p.nan || us.any (fun u => u.2.2.2)
          { G with
            acc := tput G.acc p.accRow (ofLanes (fun j => match us[j]? with | some u => u.1 | none => 0)), pipe := G.pipe.filter (fun x => x != p)
            sat := G.sat || sat, inf := G.inf || inf, nan := G.nan || nan
            group := G.group.map (fun x => { x with sat := x.sat || sat, inf := x.inf || inf, nan := x.nan || nan }) }))))

/-- A lane-wise VOP gives every lane that its mask selects the function of R183 of the lanes of v[A] and of v[B], or of s[B] in
every lane, and leaves the others; EXP, RCP and RSQRT of a lane use an open value within their bounds. A comparison writes p[D], 0
in unselected lanes; a reduction writes s[D], the pairwise tree over the selected lanes. VQUANT writes the packed codes, and the
block scales of an MX target, to v[D] and the counts of NAN_ZEROED and CLAMPED to s[E]. VROT writes the rotation of each block.
VHIST adds the selected lanes of v[B] to the histogram that s[A] addresses and answers how many it counted. Nothing else changes.
In part this rests on the model's own choices: log 4, log 12, log 15, log 70, log 141. (R182, R183, R184, R185, R186, R187, R188,
R189, R201, R248, R251, R252) -/
def Obligations.VectorInstructions : Prop :=
  ∀ (th : Thr) (f : Fields) (c : Nat) (s : State), let T := thread s.hw th; let H := unlatch th s.hw
    let mask := T.preg f.psx; let a := T.vreg f.a; let bl := fun (j : Nat) => if f.m 0 then (T.sreg f.b).setWidth 32 else lane (T.vreg f.b) j
    let x0 := f.rx = 0 ∧ f.c = 0 ∧ f.e = 0 ∧ f.f1 = 0 ∧ f.f2 = 0
    let okB := if vopUnary f.fn then f.b = 0 ∧ f.m 0 = false else f.m 0 = true ∨ f.b < 16
    (Carried .vop th f c s.hw → f.m 2 = false → f.m 3 = false → f.a < 16 → okB → x0 →
      (0x28 ≤ f.fn → f.fn ≤ 0x2A → Goes (exec (.vop th f) s) s th 8 (withS th f.d (vopReduce f.fn (f.m 1) a mask) H)) ∧
      (0x20 ≤ f.fn → f.fn ≤ 0x23 → f.d < 8 → ∃ p, Goes (exec (.vop th f) s) s th 1 (modThr H th (fun T => T.setP f.d p)) ∧
        ∀ j < 128, p.getLsbD j = (mask.getLsbD j && (vopCmp f.fn (f.m 1) (lane a j) (bl j)).getD false)) ∧
      (f.fn < 0x20 → f.d < 16 → (vopLane f.fn (f.m 1) 0 0 0 0).isSome = true → ∃ (v : BitVec 4096) (u : Nat → Word) (h1 : Hw),
        Goes (exec (.vop th f) s) s th (if f.fn = 0x18 ∨ f.fn = 0x19 ∨ f.fn = 0x1A then 4 else 1) (modThr h1 th (fun T => T.setV f.d v)) ∧
        h1 = { H with free := h1.free } ∧
        ∀ j < 128, lane v j = if mask.getLsbD j then (vopLane f.fn (f.m 1) (lane a j) (bl j) (lane (T.vreg f.d) j) (u j)).getD 0 else lane (T.vreg f.d) j)) ∧
    (∀ k, Carried .vquant th f c s.hw → fmtOf f.mod.toNat = some k → k ≠ .fp32 → k ≠ .int32 → f.d < 16 → f.a < 16 →
      f.rx = 0 → f.psx = 0 → f.fn = 0 → f.f1 = 0 → f.f2 = 0 → let int := k = .int8 ∨ k = .uint8 ∨ k = .int4
      (int → f.b < 16) → (¬int → f.b = 0 ∧ f.c = 0) →
      let zp : Int := if k = .uint8 then ((T.sreg f.c).extractLsb' 0 8).toNat else ((T.sreg f.c).extractLsb' 0 8).toInt
      let blocks := (List.range 4).map (fun i => (List.range 32).map (fun j => lane a (32 * i + j))); let ks := blocks.map (fun bl => mxScale k bl)
      let nr := if int then (List.range 128).map (fun j => vquantInt k zp (lane a j) (lane (T.vreg f.b) j))
        else if k.isMx then (blocks.zip ks).flatMap (fun p => p.1.map (fun y => narrowW k 0 p.2 y))
        else (List.range 128).map (fun j => narrow k 0 (f32Val (lane a j)))
      Goes (exec (.vquant th f) s) s th 4 (modThr H th (fun T =>
        (T.setV f.d (vquantPack k (nr.map (fun r => r.code)) (if k.isMx then ks.map (fun x => (x + 127).toNat) else []))).setS f.e
          (stWord [((nr.filter (fun r => r.nanZeroed)).length, 32), ((nr.filter (fun r => r.clamped)).length, 48)])))) ∧
    (Carried .vrot th f c s.hw → f.d < 16 → f.a < 16 → (f.m 2 = true → f.b < 16) → (f.m 2 = false → f.b = 0) → x0 → f.psx = 0 → f.fn = 0 →
      let b := 2 ^ (4 + f.mod.toNat % 4)
      let inp := fun (j : Nat) => if f.m 2 && !f.m 3 then signed (lane (T.vreg f.b) j) (lane a j) else f32Val (lane a j)
      ∃ v, Goes (exec (.vrot th f) s) s th 4 (modThr H th (fun T => T.setV f.d v)) ∧ ∀ j < 128,
        let r := scaleRoot (4 + f.mod.toNat % 4) ((List.range b).foldl (fun acc i =>
          acc.add (if hadNeg (j % b) i then (inp (j / b * b + i)).negate else inp (j / b * b + i))) (FVal.fin false 0 0))
        lane v j = if f.m 2 && f.m 3 then f32Of (signed (lane (T.vreg f.b) j) r) else r) ∧
    (∀ o off o' off', Carried .vhist th f c s.hw → f.mod = 0 → f.b < 16 → x0 → f.fn = 0 → checkAccess (ctx s.hw c) (T.sreg f.a) 320 .r [0] 4 = .ok o off →
      checkAccess (ctx s.hw c) (T.sreg f.a) 320 .w [0] 4 = .ok o' off' → let m := objMem s.hw (objKey c o th.g)
      let base : Int := (BitVec.ofNat 16 (m.readLE off 2)).toInt; let col := m.readLE (off + 2) 1
      m.isBad 0 off 320 = false → (col = 1 → m.isBad 0 off 1344 = false) → base ≥ -120 → base ≤ 111 → col ≤ 1 → m.readLE (off + 3) 1 ≤ 3 → m.readLE (off + 36) 28 = 0 →
      (col = 1 → (checkAccess (ctx s.hw c) (T.sreg f.a) 1344 .w [0] 4).cause? = none) →
      let js := (List.range 128).filter (fun j => mask.getLsbD j); let v := T.vreg f.b; let live := js.filter (fun j => !f32IsNaN (lane v j))
      let x := js.foldl (fun x j => x.add base (lane v j)) (readHist m off)
      let pc := if col % 2 = 1 then live.flatMap (fun j => let w : Word := if f32IsZero (lane v j) then 0 else lane v j
          bytesAt (off + 320 + 8 * j) 4 (f32Min (BitVec.ofNat 32 (m.readLE (off + 320 + 8 * j) 4)) w).toNat ++
          bytesAt (off + 320 + 8 * j + 4) 4 (f32Max (BitVec.ofNat 32 (m.readLE (off + 320 + 8 * j + 4) 4)) w).toNat) else []
      Goes (exec (.vhist th f) s) s th 1 (withS th f.d (stWord [(live.length, 32)]) (modMem H (objKey c o th.g) (fun _ => (m.store 0 (histBytes off x ++ pc)).1))))

/-- A VSCALE with no committed bank waiting puts lanes of v[A] into SCALE, OFFSET or ZERO_POINT of the pending bank's columns from
s[B], and with COMMIT commits it; while one waits its thread issues again. A drain whose last write is due writes every element of
its tile, and scale bytes and statistics, through the scale stage with the active bank; its status word tells the group's SAT, INF
and NAN, the bank's version and the NaN elements zeroed; it is observed unless INT32 accumulators go to INT32; its group closes
and its thread goes on. An accumulator entry that cannot be read stops the context. In part this rests on the model's own choices:
log 3, log 4, log 14, log 17, log 18, log 19, log 20, log 23, log 27, log 141. (R178, R179, R190, R225, R229, R233, R234, R235,
R236, R237, R255, R256) -/
def Obligations.ScaleStage : Prop :=
  ∀ (g c ecc : Nat) (th : Thr) (f : Fields) (s : State), let T := thread s.hw th; let H := unlatch th s.hw; let G := gal s.hw g
    (Carried .vscale th f c s.hw → f.m 3 = false → f.mod.toNat % 4 ≠ 3 → f.a < 16 → f.c = 0 → f.e = 0 → f.psx = 0 → f.fn = 0 → f.rx = 0 → f.f1 = 0 → f.f2 = 0 →
      let off := (T.sreg f.b).toNat; let cs := cols s.hw th.g
      off % 128 = 0 → off < cs → let v := T.vreg f.a; let js := (List.range 128).filter (fun j => off + j < cs)
      let h1 := modVsu H th.g c (fun V => { V with pend := match f.mod.toNat % 4 with
        | 0 => { V.pend with scale := js.foldl (fun t j => tput t (off + j) (lane v j)) V.pend.scale }
        | 1 => { V.pend with off := js.foldl (fun t j => tput t (off + j) (lane v j)) V.pend.off }
        | _ => { V.pend with zp := js.foldl (fun t j => tput t (off + j) ((lane v j).extractLsb' 0 8)) V.pend.zp } })
      ((vsuOf (gal s.hw th.g) c).waiting = true → Reissues (exec (.vscale th f) s) s th .vscale) ∧
      ((vsuOf (gal s.hw th.g) c).waiting = false → f.m 2 = false → Goes (exec (.vscale th f) s) s th 1 (withS th f.d 0 h1)) ∧
      ((vsuOf (gal s.hw th.g) c).waiting = false → f.m 2 = true →
        Goes (exec (.vscale th f) s) s th 1 (withS th f.d (commitBank th.g c h1).2 (commitBank th.g c h1).1))) ∧
    (∀ op rest gr k, g < 96 → galRuns s.hw g = true → groupCtx s.hw g = some c → G.queue = op :: rest → G.group = some gr → op.kind = .drain → op.started = true →
      let t := tileOf op.desc; fmtOf t.fmt = some k → (tierOf (ctx s.hw c) t.base = 0 → G.loader = none) → op.since + drainCycles t k op.mxs.isSome ≤ G.cycle →
      let row := op.base + Config.freeChoice s.hw.free t.major % max 1 t.major; let hf : Hw := { s.hw with free := s.hw.free + 1 }
      (ecc = 2 → Becomes (exec (.drainComplete g ecc) s) s (tileUncorrectable c g gr.holder
        (sramUncorrectable (modGal hf g (fun G => { G with accUncorr := true, accLastRow := row }))))) ∧
      (∀ h0, ecc = 0 ∧ h0 = s.hw ∨ ecc = 1 ∧ h0 = saturated 16 (0x100104 + g * 0x1000) G.accCorrected (satAdd 16 G.accCorrected 1)
          (sramCorrected 3 (g + 2 ^ 7 * row) (modGal hf g (fun G => { G with accCorrected := satAdd 16 G.accCorrected 1, accLastRow := row }))) →
        let int := isIntPair ((fmtOf gr.fw).getD .int8); let b := (vsuOf G c).active
        let rows : List (Nat × DrainRow) := (List.range t.major).map (fun n => (n, drainRow int k b (accRowOf g G (op.base + n)) t.minor))
        let o1 := storeObj c g t.base
          (rows.flatMap (fun (r : Nat × DrainRow) => bytesAt (addrOff t.base + r.1 * t.stride) (t.lineBytes k) (packElems k.bits r.2.elems))) h0
        let o2 := if k.isMx then storeObj c g t.sbase
          (rows.flatMap (fun (r : Nat × DrainRow) => bytesAt (addrOff t.sbase + r.1 * t.scaleStride k) r.2.scales.length (packElems 8 r.2.scales))) o1.1 else (o1.1, false)
        let o3 := match op.mxs with
          | none => (o2.1, false)
          | some a => storeObj c g a (rows.flatMap (fun (r : Nat × DrainRow) =>
              bytesAt (addrOff a + 8 * r.1) 8 ((rowStats r.2.ys).1.toNat + 2 ^ 32 * (rowStats r.2.ys).2.toNat))) o2.1
        let ys := rows.flatMap (fun (r : Nat × DrainRow) => (List.range t.minor).zip r.2.ys)
        let h1 := if int && k = .int32 then o3.1 else if t.fmt = (slotOf o3.1 g c b.slot).target
          then observe g c ys (t.major * t.minor) (rows.foldl (fun (n : Nat) (r : Nat × DrainRow) => n + r.2.clamped) 0) o3.1 else observe g c ys 0 0 o3.1
        let word := stWord [(if o1.2 || o2.2 || o3.2 then 0x20 else 0, 0), (bit gr.sat, 8), (bit gr.inf, 9), (bit gr.nan, 10), (b.ver, 16),
          (min (rows.foldl (fun (n : Nat) (r : Nat × DrainRow) => n + r.2.nanZ) 0) 0xFFFF, 32)]
        let n := satAdd 32 G.drainRows t.major
        Becomes (exec (.drainComplete g ecc) s) s (wake { g, t := gr.holder } (fun T => T.setS op.d word)
          (saturated 32 (0x100108 + g * 0x1000) G.drainRows n (modGal h1 g (fun G => { G with group := none, queue := [], drainRows := n }))))))

/-- SELT, TOPK and MERGE whose operand checks pass enter their gallery's engine queue with the bytes of their ranges as they
stand, and their threads wait. The first that is not paused and whose context runs completes: SELT's records below its threshold,
TOPK's k least, MERGE's k least of its lists, and the status word are written and the thread goes on; an uncorrectable input ends
it with MEDIA_UNCORRECTABLE; a range written meanwhile, or a list out of order, leaves the output undefined. A paused one of a
context that runs again goes to the queue's head. Nothing else changes. In part this rests on the model's own choices: log 3, log
4, log 10, log 28. (R191, R192, R193, R194, R199, R268, R269, R270, R272, R273, R275, R278) -/
def Obligations.Selection : Prop :=
  ∀ (th : Thr) (f : Fields) (c g : Nat) (s : State), let T := thread s.hw th; let H := unlatch th s.hw; let x := ctx s.hw c
    let out := T.sreg f.c; let par := T.sreg f.b; let inp := T.sreg f.a; let n := par.toNat % 2 ^ 32; let k := par.toNat / 2 ^ 32 % 2 ^ 16
    let x0 := f.rx = 0 ∧ f.psx = 0 ∧ f.fn = 0 ∧ f.f1 = 0 ∧ f.f2 = 0
    let waits := fun (o : Host.Outcome State Fault Refusal) (j : SelJob) =>
      Blocks o s th .select (modGal H th.g (fun G => { G with sel := G.sel ++ [{ j with before := selBytes s.hw c th.g j.ranges }] }))
    (∀ o off o' off', Carried .selt th f c s.hw → f.mod.toNat < 2 → x0 → let cap := (T.sreg f.e).toNat
      checkAccess x inp (16 * n) .r [0, 1, 2] 8 = .ok o off → checkAccess x out (16 * cap) .w [0, 1, 2] 8 = .ok o' off' →
      (inp = out ∨ overlap inp (16 * n) out (16 * cap) = false) →
      waits (exec (.selt th f) s) { kind := .selt, thr := th.t, ctx := c, flag := f.m 0, param := par, output := out, cap, d := f.d, lists := [(inp, n)] }) ∧
    (∀ o off o' off', Carried .topk th f c s.hw → f.mod = 0 → x0 → f.e = 0 → 1 ≤ k → k ≤ 4096 →
      checkAccess x inp (16 * n) .r [0, 1, 2] 8 = .ok o off → checkAccess x out (16 * k) .w [0, 1, 2] 8 = .ok o' off' → overlap inp (16 * n) out (16 * k) = false →
      waits (exec (.topk th f) s) { kind := .topk, thr := th.t, ctx := c, flag := false, param := par, output := out, cap := k, d := f.d, lists := [(inp, n)] }) ∧
    (∀ o off o' off', Carried .merge th f c s.hw → f.mod.toNat < 2 → x0 → f.e = 0 → let n := par.toNat % 256
      2 ≤ n → n ≤ 16 → 1 ≤ k → k ≤ 4096 → checkAccess x inp (16 * n) .r [0, 1, 2] 8 = .ok o off → checkAccess x out (16 * k) .w [0, 1, 2] 8 = .ok o' off' →
      let m := objMem s.hw (objKey c o th.g)
      let job : SelJob := { kind := .merge, thr := th.t, ctx := c, flag := f.m 0, param := par, output := out, cap := k, d := f.d, lists := [] }
      let list := fun (i : Nat) => (BitVec.ofNat 64 (m.readLE (off + 16 * i) 8), m.readLE (off + 16 * i + 8) 4)
      (m.isBad o.tier off (16 * n) = true → waits (exec (.merge th f) s) { job with tableBad := true }) ∧
      (m.isBad o.tier off (16 * n) = false → overlap inp (16 * n) out (16 * k) = false →
        (∀ i < n, m.readLE (off + 16 * i + 12) 4 = 0 ∧ (checkAccess x (list i).1 (16 * (list i).2) .r [0, 1, 2] 8).cause? = none ∧
          overlap (list i).1 (16 * (list i).2) out (16 * k) = false) →
        waits (exec (.merge th f) s) { job with lists := (List.range n).map list })) ∧
    (∀ j, g < 96 → (gal s.hw g).sel.find? (fun j => j.paused && mayRun s.hw j.ctx g) = some j →
      Becomes (exec (.selectionResume g) s) s (modGal s.hw g (fun G => { G with sel := { j with paused := false } :: G.sel.erase j }))) ∧
    (∀ j, g < 96 → galRuns s.hw g = true → (gal s.hw g).sel.find? (fun j => !j.paused && mayRun s.hw j.ctx g) = some j →
      let h := modGal s.hw g (fun G => { G with sel := G.sel.erase j })
      let done := fun (w : DWord) (h : Hw) => wake { g, t := j.thr } (fun T => T.setS j.d w) h
      let lists := j.lists.map (fun l => readRecs h j.ctx g l.1 l.2); let k := j.param.toNat / 2 ^ 32 % 2 ^ 16
      let mg := mergeRun j.flag k h.free lists
      let kept := selBytes h j.ctx g j.ranges = j.before ∧ (j.kind = .merge → lists.all ascending = true)
      let bad := j.tableBad || (if j.kind = .merge then mg.bad else lists.flatten.any (fun r => r.bad))
      (¬kept → ∃ w : DWord, w.toNat % 256 = 0 ∧ ∃ n, Becomes (exec (.selectionComplete g) s) s (done w { forgetOut j.ctx g j h with free := n })) ∧
      (kept → bad = true → Becomes (exec (.selectionComplete g) s) s (done 0x20 (forgetOut j.ctx g j h))) ∧
      (kept → bad = false →
        let o := match j.kind with
          | .selt => seltOut j.flag (BitVec.ofNat 32 (j.param.toNat / 2 ^ 32)) j.cap lists.flatten
          | .topk => topkOut h.free k lists.flatten
          | .merge => mergeOut k mg
        let w := storeObj j.ctx g j.output (((List.range o.recs.length).zip o.recs).flatMap (fun p => bytesAt (addrOff j.output + 16 * p.1) 16 p.2))
          { h with free := h.free + 2 + lists.flatten.length }
        Becomes (exec (.selectionComplete g) s) s
          (done (stWord [(0, 0), (bit o.short, 8), (bit o.tie, 9), (bit o.overflow, 10), (min o.nans 0xFFFF, 16), (o.count, 32)])
            (if w.2 then noteFailure { g, t := j.thr } 0x20 w.1 else w.1))))

/-- A PSCAN whose header and operand checks pass takes the next ticket of its thread and queues its scan, unless two of its thread
are outstanding; then it issues again. PCOLLECT of a ticket not outstanding answers INVALID_FIELD; with TIGHTEN it offers its
threshold; with new survivors or an ended scan it answers how many and whether it ended, and retires an ended scan; else it waits,
or answers BUSY with try. The first queued scan starts when the LPUs have contexts and table slots for it, and a LIST scan asks
the dies for its lists' pages. A scan all of whose queries ended, or all of whose pages are scanned and survivors written, ends
with OK, PARTIAL or MEDIA_UNCORRECTABLE. In part this rests on the model's own choices: log 3, log 4, log 27, log 34, log 42, log
106, log 107, log 108, log 109. (R195, R196, R197, R284, R297, R298, R299, R302, R306, R311, R312) -/
def Obligations.ScanIssue : Prop :=
  ∀ (th : Thr) (f : Fields) (c id : Nat) (s : State), let T := thread s.hw th; let H := unlatch th s.hw; let P := s.hw.probe
    let x0 := f.b = 0 ∧ f.rx = 0 ∧ f.c = 0 ∧ f.e = 0 ∧ f.psx = 0 ∧ f.fn = 0 ∧ f.f1 = 0 ∧ f.f2 = 0
    (∀ o off sc, Carried .pscan th f c s.hw → f.mod.toNat ≤ 1 → x0 → checkAccess (ctx s.hw c) (T.sreg f.a) 64 .r [0, 1, 2] 1 = .ok o off →
      let hdr := (readAt s.hw c th.g (T.sreg f.a) 64).1
      let s0 : Scan := { id := P.nextId, ctx := c, th, seq := T.scanSeq, auto := f.m 0, kind := fldOf hdr 0 1, hdr }
      (s0.kind = 0 ∧ (∃ v lists tabs ths, listCheck s.hw c th.g s0 = .ok (v, lists, tabs, ths) ∧ sc = { s0 with
          vol := v, lists, qs := ths.map (fun (t : Word) => { thresh := t })
          tabs := tabs.map (fun (a : DWord) => let p := (readAt s.hw c th.g a 16).1
            (readAt s.hw c th.g a (tableBytes (fldOf p 8 1) (fldOf p 9 1) (fldOf p 10 1 = 1))).1) }) ∨
        s0.kind = 1 ∧ recordCheck s.hw c th.g s0 = none ∧ sc = { s0 with qs := [{}] } ∨
        s0.kind = 2 ∧ filterCheck s.hw c th.g s0 = none ∧ sc = { s0 with qs := [{}] } ∨
        s0.kind = 3 ∧ appendCheck s.hw c th.g s0 = none ∧ sc = { s0 with qs := [{}], vol := (appendVolume s.hw c).getD 0 }) →
      let mine := (P.scans.filter (fun x => x.th == th && !x.ended)).length
      (2 ≤ mine → Reissues (exec (.pscan th f) s) s th .scanSlot) ∧
      (mine < 2 → Goes (exec (.pscan th f) s) s th 1 (modThr { H with probe := { P with scans := P.scans ++ [sc], nextId := P.nextId + 1 } } th (fun T =>
        { T.setS f.d (BitVec.ofNat 64 (2 ^ 16 + T.scanSeq)) with scanSeq := (T.scanSeq + 1) % 65536 })))) ∧
    (Carried .pcollect th f c s.hw → f.mod.toNat ≤ 3 → (f.m 1 = false → f.b = 0) → f.rx = 0 ∧ f.c = 0 ∧ f.e = 0 ∧ f.psx = 0 ∧ f.fn = 0 ∧ f.f1 = 0 ∧ f.f2 = 0 →
      let sc? := P.scans.find? (fun x => x.th == th && BitVec.ofNat 64 (2 ^ 16 + x.seq) == T.sreg f.a)
      (sc? = none → Goes (exec (.pcollect th f) s) s th 1 (withS th f.d 0x11 H)) ∧
      (∀ sc, sc? = some sc → let h1 := if f.m 1 then modScan sc.id (fun x => { x with qs := x.qs.map (offer (BitVec.ofNat 32 (T.sreg f.b).toNat)) }) H else H
        let word := stWord [(if sc.ended then sc.status else 0, 0), (bit sc.ended, 8), (sc.written - sc.reported, 32)]
        (sc.ended = true → Goes (exec (.pcollect th f) s) s th 1
          (withS th f.d word (modProbe (fun P => { P with scans := P.scans.filter (fun x => x.id ≠ sc.id) }) h1))) ∧
        (sc.ended = false → sc.written ≠ sc.reported → Goes (exec (.pcollect th f) s) s th 1
          (withS th f.d word (modScan sc.id (fun x => { x with reported := x.written }) h1))) ∧
        (sc.ended = false → sc.written = sc.reported → f.m 0 = true → Goes (exec (.pcollect th f) s) s th 1 (withS th f.d 0x13 h1)) ∧
        (sc.ended = false → sc.written = sc.reported → f.m 0 = false → Blocks (exec (.pcollect th f) s) s th (.scan sc.seq f.d) h1))) ∧
    (∀ sc, nextScan s.hw = some sc →
      (sc.kind = 3 → Becomes (exec .scanStart s) s (startAppend sc s.hw)) ∧
      (sc.kind = 2 → Becomes (exec .scanStart s) s (modScan sc.id (fun x => { x with started := true }) s.hw)) ∧
      (∀ o, sc.kind = 1 → lpuContexts s.hw < 64 → (ctx s.hw sc.ctx).objs.find? (fun o => o.handle = addrHandle (sc.addr 16)) = some o →
        let off := addrOff (sc.addr 16); let n := (off % 4096 + sc.count * sc.recBytes + 4095) / 4096
        Becomes (exec .scanStart s) s ((List.range n).foldl (fun h i => match unitEnt h.mdm.map o.bindId (o.bindOff + off / 4096 + i) with
            | .located z sb pg u => readEnt (.located z sb pg u) [u] 1 (.scan sc.id i) h
            | _ => scanPage sc.id i (some 0) h)
          (modScan sc.id (fun x => { x with started := true, vol := o.bindId, pages := (List.range n).map (fun i => (0, i, 0)) }) s.hw))) ∧
      (sc.kind = 0 → lpuContexts s.hw < 64 → lpuSlots s.hw + scanSlots sc ≤ 256 → let ps := scanPages s.hw sc
        let lpus := (List.range 16).foldl (fun (t : Tbl Word) l => tput t l 0) []
        let h1 := modScan sc.id (fun x => { x with started := true, pages := ps, qs := x.qs.map (fun q => { q with lpuT := lpus.map (fun e => (e.1, q.thresh)) }) }) s.hw
        let h2 := (List.range 16).foldl (fun h l => lndSend l false 1 sc.tabs.length (lndSend l false 0 1 h)) h1
        Becomes (exec .scanStart s) s ((List.range ps.length).foldl (fun h i => let x := (ps[i]?).getD (0, 0, 0)
          readEnt (listEnt h.mdm.map sc.vol x.1 x.2.1) (List.range 8) 1 (.scan sc.id i) h) h2))) ∧
    (∀ sc, scanOf s.hw id = some sc → sc.started = true → sc.ended = false →
      (sc.kind = 2 → Becomes (exec (.scanEnd id) s) s (filterRun sc s.hw)) ∧
      (sc.kind ≤ 1 → (∀ q ∈ sc.qs, q.ended = true) ∨ sc.pages.length ≤ sc.scannedPages ∧ sc.survs = [] →
        Becomes (exec (.scanEnd id) s) s (endScan id (if sc.qs.any (fun q => q.media) then 0x20 else if sc.qs.any (fun q => q.full) then 0x01 else 0) s.hw)))

/-- The LPU of a list page that has left the dies compares each record with each query's table and threshold and queues the
survivors; a page nobody could read ends the scan's queries with MEDIA_UNCORRECTABLE. A survivor that reaches the die side is
dropped when its query has ended, counted when its ID is tombstoned, ends its query when the region is full, and else is written,
late when above the threshold, and with AUTO may tighten it. A tighter threshold goes to all sixteen LPUs at most once per
TIGHTEN_NS, and each applies it. An APPEND whose entries are all durable writes one record for each and ends. In part this rests
on the model's own choices: log 3, log 34, log 71, log 110. (R289, R290, R291, R295, R300, R301, R302, R303, R305, R306, R313,
R316) -/
def Obligations.Survivors : Prop :=
  ∀ (id k l qi : Nat) (s : State) (sc : Scan), scanOf s.hw id = some sc →
    (∀ p n, sc.kind = 0 → sc.ended = false → sc.pages[k]? = some (l, p, n) → ∀ d?, (sc.arrived.find? (fun a => a.1 = k)).map (fun a => a.2) = some d? →
      let drop := modScan id (fun x => { x with arrived := x.arrived.filter (fun a => a.1 ≠ k), scannedPages := x.scannedPages + 1 }) s.hw
      (∀ V, volume s.hw sc.vol = some V → d?.bind (listRecords V l p n) = none → Becomes (exec (.lpuPageScan id k) s) s (scanMedia id drop)) ∧
      (∀ V recs, volume s.hw sc.vol = some V → d?.bind (listRecords V l p n) = some recs → let lpu := (l + p) % 64 / 4
        let run := (List.range sc.qs.length).map (fun qi => let q0 := (sc.qs[qi]?).getD {}
          let tab := if sc.residual then qi * sc.lists.length + sc.lists.findIdx (fun x => x == l) else qi
          recs.foldl (fun (x : ScanQ × List Surv) r => let y := lpuCompare s.hw sc V lpu tab l qi r x.1; (y.1, x.2 ++ y.2.toList))
            (if q0.ended then q0 else { q0 with pages := q0.pages + 1 }, []))
        let survs := run.flatMap (fun x => x.2)
        let h1 := modScan id (fun x => { x with arrived := x.arrived.filter (fun a => a.1 ≠ k), scannedPages := x.scannedPages + 1 })
          (lndSend lpu true 2 ((16 * survs.length + 143) / 144) (lpuCount lpu recs.length survs.length s.hw))
        Becomes (exec (.lpuPageScan id k) s) s (modScan id (fun x => { x with qs := run.map (fun x => x.1), survs := x.survs ++ survs }) h1))) ∧
    (∀ p n, sc.kind = 1 → sc.ended = false → k ∉ sc.recDone → sc.pages[k]? = some (l, p, n) →
      let mark := modScan id (fun x => { x with recDone := k :: x.recDone, scannedPages := x.scannedPages + 1 }) s.hw
      let off := addrOff (sc.addr 16) % 4096; let mine := (List.range sc.count).filter (fun r => (off + (r + 1) * sc.recBytes - 1) / 4096 = k)
      (sc.arrived.find? (fun a => a.1 = k) = some (k, none) → Becomes (exec (.lpuPageScan id k) s) s (scanMedia id mark)) ∧
      (∀ d before, sc.arrived.find? (fun a => a.1 = k) = some (k, some d) →
        (k = 0 ∧ before = 0 ∨ 0 < k ∧ sc.arrived.find? (fun a => a.1 = k - 1) = some (k - 1, some before)) →
        let recs := mine.map (fun r => fldOf (before + 256 ^ 4096 * d) (4096 + off + r * sc.recBytes - 4096 * k) sc.recBytes)
        let pass := recs.filter (fun r => (clausesOf s.hw sc.ctx sc.th.g sc).all (fun cl => clauseHolds cl r))
        Becomes (exec (.lpuPageScan id k) s) s (modScan id (fun x => { x with
          qs := x.qs.map (fun q => if q.ended then q else { q with scanned := satAdd 32 q.scanned recs.length, pages := q.pages + 1 })
          survs := x.survs ++ pass.map (fun r => { lpu := 0, q := 0, sum := 0, aux := 0, id := 0, raw := r % 256 ^ sc.proj }) }) mark))) ∧
    (∀ v q, sc.survs[k]? = some v → sc.qs[v.q]? = some q → let h := modScan id (fun x => { x with survs := x.survs.eraseIdx k }) s.hw
      let key := recKey ((sc.tabs[v.raw]?).getD 0) v.sum; let tomb := sc.kind = 0 ∧ ∃ V, volume s.hw sc.vol = some V ∧ v.id ∈ V.tombs
      (q.ended = true ∨ sc.ended = true → Becomes (exec (.survivorArrival id k) s) s h) ∧
      (q.ended = false → sc.ended = false → tomb → Becomes (exec (.survivorArrival id k) s) s (modQuery id v.q (fun q => { q with tombed := q.tombed + 1 }) h)) ∧
      (q.ended = false → sc.ended = false → ¬tomb → sc.cap ≤ q.written →
        Becomes (exec (.survivorArrival id k) s) s (modQuery id v.q (fun q => { q with full := true, ended := true }) h)) ∧
      (q.ended = false → sc.ended = false → ¬tomb → q.written < sc.cap →
        let a := addrOff (sc.region v.q) + 64 + q.written * sc.outBytes; let late := sc.kind = 0 && f32Lt q.thresh key
        let o := storeObj sc.ctx sc.th.g (sc.region v.q)
          (bytesAt a sc.outBytes (if sc.kind = 0 then key.toNat + v.aux * 256 ^ 4 + v.id * 256 ^ 8 else v.raw)) h
        let h1 := if o.2 then noteFailure sc.th 0x20 o.1 else o.1
        let h2 := if late then saturated 32 0x80008 h1.probe.late (satAdd 32 h1.probe.late 1) (modProbe (fun P => { P with late := satAdd 32 P.late 1 }) h1) else h1
        let on := sc.auto && sc.kind = 0; let full := decide (sc.cap ≤ q.written + 1)
        let keeper := if on then keepKeys sc.keep key q.keeper else q.keeper
        let q1 := { q with written := q.written + 1, late := q.late + bit late, keeper := keeper, full := full, ended := full }
        Becomes (exec (.survivorArrival id k) s) s (collectWake id (modQuery id v.q
          (fun _ => if on && decide (keeper.length = sc.keep) then offer ((keeper.getLast?).getD q1.thresh) q1 else q1) h2)))) ∧
    (∀ q, sc.qs[qi]? = some q → sc.started = true → sc.ended = false → q.dirty = true →
      (∀ t, q.lastSent = some t → max 100 s.hw.probe.tightenNs / 10 ≤ now s.hw - t) →
      Becomes (exec (.thresholdSend id qi) s) s (modQuery id qi (fun x => { x with
        dirty := false, lastSent := some (now s.hw), sent := (List.range 16).map (fun l => (l, q.thresh)) })
          ((List.range 16).foldl (fun h l => lndSend l false 0 1 h) s.hw))) ∧
    (l < 16 → Becomes (exec (.thresholdApply id qi l) s) s (modQuery id qi (fun x => match tget x.sent l with
      | some t => { x with lpuT := tput x.lpuT l t, sent := tdel x.sent l }
      | none => x) s.hw)) ∧
    (sc.kind = 3 → sc.started = true → sc.ended = false → appendPending s.hw id = false → let a := addrOff (sc.region 0) + 64
      let o := storeObj sc.ctx sc.th.g (sc.region 0) (((List.range sc.outRecs.length).zip sc.outRecs).flatMap (fun p => bytesAt (a + 16 * p.1) 16 p.2)) s.hw
      let h1 := modScan id (fun x => { x with applied := x.target }) (if o.2 then noteFailure sc.th 0x20 o.1 else o.1)
      Becomes (exec (.appendEnd id) s) s
        (endScan id sc.status (modQuery id 0 (fun q => { q with written := sc.target, full := decide (sc.status = 0x01) }) h1)))

/-- A stalled gallery of a running wing only counts the cycle in GAL_PERF_REVOKE. One that is powered and has carried out its last
instruction counts the cycle, also toward GROUP_LIMIT while a switch waits for its open group and in GAL_PERF_STREAM while its
stream waits for a row; then, of the 64 thread numbers in order after the last that issued, the first that can issue is chosen and
the word at its PC fetched, or the cause kept for which it cannot be; with none nothing is issued. A gallery of a sleeping wing,
or one without its grant, changes nothing. In part this rests on the model's own choices: log 3, log 4, log 26. (R85, R86, R137,
R51, R227, R327) -/
def Obligations.IssueOfInstructions : Prop :=
  ∀ (g : Nat) (s : State), g < 96 → let G := gal s.hw g
    let count := fun (h : Hw) => match galPart h g with
      | none => h
      | some p => modPart h p (fun P => { P with switch := P.switch.map (fun w =>
          if G.group.isSome then { w with counted := tmod w.counted g 0 (· + 1) } else w) })
    let stream := fun (h : Hw) => if streamWaits s.hw g then saturated 32 (0x10004C + g * 0x1000) G.perfStream (satAdd 32 G.perfStream 1)
      (modGal h g (fun L => { L with perfStream := satAdd 32 G.perfStream 1 })) else h
    let h1 := count (stream (modGal s.hw g (fun L => { L with cycle := L.cycle + 1 })))
    ((wing s.hw (g / 8)).sleep ≠ 0 → Becomes (exec (.issueSelect g) s) s s.hw) ∧
    ((wing s.hw (g / 8)).sleep = 0 → G.stalled = true → Becomes (exec (.issueSelect g) s) s (saturated 32 (0x100050 + g * 0x1000) G.perfRevoke
      (satAdd 32 G.perfRevoke 1) (modGal s.hw g (fun L => { L with perfRevoke := satAdd 32 G.perfRevoke 1 })))) ∧
    ((wing s.hw (g / 8)).sleep = 0 → G.stalled = false → galPowered s.hw g = false → Becomes (exec (.issueSelect g) s) s s.hw) ∧
    ((wing s.hw (g / 8)).sleep = 0 → G.stalled = false → G.latch = none → galPowered s.hw g = true →
      ((∀ t, t < 64 → canIssue h1 g t = false) → Becomes (exec (.issueSelect g) s) s h1) ∧
      (∀ i c, i < 64 → let t := (G.last + 1 + i) % 64
        canIssue h1 g t = true → (∀ j, j < i → canIssue h1 g ((G.last + 1 + j) % 64) = false) → thrCtx h1 { g, t } = some c →
          (∀ w, fetchWord h1 c { g, t } = .ok w → Becomes (exec (.issueSelect g) s) s (modGal h1 g (fun L => { L with last := t, latch := some (t, some w) }))) ∧
          (∀ e, fetchWord h1 c { g, t } = .error e →
            Becomes (exec (.issueSelect g) s) s (modGal h1 g (fun L => { L with last := t, latch := some (t, none), latchFault := e })))))

/-- A thread whose word could not be fetched takes the fault with the cause kept, its record naming the PC of the branch that led
there, or its own; one whose word has no defined class and opcode takes ILLEGAL_OPCODE at its PC. The context stops, its first
record names cause, logical gallery, thread and PC, and every other context is as before. With nothing issued, or a defined word,
nothing changes. In part this rests on the model's own choices: log 3, log 4. (R87, R117, R126, R137) -/
def Obligations.FaultsAtTheFetch : Prop :=
  ∀ (g t : Nat) (s : State), g < 96 → let th : Thr := { g, t }; let T := thread s.hw th; let o := exec (.programFault g) s;
    ((gal s.hw g).latch = none → Becomes o s s.hw) ∧
    (∀ w, (gal s.hw g).latch = some (t, some w) → (decodeWord w).isSome = true → Becomes o s s.hw) ∧
    (∀ c, thrCtx s.hw th = some c →
      ((gal s.hw g).latch = some (t, none) → Faults o s th c (gal s.hw g).latchFault (T.branchFrom.getD T.pc) ∧
        Yields o s (fun h => ∀ d, d ≠ c → ctx h d = ctx s.hw d)) ∧
      (∀ w, (gal s.hw g).latch = some (t, some w) → decodeWord w = none → Faults o s th c cIllegalOpcode T.pc ∧
        Yields o s (fun h => ∀ d, d ≠ c → ctx h d = ctx s.hw d)))

/-- CSRR waits with the value read: of its own gallery's register, of the gallery that s[A] names in its partition (PEER), of the
monotonic counter (TIME), or under the DEBUG overlay of an accumulator entry (ACC). CSRW changes its own gallery's sticky flags
(those written 1 clear), its performance counters (bit 0 clears them), or its context's calibration selector or slots, and goes on
1 cycle later. An offset that is no multiple of 4 takes MISALIGNED, a register the program may not read or write CSR_DENIED. In
part this rests on the model's own choices: log 4, log 57, log 135. (R115, R116, R163, R131, R227, R265, R238) -/
def Obligations.RegistersOfTheProgram : Prop :=
  ∀ (th : Thr) (f : Fields) (c : Nat) (s : State), let T := thread s.hw th; let H := unlatch th s.hw; let off := f.low29.toNat
    let sane := f.low29.toNat < 4096 ∧ f.psm = 0 ∧ f.rm = 0 ∧ (f.a = 0 ∨ f.mod = 1)
    let v := (T.sreg f.d).toNat % 2 ^ 32; let k := c % 4
    (Carried .csrr th f c s.hw → sane → let o := exec (.csrr th f) s;
      (f.mod.toNat < 4 → off % 4 ≠ 0 → Faults o s th c cMisaligned T.pc) ∧
      (off % 4 = 0 →
        (f.mod = 0 → let r := csrRead (0x100000 + 0x1000 * th.g + off) H; Blocks o s th (.csr (BitVec.ofNat 64 r.1) f.d) r.2) ∧
        (∀ g, f.mod = 1 → (partGals s.hw (c / 4))[(T.sreg f.a).toNat]? = some g → let r := csrRead (0x100000 + 0x1000 * g + off) H
          Blocks o s th (.csr (BitVec.ofNat 64 r.1) f.d) r.2) ∧
        (f.mod = 1 → (partGals s.hw (c / 4))[(T.sreg f.a).toNat]? = none → Faults o s th c cCsrDenied T.pc) ∧
        (f.mod = 2 → off = 0 → Blocks o s th (.csr s.hw.wdn.aon f.d) H) ∧
        (f.mod = 3 → debugOverlay s.hw th.g = false → Faults o s th c cCsrDenied T.pc) ∧
        (f.mod = 3 → debugOverlay s.hw th.g = true → let r := accEntry th.g (8 * (gal s.hw th.g).accRow8 + off / 2 ^ 9) (off / 4 % 128) H
          Blocks o s th (.csr (BitVec.ofNat 64 r.1) f.d) r.2))) ∧
    (Carried .csrw th f c s.hw → sane → let o := exec (.csrw th f) s;
      (f.mod.toNat < 4 → off % 4 ≠ 0 → Faults o s th c cMisaligned T.pc) ∧
      (0 < f.mod.toNat → f.mod.toNat < 4 → off % 4 = 0 → Faults o s th c cCsrDenied T.pc) ∧
      (f.mod = 0 →
        (off = 0 → Goes o s th 1 (modGal H th.g (fun G => { G with
          nan := G.nan && !v.testBit 2, inf := G.inf && !v.testBit 1, sat := G.sat && !v.testBit 0 }))) ∧
        (off = 0x40 → v.testBit 0 = true → Goes o s th 1 (modGal H th.g (fun G => { G with perfRows := 0, perfBusy := 0, perfStream := 0, perfRevoke := 0 }))) ∧
        (off = 0x40 → v.testBit 0 = false → Goes o s th 1 H) ∧
        (off = 0x900 + 0x100 * k → Goes o s th 1 (modVsu H th.g c (fun V => { V with sel := BitVec.ofNat 32 v &&& 0x107 }))) ∧
        (∀ i, i < 8 → off = 0x920 + 0x100 * k + 4 * i → Goes o s th 1 (modSlot H th.g c i (fun x => { x with cfg := BitVec.ofNat 32 v &&& 0xFFFF733F }))) ∧
        (off % 4 = 0 → off ≠ 0 → off ≠ 0x40 → off ≠ 0x900 + 0x100 * k → (∀ i, i < 8 → off ≠ 0x920 + 0x100 * k + 4 * i) → Faults o s th c cCsrDenied T.pc)))

/-- GRAIN_REQUEST asks the block's account for the difference to what the block holds and asks for, held back while its PLL is not
locked. GRAIN_RELEASE leaves the block at most the cost of its new state, withdraws its requests, and changes no other block's
grant. HEAD_BLOCKED marks an account whose head request, of those not withheld, does not fit after 1 ms. REVOCATION_WAIT_EXPIRY
revokes, for a request that has waited 50 us, the newest grant of the lowest class below its own, which stalls with its clock-
gated cost and its request back in the queue; with nothing to revoke, or no such request, nothing changes. PLL_LOCK lets the
requests its PLL held back begin to wait now. In part this rests on the model's own choices: log 3, log 65, log 66, log 68. (R43,
R45, R47, R50, R51, R59, R36, R57) -/
def Obligations.GrainRequests : Prop :=
  ∀ (s : State), let W := s.hw.wdn
    (∀ r mode, okReq r = true → let a := reqAcct r; let x := acct W a; let o := exec (.grainRequest r mode) s;
      let asked := (x.waiting.filter (fun w => w.who == r)).foldl (fun n w => n + w.amt) 0
      let want := reqCost W.opCur (match r with | .gallery g => if mode = 2 ∧ lowPower s.hw g = true then 1 else mode | _ => mode) r
      (want ≤ x.heldBy r + asked → Becomes o s s.hw) ∧
      (x.heldBy r + asked < want → Becomes o s (setAcct s.hw a { x with waiting := x.waiting ++ [{
        who := r, amt := want - x.heldBy r - asked, level := reqLevel r, cls := reqClass s.hw r, since := now s.hw, heldBack := !pllLocked W r }] }))) ∧
    (∀ r mode, okReq r = true → let a := reqAcct r; let x := acct W a
      let keep := match r with | .gallery g => reqCost W.opCur (if mode = 2 ∧ lowPower s.hw g = true then 1 else mode) r | _ => 0
      Yields (exec (.grainRelease r mode) s) s (fun h => let y := acct h.wdn a
        h = setAcct s.hw a { x with held := y.held, waiting := x.waiting.filter (fun w => w.who != r) } ∧ y.heldBy r = min keep (x.heldBy r) ∧
          ∀ q, q ≠ r → y.heldBy q = x.heldBy q)) ∧
    (∀ a, a < 3 → let o := exec (.headBlocked a) s; let l := (ordered (acct W a).waits).filter (fun q => notWithheld W q.who)
      (l = [] → Becomes o s s.hw) ∧
      (∀ q r, l = q :: r →
        (100000 ≤ now s.hw - q.since → fits W a (acct W a) q = false →
          Becomes o s (setLgrEvt 4 (setAcct s.hw a { acct W a with headBlocked := true }))) ∧
        (now s.hw - q.since < 100000 ∨ fits W a (acct W a) q = true → Becomes o s s.hw))) ∧
    (let o := exec .revocationWaitExpiry s;
      let q? := (ordered W.vcore.waits).find? (fun q => q.level = 2 && decide (5000 ≤ now s.hw - q.since) && !fits W 0 W.vcore q)
      (q? = none → Becomes o s s.hw) ∧
      (∀ q, q? = some q → (∃ i, q.who = .gallery i) →
        (revokeNext W.vcore q.cls = none → Becomes o s s.hw) ∧
        (∀ g i, revokeNext W.vcore q.cls = some g → g.who = .gallery i → g ∈ W.vcore.held → W.vcore.sum + q.amt + 3 ≤ (effective W 0).1 + W.vcore.heldBy g.who →
          Becomes o s (modGal (saturated 32 0x20C W.vcore.revokes (satAdd 32 W.vcore.revokes 1) (setAcct s.hw 0 { W.vcore with
              held := W.vcore.held.filter (fun y => y.who != g.who) ++ [{ g with amt := 3 }]
              waiting := W.vcore.waiting ++ [{ who := g.who, amt := W.vcore.heldBy g.who - 3, level := 2, cls := reqClass s.hw g.who, since := g.since }]
              revokes := satAdd 32 W.vcore.revokes 1 })) i (fun G => { G with stalled := true }))))) ∧
    (∀ k, k < 19 →
      let w := if k = 0 then { W with pllArith := true } else if k = 1 then { W with pllNet := true } else if k = 2 then { W with pllDram := true }
        else { W with pllLanding := W.pllLanding ||| BitVec.ofNat 16 (2 ^ (k - 3)) }
      let free := fun (x : Account) => { x with waiting := x.waiting.map (fun q =>
        if q.heldBack = true ∧ pllLocked w q.who = true then { q with heldBack := false, since := now s.hw } else q) }
      Becomes (exec (.pllLock k) s) s { s.hw with wdn := { w with vcore := free w.vcore, vserdes := free w.vserdes, vflash := free w.vflash } })

/-- LEDGER_ARBITRATION of an account answers a next state in which the grants held fit the effective ceiling if they did before,
whatever waits. When they did, the first request in the order of R46 is granted if it fits, is not withheld and the rise limit
leaves room; when it is not withheld, does not fit and has waited 1 ms, no grant changes. The other accounts, the ceilings and
every unit but galleries are as before. In part this rests on the model's own choices: log 64, log 65. (R42, R45, R46, R47, R48,
R54) -/
def Obligations.Arbitration : Prop :=
  ∀ (a : Nat) (s : State), a < 3 → let x := acct s.hw.wdn a; let us := (now s.hw - x.riseFrom) / 100; let lim := riseLimit a
    Yields (exec (.ledgerArbitration a) s) s (fun h => let y := acct h.wdn a
      h = { s.hw with wdn := h.wdn, gal := h.gal, ev := h.ev } ∧ (∀ b, b < 3 → b ≠ a → acct h.wdn b = acct s.hw.wdn b) ∧
      effective h.wdn a = effective s.hw.wdn a ∧
      (x.sum ≤ (effective s.hw.wdn a).1 → y.sum ≤ (effective h.wdn a).1 ∧
        (∀ q r, ordered x.waits = q :: r →
          (fits s.hw.wdn a x q = true → notWithheld s.hw.wdn q.who = true → lim = 0 ∨ x.risen ≤ us * lim ∨ x.risen - us * lim + q.amt ≤ lim →
            x.heldBy q.who + q.amt ≤ y.heldBy q.who) ∧
          (notWithheld s.hw.wdn q.who = true → fits s.hw.wdn a x q = false → 100000 ≤ now s.hw - q.since → y.held = x.held))))

/-- OPPOINT_CHANGE to a requested point makes it the current one: every gallery grant becomes its state's cost at that point,
other grants stay, and every gallery, group and unit is as before. With no request nothing changes. AUTO_OPPOINT_LOWER asks one
step lower after 100 ms without a break, never below FLOOR; AUTO_OPPOINT_RAISE one step higher when no gallery request has waited
for 1 s. POWER_CAP_SAMPLE records the power; with a cap the limit goes down 8 grains while the mean of the last ten samples lies
above it, from the effective ceiling and never below 300 grains, and else up 8 grains until it reaches the ceiling. In part this
rests on the model's own choices: log 3, log 11, log 63, log 69. (R36, R37, R38, R54, R55, R59) -/
def Obligations.OperatingPointsAndPower : Prop :=
  ∀ (s : State), let W := s.hw.wdn; let put := fun (w : Warden) => { s.hw with wdn := w }
    (W.opReq = none → Becomes (exec .oppointChange s) s s.hw) ∧
    (∀ p, W.opReq = some p → Yields (exec .oppointChange s) s (fun h => h = { s.hw with wdn := h.wdn, ev := h.ev } ∧
      h.wdn.opCur = p ∧ h.wdn.opReq = none ∧ h.wdn.pllArith = true ∧ h.wdn.evt = W.evt ||| 8 ∧
      h.wdn.vcore.held = W.vcore.held.map (fun g => { g with amt := match g.who with
        | .gallery _ => if g.amt = galCost W.opCur 2 then galCost p 2 else if g.amt = galCost W.opCur 1 then galCost p 1 else g.amt
        | _ => g.amt }))) ∧
    (∀ t, W.opLowSince = some t → W.opAuto = true → 10000000 ≤ now s.hw - t → W.opCur < min 2 W.opFloor →
      Becomes (exec .autoOppointLower s) s (put { W with opReq := some (W.opCur + 1), opLowSince := none })) ∧
    (W.opLowSince = none ∨ W.opAuto = false ∨ min 2 W.opFloor ≤ W.opCur → Becomes (exec .autoOppointLower s) s s.hw) ∧
    (W.opAuto = true → 0 < W.opCur → 100000000 ≤ now s.hw - W.opLastWait →
      Becomes (exec .autoOppointRaise s) s (put { W with opReq := some (W.opCur - 1), opLastWait := now s.hw })) ∧
    (W.opAuto = false ∨ W.opCur = 0 ∨ now s.hw - W.opLastWait < 100000000 → Becomes (exec .autoOppointRaise s) s s.hw) ∧
    (∀ p, W.cap = none → Becomes (exec (.powerCapSample p) s) s (put { W with inputPower := p })) ∧
    (∀ p c, W.cap = some c → let l := (p :: W.capSamples).take 10; let eff := (effective W 0).1; let w := { W with inputPower := p, capSamples := l }
      (l.foldl (· + ·) 0 ≤ c * 10 * l.length → Becomes (exec (.powerCapSample p) s) s (put { w with
          capLimit := if W.vcore.ceiling ≤ W.capLimit + 80 then 10240 else W.capLimit + 80 })) ∧
      (c * 10 * l.length < l.foldl (· + ·) 0 → 3000 < eff →
        Becomes (exec (.powerCapSample p) s) s (setLgrEvt 0 (put { w with capLimit := max 3000 (eff - 80) }))) ∧
      (c * 10 * l.length < l.foldl (· + ·) 0 → eff ≤ 3000 → Becomes (exec (.powerCapSample p) s) s (put { w with capLimit := 3000 })))

/-- A junction above the limit, or at it while the ceiling is lowered, takes 5 percent of capacity off the effective ceiling,
never below 300 grains; all of them 5 degrees below it give one step back until the ceiling is reached; else THERMAL_STEP moves no
limit. A junction at 115 degrees trips: every gallery grant falls to its clock-gated cost, galleries that held more stall, and
gallery requests and pulses are withheld. The trip ends when every junction reads below 105 degrees, and not before. In part this
rests on the model's own choices: log 3, log 63. (R54, R56, R51, R42) -/
def Obligations.HeatLimits : Prop :=
  ∀ (s : State), let W := s.hw.wdn; let put := fun (w : Warden) => { s.hw with wdn := w }; let lim : Int := 16 * W.thermLimit; let js := junctions W
    (85 ≤ W.thermLimit →
      ((∃ t ∈ js, lim < t) ∨ W.thermLow = true ∧ (∃ t ∈ js, lim ≤ t) → let e := (effective W 0).1
        (3000 < e → Becomes (exec .thermalStep s) s (setLgrEvt 1 (put { W with thermCap := max 3000 (e - 512), thermLow := true }))) ∧
        (e ≤ 3000 → Becomes (exec .thermalStep s) s (put { W with thermCap := 3000, thermLow := true }))) ∧
      ((∀ t ∈ js, t ≤ lim - 80) → Becomes (exec .thermalStep s) s (put { W with
        thermCap := if W.vcore.ceiling ≤ W.thermCap + 512 then 10240 else W.thermCap + 512, thermLow := false })) ∧
      ((∃ t ∈ js, lim - 80 < t) → (∀ t ∈ js, t < lim) ∨ W.thermLow = false ∧ (∀ t ∈ js, t ≤ lim) →
        Becomes (exec .thermalStep s) s (put { W with thermLow := false }))) ∧
    ((∃ t ∈ js, 16 * 115 ≤ t) → W.trip = false → Yields (exec .thermalTrip s) s (fun h => h = { s.hw with wdn := h.wdn, gal := h.gal, ev := h.ev } ∧
      h.wdn.trip = true ∧ galsWithheld h.wdn = true ∧ pulsesWithheld h.wdn = true ∧
      (∀ x ∈ h.wdn.vcore.held, ∀ g, g < 96 → x.who = .gallery g → x.amt ≤ 3) ∧
      ∀ x ∈ W.vcore.held, ∀ g, g < 96 → x.who = .gallery g → 3 < x.amt → (gal h g).stalled = true)) ∧
    ((∀ t ∈ js, t < 16 * 115) ∨ W.trip = true → Becomes (exec .thermalTrip s) s s.hw) ∧
    ((∀ t ∈ js, t < 16 * 105) → Becomes (exec .thermalTripEnd s) s (put { W with trip := false })) ∧
    ((∃ t ∈ js, 16 * 105 ≤ t) → Becomes (exec .thermalTripEnd s) s s.hw)

/-- A running wing with no thread that can issue and no work in its galleries enters S1: each of its galleries holds no more than
its clock-gated cost, every other block's grant and every gallery is as before. A wing in S1 and not waking, for S2_IDLE and with
no group open, enters S2: its galleries hold nothing, their stationary sets and accumulators are undefined, and every other
gallery is as before. Otherwise the commands change nothing. In part this rests on the model's own choices: log 3, log 62, log 68.
(R39, R20, R212, R230, R45) -/
def Obligations.WingsToSleep : Prop :=
  ∀ (w : Nat) (s : State), w < 12 → let W := wing s.hw w; let mine := fun (r : Requester) => ∃ i, i < 8 ∧ r = .gallery (8 * w + i)
    (W.sleep = 0 → wingRunnable s.hw w = false → (∀ i, i < 8 → galBusy s.hw (8 * w + i) = false) →
      Yields (exec (.s1Entry w) s) s (fun h => h = { s.hw with wing := h.wing, wdn := { s.hw.wdn with vcore := h.wdn.vcore } } ∧
        wing h w = { W with sleep := 1, since := now s.hw, waking := false } ∧ (∀ v, v ≠ w → wing h v = wing s.hw v) ∧
        (∀ r, mine r → h.wdn.vcore.heldBy r = min 3 (s.hw.wdn.vcore.heldBy r)) ∧ (∀ r, ¬mine r → h.wdn.vcore.heldBy r = s.hw.wdn.vcore.heldBy r))) ∧
    (W.sleep ≠ 0 ∨ wingRunnable s.hw w = true ∨ (∃ i, i < 8 ∧ galBusy s.hw (8 * w + i) = true) → Becomes (exec (.s1Entry w) s) s s.hw) ∧
    (W.sleep = 1 → W.waking = false → W.since + 100 * s.hw.wdn.s2idle ≤ now s.hw → (∀ i, i < 8 → (gal s.hw (8 * w + i)).group = none) →
      Yields (exec (.s2Entry w) s) s (fun h => h = { s.hw with free := s.hw.free + 8, gal := h.gal, wing := h.wing, wdn := { s.hw.wdn with vcore := h.wdn.vcore } } ∧
        wing h w = { W with sleep := 2, since := now s.hw } ∧ (∀ v, v ≠ w → wing h v = wing s.hw v) ∧
        (∀ r, mine r → h.wdn.vcore.heldBy r = 0) ∧ (∀ r, ¬mine r → h.wdn.vcore.heldBy r = s.hw.wdn.vcore.heldBy r) ∧
        (∀ g, g / 8 ≠ w → gal h g = gal s.hw g) ∧
        ∀ i, i < 8 → let G := gal s.hw (8 * w + i)
          gal h (8 * w + i) = { G with
            set0 := { G.set0 with undef := true }, set1 := { G.set1 with undef := true }, acc := [], accZero := false, accEpoch := s.hw.free + i })) ∧
    (W.sleep ≠ 1 ∨ W.waking = true ∨ now s.hw < W.since + 100 * s.hw.wdn.s2idle ∨ (∃ i, i < 8 ∧ (gal s.hw (8 * w + i)).group ≠ none) →
      Becomes (exec (.s2Entry w) s) s s.hw)

/-- S3_ENTRY of a ready module with every wing long in S2 and no work puts working memory in self-refresh, stops the network and
DRAM clocks, gives up the network's grants and narrows an up host link. S4_ENTRY after S4_IDLE puts idle flights in low power with
0.2 grains each and gives up the flash and landing grants. A trigger starts the waking of a sleeping wing with a runnable thread,
or of a module in S3 or S4, whose listening host link begins to widen. When the latency has passed a wing runs again, one from S2
with its running context's sets reloaded, and the module is in S0 with working memory out of self-refresh. In part this rests on
the model's own choices: log 3, log 16, log 68. (R20, R22, R39, R40, R41, R212, R453, R454, R500) -/
def Obligations.ModuleSleepAndWaking : Prop :=
  ∀ (s : State), let W := s.hw.wdn; let h0 := s.hw
    (W.ready = true → W.modState = 0 → W.s3en = true → h0.ffu.awake = false ∨ assigned h0 = false → wingsDeep h0 = true → h0.host.cmds = [] →
      (∀ x ∈ h0.probe.scans, x.ended = true) → mdmBusy h0 = false → h0.ffu.wait = [] → (∀ e ∈ h0.ffu.flights, e.2.replay = []) →
      Becomes (exec .s3Entry s) s ((List.range 64).foldl (fun h c => if (chan h c).state = 0 then modChan c (fun x => { x with state := 1 }) h else h) h0 |> fun h =>
        toListen (dropGrants [.netBase, .hlu, .ffu, .probe] { h with wdn := { h.wdn with
          modState := 3, modSince := now h, waking := false, pllNet := false, pllDram := false } }))) ∧
    (W.modState = 3 → W.waking = false → W.s4en = true → W.modSince + 100000000 * W.s4idle ≤ now h0 →
      Becomes (exec .s4Entry s) s ((List.range 64).foldl (fun h f => if (flight h f).state = 2 && (flight h f).replay.isEmpty then
          modWdn (fun w => { w with vserdes := w.vserdes.lower (.flight f) 2 }) (stateChanged f (modFlight f (fun x => { x with state := 3 }) h)) else h) h0 |> fun h =>
        dropGrants (.flashStanding :: (List.range 16).map .landing) { h with wdn := { h.wdn with modState := 4, modSince := now h, pllLanding := 0 } })) ∧
    (∀ k, k < 12 → let V := wing h0 k
      (V.sleep ≠ 0 → V.waking = false → V.retired = false → W.modState = 0 → wingRunnable h0 k = true →
        Becomes (exec (.wakeTrigger k) s) s (modWing h0 k (fun v => { v with waking := true, since := now h0 }))) ∧
      (V.waking = true → V.sleep = 1 → V.since + 20 ≤ now h0 →
        Becomes (exec (.domainWakeDone k) s) s (modWing h0 k (fun v => { v with sleep := 0, since := now h0, waking := false }))) ∧
      (V.waking = true → V.sleep = 2 → V.since + 4000 ≤ now h0 → Becomes (exec (.domainWakeDone k) s) s ((List.range 8).foldl (fun h i =>
        match galPart h (8 * k + i) with
        | none => h
        | some p => match (part h p).running with
          | some c => reloadSets (4 * p + c) (8 * k + i) h
          | none => h) (modWing h0 k (fun v => { v with sleep := 0, since := now h0, waking := false }))))) ∧
    (W.modState ≠ 0 → W.waking = false → let h1 := { h0 with wdn := { W with waking := true, modSince := now h0 } }
      (h0.host.link.state ≠ 3 → Becomes (exec (.wakeTrigger 12) s) s h1) ∧
      (h0.host.link.state = 3 → Becomes (exec (.wakeTrigger 12) s) s
        (grainRequest .hostPhy 0 { h1 with host := { h0.host with link := { h0.host.link with state := 4 } } }))) ∧
    (W.waking = true → W.modSince + (if W.modState = 3 then 60000 else 500000) ≤ now h0 → Becomes (exec (.domainWakeDone 12) s) s
      ((List.range 64).foldl (fun h c => if (chan h c).state = 1 then modChan c (fun x => { x with state := 0 }) h else h) h0 |> fun h =>
        { h with wdn := { h.wdn with modState := 0, modSince := now h, waking := false } }))

/-- At a scheduling point due in a partition that neither resets nor waits for a pre-emption, of its QUEUED and PREEMPTED contexts
the one of the highest class, the earliest submitted within it, runs when none runs, its recorded stationary loads reissued; while
one of a lower class runs a pre-emption begins when it is enabled; otherwise nothing but the due mark changes. An outgoing group
past its limit of counted cycles with no TDRAIN issued is abandoned and counted. Once no outgoing group is open the outgoing
context is PREEMPTED, its selections pause, and the first candidate runs. In part this rests on the model's own choices: log 3,
log 16. (R89, R325, R326, R327, R329, R341) -/
def Obligations.WhatRunsNext : Prop :=
  ∀ (p : Nat) (s : State), p < 8 → let P := part s.hw p; let h1 := modPart s.hw p (fun P => { P with schedDue := false })
    let mine := fun (h : Hw) (c : Nat) => 4 * p ≤ c ∧ c < 4 * p + 4 ∧ ((ctx h c).st = .queued ∨ (ctx h c).st = .preempted) ∧ (ctx h c).stopped = false
    let first := fun (h : Hw) (c : Nat) => mine h c ∧ ∀ d, mine h d → d ≠ c → (ctx h d).cls < (ctx h c).cls ∨
      (ctx h d).cls = (ctx h c).cls ∧ submitOrder h c < submitOrder h d
    let run := fun (c : Nat) (h : Hw) =>
      let h1 := modCtx (modPart h (c / 4) (fun P => { P with running := some (c % 4), switch := none, lends := P.lends.filter (fun l => l.ctx ≠ c) })) c
        (fun x => { x with st := .running, ranBefore := true })
      (partGals h1 (c / 4)).foldl (fun h g => if (wing h (g / 8)).sleep = 2 then h else reloadSets c g h) h1
    (P.schedDue = true → P.resetting = none → P.switch = none → let o := exec (.schedulingPoint p) s;
      ((∀ c, ¬mine s.hw c) → Becomes o s h1) ∧
      (∀ c, first s.hw c → P.running = none → Becomes o s (run c h1)) ∧
      (∀ c r, first s.hw c → P.running = some r →
        ((ctx s.hw (4 * p + r)).cls < (ctx s.hw c).cls → s.hw.jst.preemptEn = true → Becomes o s
          (modPart h1 p (fun P => { P with switch := some { incoming := c % 4, limit := min 6000000 (max 10000 s.hw.jst.groupLimit), counted := [] } }))) ∧
        ((ctx s.hw c).cls ≤ (ctx s.hw (4 * p + r)).cls ∨ s.hw.jst.preemptEn = false → Becomes o s h1))) ∧
    (P.schedDue = false ∨ P.resetting ≠ none ∨ P.switch ≠ none → Becomes (exec (.schedulingPoint p) s) s s.hw) ∧
    (∀ g w r G, g < 96 → galPart s.hw g = some p → P.switch = some w → P.running = some r → (gal s.hw g).group = some G →
      (w.limit ≤ tgetD w.counted g 0 → G.drainIssued = false → thrCtx s.hw { g, t := G.holder } = some (4 * p + r) →
        Becomes (exec (.groupLimitExpiry g) s) s (setJstEvt 0 p (abandonGroup (4 * p + r) g (saturated 32 (0x40180 + 4 * p) P.abandons (satAdd 32 P.abandons 1)
          (modPart s.hw p (fun P => { P with abandons := satAdd 32 P.abandons 1 })))))) ∧
      (tgetD w.counted g 0 < w.limit ∨ G.drainIssued = true → Becomes (exec (.groupLimitExpiry g) s) s s.hw)) ∧
    (P.switch = none → Becomes (exec (.preemptionSwitch p) s) s s.hw) ∧
    (∀ r w, P.switch = some w → P.running = some r →
      (openGroups s.hw (4 * p + r) ≠ [] → Becomes (exec (.preemptionSwitch p) s) s s.hw) ∧
      (∀ c, openGroups s.hw (4 * p + r) = [] →
        let h2 := modPart (modCtx ((partGals s.hw p).foldl (fun h g => pauseSel (4 * p + r) g h) s.hw) (4 * p + r) (fun x => { x with st := .preempted })) p
          (fun P => { P with running := none })
        let h3 := saturated 32 (0x40140 + 4 * p) P.preempts (satAdd 32 P.preempts 1)
          (modPart h2 p (fun Q => { Q with switch := none, preempts := satAdd 32 P.preempts 1, schedDue := true }))
        first h3 c → Becomes (exec (.preemptionSwitch p) s) s (run c h3)))

/-- LEND_START lends the thread of a PREEMPTED context that owns the semaphore the first queued thread that may run of another
context waits for, with that waiter's class, unless lends are disabled or that thread is lent. LEND_LIMIT_EXPIRY takes the waiters
that may run out of the queues of the owner's semaphores with SEM_LEND_TIMEOUT and ends the lend. CONTEXT_TEARDOWN of a stopped
context, unless its partition resets, ends its work, completes its job with JOB_FAULT and its fault record (CANCELLED without
one), leaves it LOADED and completes a cancel that waits. In part this rests on the model's own choices: log 3, log 74, log 75,
log 115. (R324, R330, R331, R332, R333, R334, R335, R338, R341, R483, R485) -/
def Obligations.LendsAndTeardown : Prop :=
  ∀ (p : Nat) (s : State), p < 8 → let P := part s.hw p
    (∀ n g t c w, n < 256 → (semOf s.hw p n).owner = some (g, t) → thrCtx s.hw { g, t } = some c → (ctx s.hw c).st = .preempted →
      (semOf s.hw p n).queue.find? (fun w => match thrCtx s.hw { g := w.1, t := w.2.1 } with
        | some d => mayRun s.hw d w.1 && d != c
        | none => false) = some w → let o := exec (.lendStart p n) s;
      (s.hw.jst.lendEn = true → (∀ l ∈ P.lends, ¬(l.g = g ∧ l.t = t)) → Becomes o s (modPart (saturated 16 (0x40204 + 0x10 * c) (ctx s.hw c).lends
          (satAdd 16 (ctx s.hw c).lends 1) (modCtx s.hw c (fun x => { x with lends := satAdd 16 (ctx s.hw c).lends 1 }))) p
        (fun Q => { Q with lends := Q.lends ++ [{ ctx := c, g, t, cls := w.2.2, since := now s.hw, limit := min 1000000 (max 100 s.hw.jst.lendLimit) }] }))) ∧
      (s.hw.jst.lendEn = false ∨ (∃ l ∈ P.lends, l.g = g ∧ l.t = t) → Becomes o s s.hw)) ∧
    (∀ g t l, g < 96 → t < 64 → P.lends.find? (fun l => l.g = g && l.t = t) = some l → let o := exec (.lendLimitExpiry p g t) s;
      let mine := fun (h : Hw) (w : Nat × Nat × Nat) => match thrCtx h { g := w.1, t := w.2.1 } with
        | some c => mayRun h c w.1 && c != l.ctx
        | none => false
      let h1 := P.sems.foldl (fun h e => if e.2.owner == some (g, t) then
          (e.2.queue.filter (mine s.hw)).foldl (fun h w => match (thread h { g := w.1, t := w.2.1 }).st with
            | .blocked (.sem _ d) => wake { g := w.1, t := w.2.1 } (fun T => T.setS d (stWord [(stLendTimeout, 0)])) h
            | _ => h) (modSem p e.1 (fun x => { x with queue := x.queue.filter (fun w => !mine s.hw w) }) h)
        else h) s.hw
      let k := (ctx h1 l.ctx).timeouts
      (l.since + 100 * l.limit ≤ now s.hw → Becomes o s (setJstEvt 1 p (modPart (saturated 16 (0x40204 + 0x10 * l.ctx) k (satAdd 16 k 1)
        (modCtx h1 l.ctx (fun x => { x with timeouts := satAdd 16 k 1 }))) p (fun Q => { Q with
          lends := Q.lends.filter (fun x => !(x.g = g && x.t = t)), schedDue := true })))) ∧
      (now s.hw < l.since + 100 * l.limit → Becomes o s s.hw)) ∧
    (∀ k, k < 4 → let c := 4 * p + k; let x := ctx s.hw c; let o := exec (.contextTeardown c) s;
      (x.stopped = false ∨ P.resetting ≠ none → Becomes o s s.hw) ∧
      (x.stopped = true → P.resetting = none → let r : FaultRec := x.fault.getD { cause := cCancelled, gallery := 0, thread := 0, pc := 0 }
        Becomes o s (setJstEvt 2 p (finishCancel c (endIncarnation c (modCtx (completeJob c stJobFault r false 0 (stopWork c s.hw)) c
          (fun x => { x with poolFree := List.range x.poolPages, poolPend := [] })))))) ∧
      ∀ h : Hw, (ctx (endIncarnation c h) c).st = .loaded ∧ (ctx (endIncarnation c h) c).stopped = false ∧ (ctx (endIncarnation c h) c).submit = none)

/-- JOB_LOAD asks the host for its manifest, and with it answers INVALID_FIELD for one that breaks the rules, the reason of the
first failed check of admission, or loads the manifest into the first FREE context, its work share in the lowest free frames.
JOB_SUBMIT of a LOADED context starts an incarnation and waits for its end. JOB_CANCEL frees a LOADED context with RELEASE, and
stops an incarnation with cause CANCELLED. Each answers BUSY while the partition resets, CONTEXT_STATE for a context in the wrong
state, INVALID_FIELD for a field out of range. JOB_STATUS answers the context's state word, progress and fault record. In part
this rests on the model's own choices: log 48, log 83, log 88, log 114, log 116. (R323, R324, R325, R329, R334, R338, R118, R121,
R483, R484, R485, R341) -/
def Obligations.JobCommands : Prop :=
  ∀ (q slot : Nat) (c : Cmd) (s : State), let H := begun c s.hw; let x := c.ctxNo; let X := ctx s.hw x
    (Due s.hw q slot (hasOp 0x40) c → let o := exec (.jobLoad q slot) s; let ok := c.zeros [(4, 4), (25, 39)] = true ∧ c.part < 8 ∧ 64 ≤ c.dataLen
      (¬ok → Becomes o s (endCmd c.id stInvalidField H)) ∧
      (ok → isResetting s.hw c.part = true → Becomes o s (endCmd c.id stBusy H)) ∧
      (ok → isResetting s.hw c.part = false →
        (dataOf c c.dataLen = none → Becomes o s (askData c c.dataLen H)) ∧
        (∀ d, dataOf c c.dataLen = some d →
          (manifestOf d c.dataLen = none → Becomes o s (endCmd c.id stInvalidField H)) ∧
          (∀ cx, manifestOf d c.dataLen = some cx → let free := (List.range 4).find? (fun i => (ctx s.hw (4 * c.part + i)).st = .free)
            (free = none → Becomes o s (finishCmd c.id { status := stRefusedAdm, result := 256 } H)) ∧
            (∀ i r, free = some i → admission H (4 * c.part + i) cx false = .error r →
              Becomes o s (finishCmd c.id { status := stRefusedAdm, result := 256 * r } H)) ∧
            (∀ i a, free = some i → admission H (4 * c.part + i) cx false = .ok a → let y := 4 * c.part + i
              Becomes o s (finishCmd c.id { status := stOk, result := i } (freshObjs y (modCtx H y (fun old => { a with
                st := .loaded, frames := takeFrames H (a.workBytes / 2097152), lends := old.lends, timeouts := old.timeouts }))))))))) ∧
    (Due s.hw q slot (hasOp 0x41) c → c.progress = 0 → let o := exec (.jobSubmit q slot) s; let hd := c.fld 28 2; let off := c.fld 32 8
      let ok := c.zeros [(4, 4), (16, 4), (27, 1), (30, 2), (40, 24)] = true ∧ c.part < 8 ∧ c.fld 25 1 < 4 ∧ off % 8 = 0
      let n := (part s.hw c.part).submits
      (¬ok → Becomes o s (endCmd c.id stInvalidField H)) ∧
      (ok → isResetting s.hw c.part = true → Becomes o s (endCmd c.id stBusy H)) ∧
      (ok → isResetting s.hw c.part = false →
        (X.st ≠ .loaded → Becomes o s (endCmd c.id stContextState H)) ∧
        (X.st = .loaded → progressOk s.hw x hd off = false → Becomes o s (endCmd c.id stInvalidField H)) ∧
        (X.st = .loaded → progressOk s.hw x hd off = true → Becomes o s (startIncarnation x (modCtx
          (setProgress c 1 (modPart H c.part (fun P => { P with submits := n + 1, schedDue := true }))) x (fun y => { y with
            submit := some { cmd := c.id, restartLimit := c.fld 26 1, progHandle := hd, progOff := off, order := n }, restarts := 0 })))))) ∧
    (Due s.hw q slot (hasOp 0x42) c → c.progress = 0 → let o := exec (.jobCancel q slot) s;
      let ok := c.zeros [(4, 4), (16, 4), (27, 37)] = true ∧ c.part < 8 ∧ c.fld 25 1 < 4 ∧ c.fld 26 1 < 2
      (¬ok → Becomes o s (endCmd c.id stInvalidField H)) ∧
      (ok → isResetting s.hw c.part = true → Becomes o s (endCmd c.id stBusy H)) ∧
      (ok → isResetting s.hw c.part = false →
        (X.st = .free → Becomes o s (endCmd c.id stContextState H)) ∧
        (X.st = .loaded → Becomes o s (endCmd c.id stOk (if c.fld 26 1 = 1 then freeContext x H else H))) ∧
        (X.st ≠ .free → X.st ≠ .loaded → X.cancel = none → let h1 := setProgress c 1 (modCtx (modPart H c.part (fun P => { P with
            switch := P.switch.filter (fun w => w.incoming ≠ x % 4) })) x (fun y => { y with cancel := some (c.id, c.fld 26 1 == 1) }))
          Becomes o s (if X.stopped = true then h1 else stopContext x { cause := cCancelled, gallery := 0, thread := 0, pc := 0 } h1)))) ∧
    (Due s.hw q slot (hasOp 0x43) c → let o := exec (.jobStatus q slot) s;
      let ok := c.zeros [(4, 4), (26, 38)] = true ∧ c.part < 8 ∧ c.fld 25 1 < 4
      let f : FaultRec := X.fault.getD { cause := 0, gallery := 0, thread := 0, pc := 0 }
      (¬ok → Becomes o s (endCmd c.id stInvalidField H)) ∧ (ok → X.st = .free → Becomes o s (endCmd c.id stContextState H)) ∧
      (ok → X.st ≠ .free → c.dataLen < 64 → Becomes o s (endCmd c.id stInvalidField H)) ∧
      (∀ n m, ok → X.st ≠ .free → 64 ≤ c.dataLen → (n, m) = (match X.submit with | some w => progressOf H x w.progHandle w.progOff | none => (0, 0)) →
        Becomes o s (endCmd c.id stOk (hostWrite c.addr 64 (bytesOf [(0, 4, ctxStateWord H x), (8, 8, n), (16, 8, m), (24, 1, f.cause), (25, 1, f.gallery),
          (26, 1, f.thread), (28, 8, f.pc)]) H))))

/-- SET_FEATURE(PARTITION) asks the host for its 128 bytes, and with them answers INVALID_FIELD for a descriptor with a reserved
field or one that clashes with another partition's, or begins to write the table's next root; the entry waits for it.
PARTITION_RESET by an entry resets the partition it names and answers OK, and changes nothing of another; without one the reset
follows for the cause that is due, and nothing changes when none is. After a reset the partition no longer resets, its next
scheduling point is due, and the reset is no longer due from boot. In part this rests on the model's own choices: log 3, log 88,
log 115, log 118, log 119. (R317, R318, R319, R320, R334, R336, R341, R439, R473) -/
def Obligations.PartitionCommands : Prop :=
  ∀ (q slot : Nat) (c : Cmd) (s : State), let H := begun c s.hw
    (Due s.hw q slot (setsFeature 0x20) c → s.hw.jst.newPart = none → let o := exec (.partition q slot) s;
      let ok := c.zeros [(4, 4), (26, 38)] = true ∧ c.fld 25 1 < 8 ∧ c.dataLen = 128
      (¬ok → Becomes o s (endCmd c.id stInvalidField H)) ∧ (ok → dataOf c 128 = none → Becomes o s (askData c 128 H)) ∧
      (∀ d, ok → dataOf c 128 = some d →
        (partDescOf d = none → Becomes o s (endCmd c.id stInvalidField H)) ∧
        (∀ x, partDescOf d = some x → partOk s.hw (c.fld 25 1) x = false → Becomes o s (endCmd c.id stInvalidField H)) ∧
        (∀ x, partDescOf d = some x → partOk s.hw (c.fld 25 1) x = true → Becomes o s (modMdm (fun M => { M with
            crit := tput M.crit 2 { critNow s.hw 2 with writing := some (s.hw.jst.root + 1) } })
          (modJst (fun j => { j with newPart := some (c.fld 25 1, x, c.id) }) H))))) ∧
    (∀ p bad wit other, p < 8 →
      (Due s.hw q slot (setsFeature 0x21) c → let o := exec (.partitionReset p (some (q, slot)) bad wit other) s;
        let ok := c.zeros [(4, 4), (16, 4), (26, 38)] = true ∧ c.fld 25 1 < 8
        (¬ok → Becomes o s (endCmd c.id stInvalidField H)) ∧ (ok → c.fld 25 1 ≠ p → Becomes o s H) ∧
        (ok → c.fld 25 1 = p → Becomes o s (endCmd c.id stOk (partReset p 0 bad wit other H)))) ∧
      (let o := exec (.partitionReset p none bad wit other) s;
        (∀ r, (part s.hw p).resetting = some r → Becomes o s (partReset p r.cause bad wit other s.hw)) ∧
        ((part s.hw p).resetting = none → p ∈ s.hw.boot.partDue → Becomes o s (partReset p 2 bad wit other s.hw)) ∧
        ((part s.hw p).resetting = none → p ∉ s.hw.boot.partDue → (∃ g ∈ partGals s.hw p, (gal s.hw g).partFault = true) →
          Becomes o s (partReset p 1 bad wit other s.hw)) ∧
        ((part s.hw p).resetting = none → p ∉ s.hw.boot.partDue → (∀ g ∈ partGals s.hw p, (gal s.hw g).partFault = false) → Becomes o s s.hw)) ∧
      ∀ cause h, let h1 := partReset p cause bad wit other h
        (part h1 p).resetting = none ∧ (part h1 p).schedDue = true ∧ p ∉ h1.boot.partDue)

/-- A cabled flight that holds its grains trains (not in ROM service) at width 4 with all lanes good, at width 2 with a good pair
(and its event), else stays in training. HELLO opens it to routed traffic unless the peer is the module itself or not the seat it
must reach, which mutes it with an event. Unacknowledged flits are replayed and counted; after 8 replays or a failed retrain it
retrains; after three failures or DISABLE it is lost, each request unacknowledged there answered NACK LOST. A low-power flight
comes up once it has its grains and asks for them before. A cable asks for the grains; without one the flight is off. In part this
rests on the model's own choices: log 3, log 5. (R494, R495, R496, R498, R500, R504, R515, R518, R578) -/
def Obligations.LifeOfAFlight : Prop :=
  ∀ (f : Nat) (s : State), f < 64 → let F := flight s.hw f; let h0 := s.hw; let id := h0.ffu.id
    (∀ lanes rtt, F.cable = true → F.disable = false → F.state ≠ 2 → 9 ≤ h0.wdn.vserdes.heldBy (.flight f) → h0.boot.stage ≠ 15 → let o := exec (.flightTraining f lanes rtt) s;
      let fresh := fun (x : Flight) => { x with rxNext := 0, txNext := 0, dropping := false, replay := [], used := [], replayRun := 0, retrainFails := 0, mute := true }
      let up := fun (st w : Nat) => stateChanged f (modFlight f (fun x => { fresh x with state := st, width := w, rtt }) h0)
      (lanes % 16 = 15 → Becomes o s (up 2 4)) ∧
      (lanes % 16 ≠ 15 → lanes % 4 = 3 ∨ lanes / 4 % 4 = 3 → Becomes o s (setFfuEvt 1 f (up 2 2))) ∧
      (lanes % 4 ≠ 3 → lanes / 4 % 4 ≠ 3 → Becomes o s (up 1 0))) ∧
    (∀ peer, let o := exec (.hello f peer) s; let mute := fun (b : Bool) => modFlight f (fun x => { x with peer, mute := b }) h0
      let seat := hallOf id * 32 + (if f = 31 then seatOf id ^^^ 1 else (seatOf id + f + 1) % 32)
      (id ≠ 0x3FFF → peer = id → Becomes o s (setFfuEvt 3 f (mute true))) ∧
      (id ≠ 0x3FFF → peer ≠ id → f < 32 → peer ≠ seat → Becomes o s (setFfuEvt 2 f (mute true))) ∧
      (id = 0x3FFF ∨ peer ≠ id ∧ (32 ≤ f ∨ peer = seat) → Becomes o s (mute false))) ∧
    (let o := exec (.flightReplayTimeout f) s;
      (F.replay = [] ∨ F.state ≠ 2 → Becomes o s h0) ∧
      (F.replay ≠ [] → F.state = 2 → Becomes o s (saturated 16 (0x20008 + f * 0x400) F.replays (satAdd 16 F.replays 1) (healthError 9 1
        (modFlight f (fun x => { x with replays := satAdd 16 F.replays 1, replayRun := x.replayRun + 1 }) h0))))) ∧
    (∀ ok, let o := exec (.flightRetrain f ok) s;
      let h1 := saturated 8 (0x20008 + f * 0x400) F.retrains (satAdd 8 F.retrains 1) (modFlight f (fun x => { x with retrains := satAdd 8 F.retrains 1 }) h0)
      (F.state ≠ 2 ∧ F.state ≠ 1 ∨ F.replayRun < 8 ∧ F.retrainFails = 0 → Becomes o s h0) ∧
      (F.state = 2 ∨ F.state = 1 → 8 ≤ F.replayRun ∨ F.retrainFails ≠ 0 → Becomes o s (if ok = true then
          modFlight f (fun x => { x with state := 2, replayRun := 0, retrainFails := 0, dropping := false }) h1
        else modFlight f (fun x => { x with state := 1, retrainFails := x.retrainFails + 1 }) h1))) ∧
    (let o := exec (.flightLost f) s;
      (F.state = 4 ∨ F.state = 0 ∨ F.retrainFails < 3 ∧ F.disable = false → Becomes o s h0) ∧
      (F.state ≠ 4 → F.state ≠ 0 → 3 ≤ F.retrainFails ∨ F.disable = true → Becomes o s (F.replay.foldl (fun h r =>
          if pktClass r.2.ty = 0 ∨ pktClass r.2.ty = 2 then reply r.2 0x83 0 2 h else h)
        (stateChanged f (setFfuEvt 0 f (modFlight f (fun x => { x with state := 4, width := 0, replay := [], used := [] }) h0)))))) ∧
    (let o := exec (.flightWake f) s;
      (F.state ≠ 3 → Becomes o s h0) ∧ (F.state = 3 → h0.wdn.vserdes.heldBy (.flight f) < 9 → Becomes o s (grainRequest (.flight f) 0 h0)) ∧
      (F.state = 3 → 9 ≤ h0.wdn.vserdes.heldBy (.flight f) → Becomes o s (stateChanged f (modFlight f (fun x => { x with state := 2 }) h0)))) ∧
    Becomes (exec (.cableDetect f true) s) s (grainRequest (.flight f) 0 (modFlight f (fun x => { x with cable := true }) h0)) ∧
    Becomes (exec (.cableDetect f false) s) s (grainRelease (.flight f) 0 (stateChanged f (modFlight f (fun x => { x with cable := false, state := 0, width := 0 }) h0))) ∧
    Becomes (exec (.cableSupplyOverload f) s) s (modFlight f (fun x => { x with supply := false }) h0)

/-- A flit on a flight that is up: an uncorrectable one is counted and starts dropping, one with a bad check or ahead of its turn
starts dropping, and an idle one meanwhile counts for nothing; one that had come before is ignored; a good one takes its
acknowledged messages out of the replay buffer and its credits back, and in sequence ends dropping, its whole message waiting in
the router of an assigned module. PACKET_FORWARD serves, of the waiting packets that can leave or have no way, the one of greatest
age, on equal age in round-robin order of the input flights of its output, class and channel: it goes out on its flight with its
age and credits used, to this module's service, is dropped, or is discarded with an event when its type is unknown. LINK_STATE
keeps a hall peer's up flights with their loads; the module's own go out when due. In part this rests on the model's own choices:
log 3, log 81, log 82, log 101, log 102. (R497, R498, R499, R501, R502, R503, R504, R505, R506, R518) -/
def Obligations.TrafficOfAFlight : Prop :=
  ∀ (s : State), let h0 := s.hw; let u := h0.ffu
    (∀ f x, f < 64 → let F := flight h0 f; let o := exec (.flightFlitReceive f x) s; let drop := fun (h : Hw) => modFlight f (fun y => { y with dropping := true }) h
      (F.state ≠ 2 → Becomes o s h0) ∧
      (F.state = 2 → x.fecBad = true → Becomes o s (saturated 8 (0x20008 + f * 0x400) F.fec (satAdd 8 F.fec 1)
        (modFlight f (fun y => { y with fec := satAdd 8 F.fec 1, dropping := true }) h0))) ∧
      (F.state = 2 → x.fecBad = false → x.good = false → Becomes o s (drop h0)) ∧
      (F.state = 2 → x.fecBad = false → x.good = true →
        let h1 := match x.ack with
          | none => h0
          | some a => modFlight f (fun y => let left := y.replay.filter (fun r => !decide ((a + 4096 - r.1) % 4096 < 2048))
              { y with replay := left, replayRun := if left.length = y.replay.length then y.replayRun else 0 }) h0
        let h2 := modFlight f (fun y => { y with used := tmod y.used x.crSel 0 (· - x.crCount) }) h1
        let h3 := modFlight f (fun y => { y with rxNext := (y.rxNext + 1) % 4096, dropping := false }) h2
        (x.idle = true → F.dropping = true → Becomes o s h0) ∧ (x.idle = true → F.dropping = false → Becomes o s h2) ∧
        (x.idle = false → x.seq ≠ F.rxNext → Becomes o s (if seqLe (x.seq + 1) F.rxNext then h0 else drop h0)) ∧
        (x.idle = false → x.seq = F.rxNext →
          (x.msg = none ∨ assigned h0 = false ∨ F.mute = true ∨ F.loop ≠ 0 → Becomes o s h3) ∧
          (∀ p, x.msg = some p → assigned h0 = true → F.mute = false → F.loop = 0 → Becomes o s (enqueuePkt { p with inFlight := f } h3))))) ∧
    (let o := exec .packetForward s; let age := fun (p : Packet) => min 0xFFFF (p.age + (now h0 - p.since) / 10)
      let key := fun (f : Nat) (r : Packet) => f * 16 + pktClass r.ty * 4 + pktVc r
      let turn := fun (p : Packet) => match hopOf h0 p with
        | some (f, r) => if f = 64 then 0 else (p.inFlight + 64 - tgetD u.turns (key f r) 64) % 65
        | none => 0
      let rank := fun (p : Packet) => 65 * age p + (64 - turn p)
      let can := fun (p : Packet) => p.inFlight ≠ 65 ∧ ∀ f r, hopOf h0 p = some (f, r) → f = 64 ∨ canSend (flight h0 f) r = true
      ((∀ p ∈ u.wait, ¬can p) → Becomes o s h0) ∧
      (∀ l1 p l2, u.wait = l1 ++ p :: l2 → can p → (∀ x ∈ l1, can x → rank x < rank p) → (∀ x ∈ l2, can x → rank x ≤ rank p) → p ∉ l1 →
        let h1 := { h0 with ffu := { u with wait := l1 ++ l2 } }
        (knownType p.ty = false → Becomes o s (setFfuEvt 5 0 h1)) ∧
        (knownType p.ty = true → hopOf h0 p = none → Becomes o s (dropPkt p (p.exit.isNone && decide (hallOf p.dest ≠ hallOf u.id)) h1)) ∧
        (∀ f r, knownType p.ty = true → hopOf h0 p = some (f, r) →
          (f = 64 → Becomes o s { h0 with ffu := { u with wait := l1 ++ l2 ++ [{ r with inFlight := 65 }] } }) ∧
          (f ≠ 64 → Becomes o s (transmit f { r with inFlight := 64, age := min 0xFFFF (r.age + (now h0 - r.since) / 10) }
            { h0 with ffu := { u with wait := l1 ++ l2, turns := tput u.turns (key f r) p.inFlight } }))))) ∧
    (∀ seat st, seat < 32 → Becomes (exec (.linkState seat st) s) s { h0 with ffu := { u with hall := tput u.hall seat ((List.range 32).filterMap (fun i =>
      if (st[i]?).getD 0 = 0 then none else some (i, (st[i]?).getD 0))) } }) ∧
    (∀ loads, let o := exec (.linkStatePeriodic loads) s; let own := (List.range 32).map (fun i => (i, (if carries h0 (32 + i) then 4 else 0) + (loads[i]?).getD 0 % 4))
      (assigned h0 = false ∨ u.linkDue = false ∧ now h0 - u.linkSent < 10000 → Becomes o s h0) ∧
      (assigned h0 = true → u.linkDue = true ∨ 10000 ≤ now h0 - u.linkSent → Becomes o s ((List.range 31).foldl (fun h f => if carries h f then
          let p : Packet := { dest := (flight h f).peer, src := h.ffu.id, ty := 0xC1, len := 16, body := own.foldl (fun a (e : Nat × Nat) => a + e.2 * 16 ^ e.1) 0 }
          if canSend (flight h f) p then transmit f p h else h
        else h) { h0 with ffu := { u with hall := tput u.hall (seatOf u.id) (own.filter (fun e => e.2 ≠ 0)), linkSent := now h0, linkDue := false } })))

/-- A request that meets no refusal of the owner's checks, else NACK with the refusal: READ answers its bytes in DATA packets of
at most 4,096, or UNCORRECTABLE; WRITE stores the bytes of its mask's lanes and ADD adds its mask's elements in order, answering
ACK, or NACK UNCORRECTABLE when a marked word is left; MAIL goes into the inbox of its thread when a slot is free and no earlier
mail for it is held, else into the context's store of 64, answering ACK, else NACK BUSY. A held message moves once its inbox has a
slot. With no such packet delivered nothing changes. In part this rests on the model's own choices: log 3, log 84. (R436, R509,
R510, R511, R512) -/
def Obligations.RemoteService : Prop :=
  ∀ (s : State), let c? := fun (p : Packet) => peerCtx p; let arg := fun (p : Packet) => (BitVec.ofNat 64 p.body : DWord)
    let size := fun (p : Packet) => p.body / 256 ^ 8 % 2 ^ 32; let mask := fun (p : Packet) => p.body / 256 ^ 16 % 2 ^ 128
    (takeDelivered 0x01 s.hw = none → Becomes (exec .remoteReadServe s) s s.hw) ∧ (takeDelivered 0x02 s.hw = none → Becomes (exec .remoteWriteServe s) s s.hw) ∧
    (takeDelivered 0x10 s.hw = none → Becomes (exec .remoteAddServe s) s s.hw) ∧ (takeDelivered 0x03 s.hw = none → Becomes (exec .mailServe s) s s.hw) ∧
    (∀ p h, takeDelivered 0x01 s.hw = some (p, h) → let o := exec .remoteReadServe s; let n := size p
      (∀ e, ownerCheck h p (arg p) n .r = .error e → Becomes o s (nack p e h)) ∧
      (∀ ob off, ownerCheck h p (arg p) n .r = .ok (ob, off) → let m := objMem h (objKey (c? p) ob 0); let h1 := dramAccess (c? p) 0 ob off n 3 false none h
        let data := fun (len st body : Nat) (h : Hw) =>
          enqueuePkt { dest := p.src, src := h.ffu.id, ty := 0x81, tag := p.tag, status := st, peer := p.peer, len, body } h
        (m.isBad 2 off n = true → Becomes o s (data 0 stUncorrectable 0 h1)) ∧
        (m.isBad 2 off n = false → Becomes o s ((List.range ((n + 4095) / 4096)).foldl (fun h i =>
          data (min 4096 (n - 4096 * i)) stOk (m.readLE (off + 4096 * i) (min 4096 (n - 4096 * i))) h) h1)))) ∧
    (∀ p h, takeDelivered 0x02 s.hw = some (p, h) → let o := exec .remoteWriteServe s; let n := size p
      (∀ e, ownerCheck h p (arg p) n .w = .error e → Becomes o s (nack p e h)) ∧
      (∀ ob off, n ≠ 64 → ownerCheck h p (arg p) n .w = .ok (ob, off) → let k := objKey (c? p) ob 0
        let ws := if n < 64 then bytesAt off n (p.body / 256 ^ 32)
          else (List.range n).filterMap (fun i => if (mask p).testBit (i * 128 / n) then some (off + i, byteOf (p.body / 256 ^ 32) i) else none)
        let r := (objMem h k).store 2 ws; let h1 := dramAccess (c? p) 0 ob off n 3 true none (modMem h k (fun _ => r.1))
        Becomes o s (if r.2 = true then nack p stUncorrectable h1 else reply p 0x82 stOk 0 h1))) ∧
    (∀ p h, takeDelivered 0x10 s.hw = some (p, h) → let o := exec .remoteAddServe s; let n := p.len - 32
      (∀ e, ownerCheck h p (arg p) n .w = .error e → Becomes o s (nack p e h)) ∧
      (∀ ob off, ownerCheck h p (arg p) n .w = .ok (ob, off) → let k := objKey (c? p) ob 0
        let adds := ((List.range (n / 4)).filter (fun j => (mask p).testBit j)).map (fun j => (4 * j, BitVec.ofNat 32 (p.body / 256 ^ 32 / 2 ^ (32 * j))))
        let r := addElems 2 (p.body / 256 ^ 8 % 256 = 1) off adds (objMem h k); let h1 := dramAccess (c? p) 0 ob off n 3 true none (modMem h k (fun _ => r.1))
        Becomes o s (if r.2 = true then nack p stUncorrectable h1 else reply p 0x82 stOk 0 h1))) ∧
    (∀ p h, takeDelivered 0x03 s.hw = some (p, h) → let o := exec .mailServe s; let c := c? p; let mb := p.body % 256; let X := ctx h c
      let msg : Msg := { len := p.len - 8, data := p.body / 256 ^ 8, remote := true, sg := 0, st := 0, srcModule := p.src }
      (h.wdn.voteSplit = true → Becomes o s (nack p stUnreachable h)) ∧
      (h.wdn.voteSplit = false → h.ffu.remoteEn = false ∨ X.st = .free → Becomes o s (nack p stRemoteRefused h)) ∧
      (h.wdn.voteSplit = false → h.ffu.remoteEn = true → X.st ≠ .free →
        (X.st = .resetting → Becomes o s (nack p stBusy h)) ∧
        (X.st ≠ .resetting → mailThread h c mb = none → Becomes o s (nack p stRemoteRefused h)) ∧
        (∀ th, X.st ≠ .resetting → mailThread h c mb = some th →
          let room := (thread h th).inbox.length < 4 ∧ ∀ x ∈ X.mailStore, mailThread h c x.1 ≠ some th
          (room → Becomes o s (reply p 0x82 stOk 0 (deliver th msg h))) ∧
          (¬room → X.mailStore.length < 64 → Becomes o s (reply p 0x82 stOk 0 (modCtx h c (fun x => { x with mailStore := x.mailStore ++ [(mb, msg)] })))) ∧
          (¬room → 64 ≤ X.mailStore.length → Becomes o s (nack p stBusy h))))) ∧
    (∀ c l1 x l2 th, c < 32 → (ctx s.hw c).mailStore = l1 ++ x :: l2 → x ∉ l1 → mailThread s.hw c x.1 = some th → (thread s.hw th).inbox.length < 4 →
      (∀ y ∈ l1, ∀ u, mailThread s.hw c y.1 = some u → 4 ≤ (thread s.hw u).inbox.length) →
      Becomes (exec (.mailStoreMove c) s) s (deliver th x.2 (modCtx s.hw c (fun y => { y with mailStore := l1 ++ l2 }))))

/-- DATA is gathered until its request's bytes are in; that, or a status, ends it, as ACK and RELEASE do. A drop sends again 5 us
later until the fourth, BUSY every 5 us; LOST and every other NACK end it. A due request goes out by a fresh route with a credit,
is counted after a drop, waits without one and ends REMOTE_UNREACHABLE with no route. One without an answer for REQ_MS ends.
ARRIVE counts a member for the current or next epoch at the root, or as halted, else is refused. CANCEL, or BAR_S at the root,
ends the current epoch with REMOTE_UNREACHABLE; BAR_S at a member ends its barrier and sends CANCEL. In part this rests on the
model's own choices: log 3, log 76, log 77, log 83. (R501, R506, R507, R508, R510, R512, R513, R514, R515, R516) -/
def Obligations.RequestsAndFabricBarriers : Prop :=
  ∀ (s : State), let now_ := now s.hw
    let put := fun (q : Req) (h : Hw) => modFfu (fun u => { u with reqs := u.reqs.map (fun x => if x.tag = q.tag then q else x) }) h
    (∀ p h r, takeDelivered 0x81 s.hw = some (p, h) → reqOf h p.tag = some r → let q := { r with data := r.data + p.body * 256 ^ r.got, got := r.got + p.len }
      Becomes (exec .remoteData s) s (if p.status ≠ stOk ∨ r.pkt.body / 256 ^ 8 % 2 ^ 32 ≤ q.got then endReq q p.status h else put q h)) ∧
    (∀ p h r, takeDelivered 0x82 s.hw = some (p, h) → reqOf h p.tag = some r → Becomes (exec .remoteAck s) s (endReq r stOk h)) ∧
    (∀ p h r, takeDelivered 0x84 s.hw = some (p, h) → reqOf h p.tag = some r → Becomes (exec .barrierRelease s) s (endReq r stOk h)) ∧
    (∀ p h r, takeDelivered 0x83 s.hw = some (p, h) → reqOf h p.tag = some r → let o := exec .nack s; let why := p.body % 256
      (why = 1 → 3 ≤ r.drops → Becomes o s (endReq r stUnreachable h)) ∧
      (why = 1 → r.drops < 3 → Becomes o s (put { r with drops := r.drops + 1, resend := some (now h + 500), dropped := true, busy := false } h)) ∧
      (why = 2 → Becomes o s (endReq r stUnreachable h)) ∧
      (why ≠ 1 → why ≠ 2 → p.status = stBusy → Becomes o s (put { r with resend := some (now h + 500), dropped := false, busy := true } h)) ∧
      (why ≠ 1 → why ≠ 2 → p.status ≠ stBusy → Becomes o s (endReq r p.status h))) ∧
    (∀ tag r t, reqOf s.hw tag = some r → r.resend = some t → t ≤ now_ → r.queued = false → let o := exec (.resendTimer tag) s; let h0 := s.hw
      let less := modFfu (fun u => { u with reqs := u.reqs.filter (fun x => x.tag ≠ tag) }) h0
      let n := satAdd 32 h0.ffu.resends 1
      let h1 := if r.dropped = true then saturated 32 0x30810 h0.ffu.resends n (modFfu (fun u => { u with resends := n }) h0) else h0
      (assigned h0 = false ∨ routes h0 r.pkt = [] → Becomes o s (endReq r stUnreachable h0)) ∧
      (assigned h0 = true → routes h0 r.pkt ≠ [] → pickRoute less r.ctx r.pkt = none → Becomes o s h0) ∧
      (∀ f q, assigned h0 = true → routes h0 r.pkt ≠ [] → pickRoute less r.ctx r.pkt = some (f, q) → Becomes o s (enqueuePkt (routed r.pkt q (routeExit h1 r.pkt f))
        (modFfu (fun u => { u with reqs := u.reqs.map (fun x => if x.tag = tag then { r with flight := some f, resend := none, dropped := false } else x) }) h1)))) ∧
    (∀ tag r, reqOf s.hw tag = some r → let o := exec (.requestTimeout tag) s; let late := r.since + 100000 * min 1000 (max 1 s.hw.ffu.reqMs)
      (late ≤ now_ → (∀ n, r.kind ≠ .arrive n) → (∀ p ∈ s.hw.ffu.wait, ¬(p.inFlight = 65 ∧ p.tag = tag ∧ pktClass p.ty = 1)) →
        Becomes o s (endReq r (if r.busy = true then stBusy else stUnreachable) (setFfuEvt 6 0 s.hw))) ∧
      (now_ < late ∨ (∃ n, r.kind = .arrive n) → Becomes o s s.hw)) ∧
    (∀ p h, takeDelivered 0x04 s.hw = some (p, h) → h.wdn.voteSplit = false → let o := exec .arrive s; let c := peerCtx p; let n := p.body % 16
      let e := p.body / 65536 % 65536; let good := (ctx h c).st ≠ .free ∧ rootOf h c = h.ffu.id ∧ p.src ∈ membersOf h c
      (¬good → Becomes o s (nack p stRemoteRefused h)) ∧ (good → (ctx h c).st = .resetting → Becomes o s (nack p stBusy h)) ∧
      (good → (ctx h c).st ≠ .resetting → p.body / 256 % 2 = 1 → Becomes o s ((List.range 16).foldl (fun h n => tryRelease c n h) (reply p 0x84 stOk 0
        (modRoot c 0 (fun r => { r with halted := if p.src ∈ r.halted then r.halted else r.halted ++ [p.src] }) h)))) ∧
      (good → (ctx h c).st ≠ .resetting → p.body / 256 % 2 = 0 → let cur := epochOf h c n
        (e ≠ cur → e ≠ (cur + 1) % 65536 → Becomes o s (nack p stRemoteRefused h)) ∧
        (e = cur ∨ e = (cur + 1) % 65536 → Becomes o s (rootArrive c n p.src e (modRoot c n (fun r => { r with tags := tput r.tags p.src p.tag }) h))))) ∧
    (let cut := fun (c n : Nat) (h : Hw) => endFabricBarrier c n (some stUnreachable) (advanceRoot c n (answerMembers c n 0x83 stUnreachable 0 h));
      (∀ p h, takeDelivered 0x05 s.hw = some (p, h) → let c := peerCtx p; let n := p.body % 16; let h1 := reply p 0x82 stOk 0 h
        let hit := rootOf h1 c = h1.ffu.id ∧ p.src ∈ membersOf h1 c ∧ p.body / 65536 % 65536 = epochOf h1 c n ∧ (ctx h1 c).st ≠ .free
        (hit → Becomes (exec .barrierCancel s) s (cut c n h1)) ∧ (¬hit → Becomes (exec .barrierCancel s) s h1)) ∧
      (∀ c n, c < 32 → n < 16 → let bar := 100000000 * min 3600 (max 1 s.hw.ffu.barS)
        (∀ t, tget (ctx s.hw c).arrived n = some t → t + bar ≤ now_ → let e := epochOf s.hw c n
          let h1 := endFabricBarrier c n (some stUnreachable) (modFfu (fun u => { u with reqs := u.reqs.filter (fun r => !(r.ctx = c && r.kind == .arrive n)) }) s.hw)
          Becomes (exec (.barrierTimeout c n) s) s (match issueReq c (.cancel n) (rootOf h1 c) 0x05 8 (n + 65536 * e) h1 with
            | .sent h _ => h
            | _ => h1)) ∧
        (∀ t, (rootRec s.hw c n).curSince = some t → t + bar ≤ now_ → (rootRec s.hw c n).cur ≠ [] → Becomes (exec (.rootBarrierTimeout c n) s) s (cut c n s.hw))))

/-- A bad flit on a landing link starts dropping; one out of sequence is ignored; one in sequence ends dropping, frees what it
acknowledges in the other direction and returns its credits. A flit unacknowledged for 1 us is replayed; after 8 replays, or a
failed retrain, the link retrains at the width its lanes allow. A class C or D operation that has waited its limit goes in front.
A pulse whose plane a class A or B read waits for is suspended if 200 us are left and it may be, and resumes when no read runs and
none waits or 500 us have passed. Units buffered 2 ms ago leave. A boot check makes the blocks of stopped pulses TORN or open as
before. In part this rests on the model's own choices: log 3, log 5, log 97, log 101, log 126, log 133. (R368, R369, R370, R375,
R376, R377, R383, R386, R388, R389, R390, R397) -/
def Obligations.LandingsAndDieSchedulers : Prop :=
  ∀ (s : State), let h0 := s.hw
    (∀ l up x, l < 16 → let L := landing h0 l; let o := exec (.landingFlitReceive l up x) s; let D := lndDir L up
      (L.lost = true → Becomes o s h0) ∧
      (L.lost = false → x.good = false → Becomes o s (modLanding l (fun L => setDir L up { lndDir L up with dropping := true }) h0)) ∧
      (L.lost = false → x.good = true → x.seq ≠ D.rxNext → Becomes o s h0) ∧
      (L.lost = false → x.good = true → x.seq = D.rxNext → Becomes o s (modLanding l (fun L =>
          let y := lndDir L (!up)
          let free := { y with
            replay := y.replay.filter (fun r => !seq12Le r.1 x.ack)
            replayRun := if y.replay.any (fun r => seq12Le r.1 x.ack) then 0 else y.replayRun
            used := tput y.used x.crSel (tgetD y.used x.crSel 0 - x.crCount) }
          setDir L (!up) (lndPump (!up) (now h0) y.wait { free with wait := [] }))
        (modLanding l (fun L => setDir L up { lndDir L up with dropping := false, rxNext := (x.seq + 1) % 4096 }) h0)))) ∧
    (∀ l up r rest, l < 16 → let L := landing h0 l; let o := exec (.landingReplayTimeout l up) s; let n := satAdd 16 L.replays 1
      (lndDir L up).replay = r :: rest →
      (L.lost = true ∨ now h0 - r.2.2 < 100 → Becomes o s h0) ∧
      (L.lost = false → 100 ≤ now h0 - r.2.2 → Becomes o s (modLanding l (fun L => setDir { L with replays := n } up (let x := lndDir L up;
        { x with replay := x.replay.map (fun y => (y.1, y.2.1, now h0)), replayRun := x.replayRun + 1 })) h0))) ∧
    (∀ l lanes, l < 16 → let L := landing h0 l; let o := exec (.landingLinkRetrain l lanes) s;
      let good := fun (x : LndDir) => { x with replayRun := if 2 ≤ lanes then 0 else x.replayRun }
      (L.lost = true ∨ L.dn.replayRun < 8 ∧ L.up.replayRun < 8 ∧ L.failRuns = 0 → Becomes o s h0) ∧
      (L.lost = false → 8 ≤ L.dn.replayRun ∨ 8 ≤ L.up.replayRun ∨ L.failRuns ≠ 0 → Becomes o s (modLanding l (fun L => { L with
        retrains := satAdd 8 (landing h0 l).retrains 1
        width := if 4 ≤ lanes then 4 else if 2 ≤ lanes then 2 else 0
        failRuns := if 2 ≤ lanes then 0 else L.failRuns + 1
        dn := good L.dn
        up := good L.up }) h0))) ∧
    (∀ c, c < 64 → let late := fun (cls limit : Nat) => h0.flash.ops.find? (fun o => o.die / 8 = c && o.cls = cls && o.waits && !o.front && decide (limit ≤ now h0 - o.since))
      (∀ o, late 2 100000 = some o → Becomes (exec (.classCWaitExpiry c) s) s (modOp o.id (fun o => { o with front := true }) h0)) ∧
      (∀ o, late 3 1000000 = some o → Becomes (exec (.classDWaitExpiry c) s) s (modOp o.id (fun o => { o with front := true }) h0))) ∧
    (∀ d p, d < 512 → p < 4 → let on := fun (f : FOp → Bool) => h0.flash.ops.find? (fun o => o.die = d && opPhys h0 o % 4 = p && f o)
      let n := satAdd 8 (fchan h0 (d / 8)).suspends 1
      (∀ o t, (landing h0 (d / 32)).suspendEn = true → h0.flash.ops.find? (fun o => o.die = d && opPhys h0 o % 4 = p && o.kind != .read && o.isRunning) = some o → o.st = .running t →
        let ran := o.ran + (now h0 - t)
        (∃ x ∈ h0.flash.ops, x.die = d ∧ x.kind = .read ∧ x.cls ≤ 1 ∧ x.waits = true ∧ opPhys h0 x % 4 = p) → ran + 20000 ≤ opTime o →
        o.suspends < (if o.kind = .erase then 16 else 4) → Becomes (exec (.programSuspend d p) s) s (modFchan (d / 8) (fun x => { x with suspends := n })
          (modOp o.id (fun o => { o with st := .suspended (now h0), ran, suspends := o.suspends + 1 }) h0))) ∧
      ((landing h0 (d / 32)).suspendEn = false → Becomes (exec (.programSuspend d p) s) s h0) ∧
      (∀ o t, on (fun o => o.isSuspended) = some o → o.st = .suspended t →
        (∀ x ∈ h0.flash.ops, x.die = d → x.kind = .read → opPhys h0 x % 4 = p → x.isRunning = false ∧ (50000 ≤ now h0 - t ∨ ¬(x.waits = true ∧ x.cls ≤ 1))) →
        Becomes (exec (.suspendResume d p) s) s (modOp o.id (fun o => { o with st := .running (now h0) }) h0))) ∧
    (∀ l, l < 16 → Becomes (exec (.readBufferExpiry l) s) s (modLanding l (fun L => { L with buf := L.buf.filter (fun b => decide (now h0 - b.since < 200000)) }) h0)) ∧
    (∀ l fresh, l < 16 → let L := landing h0 l; let o := exec (.landingBootCheck l fresh) s;
      let one := fun (d : Nat) (e : Nat × Blk) => (e.1, if e.2.erasing then eraseStopped e.2 else match e.2.inProg with
        | none => e.2
        | some p => if fresh.contains (d, e.1) then { e.2 with inProg := none, st := 1 } else progStopped e.2 p)
      (L.booted = true ∨ L.lost = true → Becomes o s h0) ∧
      (L.booted = false → L.lost = false → Becomes o s (modLanding l (fun L => { L with booted := true }) ((List.range 32).foldl (fun h i =>
        match tget h.flash.dies (32 * l + i) with
        | none => h
        | some _ => modDie (32 * l + i) (fun D => { D with blks := D.blks.map (one (32 * l + i)) }) h) h0)))) ∧
    (∀ d g, d < 512 → g < 36 → let S := calSet h0 d g; let L := landing h0 (d / 32); let o := exec (.calibrationIdleCheck d g) s;
      let pages := ((die h0 d).blks.filter (fun e => calGroup e.2 (now h0) = g && e.2.st != 0 && e.2.st != 3)).flatMap (fun e => e.2.pages.map (fun p => (e.1, p.1)))
      let h1 := modCal d g (fun S => { S with weekFrom := now h0, weekCw := 0 }) h0
      (L.calEn = false ∨ now h0 - S.weekFrom < 60480000000000 → Becomes o s h0) ∧
      (L.calEn = true → 60480000000000 ≤ now h0 - S.weekFrom → calWindow L ≤ S.weekCw ∨ pages = [] → Becomes o s h1) ∧
      (L.calEn = true → 60480000000000 ≤ now h0 - S.weekFrom → S.weekCw < calWindow L → pages ≠ [] →
        Becomes o s ((List.range (2 * calWindow L / 8)).foldl (fun h i => let p := (pages[i % pages.length]?).getD (0, 0)
          flashQueue { id := 0, die := d, cls := 3, kind := .read, win := false, blk := p.1, page := p.2, cws := List.range 8, owner := .calib g, since := 0 } h) h1)))

/-- A channel serves an operation that waited its limit, class B when one in four is due, else by class in order; a read starts, a
pulse starts once its grains are held and asks for them before, and a program that fails the program check ends with its status. A
read page serves every read of it that waits, unless a read brings its own levels. A re-read takes the codewords that now decode;
the fourth hands the rest to reconstruction, which succeeds when the row can and the check passes, else the read fails. A program
or erase changes its block, frees its grains and tells its owner. A lost landing or die ends its operations and marks its
superblocks. In part this rests on the model's own choices: log 3, log 5, log 32, log 34, log 37, log 39, log 96, log 98, log 111,
log 121. (R365, R367, R371, R375, R378, R380, R388, R389, R421, R432, R433, R435) -/
def Obligations.ReadsProgramsAndErases : Prop :=
  ∀ (s : State), let h0 := s.hw
    (∀ c, c < 64 → let o? := channelNext h0 c; let o := exec (.channelGrant c) s; let es := h0.flash.ops.filter (fun o => o.die / 8 = c && opEligible h0 o)
      (o? = none → Becomes o s h0) ∧ (∀ x, es.find? (fun o => o.front) = some x → o? = some x) ∧
      (∀ x, es.find? (fun o => o.front) = none → 3 ≤ (fchan h0 c).sinceB → es.find? (fun o => o.cls = 1) = some x → o? = some x) ∧
      (∀ k x, k < 4 → es.find? (fun o => o.front) = none → (fchan h0 c).sinceB < 3 → (∀ y ∈ es, k ≤ y.cls) → es.find? (fun o => o.cls = k) = some x → o? = some x) ∧
      (∀ x, o? = some x → let h1 := countGrant c x.cls h0
        (x.kind = .read → Becomes o s (opStart x h1)) ∧
        (x.kind = .erase → Becomes o s (if pulseGranted h1 x = true then opStart x h1 else askPulse x h1)) ∧
        (∀ e, x.kind = .program → progCheck (blk h1 x.die (opPhys h1 x)) x.page x.pslc = some e →
          Becomes o s (giveProgram x e (releasePulse x.die .program (dropOp x.id h1)))) ∧
        (x.kind = .program → progCheck (blk h1 x.die (opPhys h1 x)) x.page x.pslc = none →
          Becomes o s (if pulseGranted h1 x = true then opStart x h1 else askPulse x h1)))) ∧
    (∀ d p errs x, d < 512 → p < 4 → h0.flash.ops.find? (fun o => o.die = d && o.kind = .read && opPhys h0 o % 4 = p && o.isRunning) = some x →
      let same := h0.flash.ops.filter (fun y => y.die = d && y.kind = .read && y.id != x.id && y.waits && y.page = x.page && opPhys h0 y = opPhys h0 x &&
        !ownLevels h0 x && !ownLevels h0 y)
      let h1 := lndSend (d / 32) true 1 (29 * x.cws.length) (lndSend (d / 32) true 0 1 h0)
      Becomes (exec (.flashReadDone d p errs) s) s ((x :: same).foldl (fun h y =>
        let y := if y.id = x.id then y else { y with group := x.group, ver := x.ver, probe := x.probe, again := x.again, pslc := x.pslc }
        readPage y errs (modOp y.id (fun _ => y) h)) h1)) ∧
    (∀ id left x n, flashOp h0 id = some x → x.st = .tier2 n → let o := exec (.tier2Reread id left) s; let p := opPhys h0 x
      let pg : FPage := tgetD (blk h0 x.die p).pages x.page { data := 0 }
      let fails := if n = 0 then x.fails else x.fails.filter (fun c => left.contains c || pg.bad.contains c)
      let fixed := x.fails.filter (fun c => !fails.contains c)
      let h1 := fixed.foldl (fun h c => healthError 1 1 (logEvent 5 (flashAddr x.die p x.page c) false h)) h0
      let h2 := if fixed = [] then h1 else modBlk x.die p (fun B => judgeBlk h1 (n + 1) { B with t2 := B.t2 + fixed.length }) h1
      (fails = [] → Becomes o s (giveRead x (some pg.data) (dropOp id h2))) ∧
      (fails ≠ [] → n + 1 < 4 → Becomes o s (modOp id (fun o => { o with st := .tier2 (n + 1), fails }) h2)) ∧
      (∀ cmd, fails ≠ [] → 3 ≤ n → x.owner = .raw cmd → Becomes o s (endCmd cmd stUncorrectable (setDiuEvt 0 (dropOp id h2)))) ∧
      (∀ cmd i, fails ≠ [] → 3 ≤ n → x.owner = .unit cmd i → Becomes o s (modOp id (fun o => { o with st := .tier3, fails }) h2))) ∧
    (∀ id bad x k b S y, flashOp h0 id = some x → x.st = .tier3 → logicalBlk (die h0 x.die) (opPhys h0 x) = some b → memberOf h0.mdm.map x.die b = some k →
      tget h0.mdm.map.sbs k.1 = some S → S.zone = false → let ds := dieSet x.die
      flashPage h0 x.die (memberAt h0.mdm.map k.1 ds.2).2 x.page = some y → setDie ds.1 ds.2 = x.die →
      let out := (inSvc S).filter (fun q => q ≠ ds.2 && (bad.contains q || dieOut h0 (setDie ds.1 q)))
      let h1 := x.fails.foldl (fun h c => healthError 2 1 (logEvent 5 (flashAddr x.die (opPhys h0 x) x.page c) false h)) h0
      (out.length ≤ 1 → (∀ c ∈ x.fails, c ∉ y.bad) → Becomes (exec (.tier3Reconstruct id bad true) s) s (giveRead x (some y.data) (dropOp x.id
        (modBlk x.die (opPhys h0 x) (fun B => judgeBlk h1 0 { B with t3 := B.t3 + 1 }) h1)))) ∧
      (∀ ok, 2 ≤ out.length ∨ ok = false → Becomes (exec (.tier3Reconstruct id bad ok) s) s (giveRead x none (healthError 3 1 (setDiuEvt 0 (dropOp id h0)))))) ∧
    (∀ d p ok x, d < 512 → p < 4 → h0.flash.ops.find? (fun o => o.die = d && o.kind = .program && opPhys h0 o % 4 = p && o.isRunning) = some x →
      let h1 := lndSend (d / 32) true 0 1 (releasePulse d .program (dropOp x.id (modBlk d (opPhys h0 x) (fun B => progDone B x.page x.data ok (now h0)) h0)))
      let h2 := if ok = false then h1 else if x.pslc = true then countUp 32 8 (fun M => M.unitsPslc) (fun v M => { M with unitsPslc := v }) h1
        else countUp 24 8 (fun M => M.units4) (fun v M => { M with units4 := v }) h1
      Becomes (exec (.flashProgramDone d p ok) s) s (giveProgram x (if ok = true then stOk else 0xAB) h2)) ∧
    (∀ d ok x, d < 512 → h0.flash.ops.find? (fun o => o.die = d && o.kind = .erase && o.isRunning) = some x →
      let h1 := lndSend (d / 32) true 0 1 (releasePulse d .erase (dropOp x.id (modBlk d (opPhys h0 x) (fun B => eraseDone B ok) h0)))
      Becomes (exec (.flashEraseDone d ok) s) s (giveErase x ok (opPhys h0 x) (if ok = true then countErase d h1 else h1))) ∧
    (∀ l fatal, l < 16 → let L := landing h0 l; let o := exec (.landingLost l fatal) s;
      (L.lost = true ∨ fatal = false ∧ L.failRuns < 3 → Becomes o s h0) ∧
      (L.lost = false → fatal = true ∨ 3 ≤ L.failRuns → Becomes o s ((List.range 32).foldl (fun h i => dieGone (32 * l + i) h)
        (modLanding l (fun L => { L with lost := true, width := 0, buf := [] }) h0)))) ∧
    (∀ d, d < 512 → Becomes (exec (.dieOutOfService d true) s) s (dieGone d (modDie d (fun D => { D with lost := true }) h0)) ∧
      (dieOut h0 d = true → Becomes (exec (.dieOutOfService d false) s) s (dieGone d h0)) ∧ (dieOut h0 d = false → Becomes (exec (.dieOutOfService d false) s) s h0))

/-- Both copies of a landing-zone page being programmed forms its records, once they lie in their command's window. When a copy
fails, its block joins the grown-defect list, the superblock closes, units of completed commands are dropped and the others go to
a new page. The forming journal page is programmed next; the page with the lowest number not yet durable becomes durable: the map
is then its records applied in order, the count moves on and its commands hear of it. A tally settles when no unit is pending. A
checkpoint due copies the map into the area the root does not name; the root names it and pages older than its SEQ go. A spoiled
piece is held until its reload gives what the checkpoint and journal give. In part this rests on the model's own choices: log 3,
log 5, log 36, log 85, log 87, log 89, log 92. (R408, R409, R410, R412, R413, R414, R415, R418, R490, R492, R541) -/
def Obligations.JournalAndMap : Prop :=
  ∀ (s : State), let h := s.hw; let M := h.mdm; let lz := fun (f : List LzPage → List LzPage) (h : Hw) => { h with mdm := { h.mdm with lzPages := f h.mdm.lzPages } }
    (∀ id p, M.lzPages.find? (fun p => p.id = id && p.copies.all (fun c => c == 1)) = some p → let o := exec (.lzPageProgrammed id) s;
      (p.recs.all (inWindow h) = true → Becomes o s (lz (fun l => l.filter (fun x => x.id ≠ p.id)) (p.recs.foldl (fun h r => addRec r h) h))) ∧
      (p.recs.all (inWindow h) = false → Becomes o s (lz (fun l => l.map (fun x => if x.id = id then { x with ready := true } else x)) h))) ∧
    (∀ id p, M.lzPages.find? (fun p => p.id = id && p.copies.contains 2 && !p.copies.contains 0) = some p →
      let o := exec (.lzCopyFail id) s;
      let cs := pageCopies M.map p.sb p.page
      let h1 := (List.range cs.length).foldl (fun h i => let x := (cs[i]?).getD (0, 0, 0)
        if (p.copies[i]?).getD 0 = 2 ∧ !dieDead h x.1 then growDefect x.1 (physOf (die h x.1) x.2.1) h else h) h
      let live := fun (r : JRec) => match r.whom with
        | .units c _ _ => (writing h1 c).isSome
        | _ => true
      let h2 := p.recs.foldl (fun h r => if live r then h else match r.whom with
        | .units c i n => tallyUnits c i n 0 h
        | _ => h) h1
      let h3 := modMap (fun M => { M with sbs := match tget M.sbs p.sb with
        | some S => tput M.sbs p.sb { S with st := max 2 S.st, evict := true }
        | none => M.sbs }) h2
      let gone := lz (fun l => l.filter (fun x => x.id ≠ id))
      let move := fun (sb j : Nat) (e : MapEnt) => match e with
        | .located _ _ pg u => MapEnt.located true sb (j + (pg - p.page)) u
        | e => e
      (p.recs.filter live = [] → Becomes o s (gone h3)) ∧
      (∀ sb j h4, p.recs.filter live ≠ [] → takeLz true h3 = some ((sb, j), h4) → Becomes o s (lzWrite sb j p.data ((p.recs.filter live).map (fun r => match r.chg with
        | .map v l n e o w => { r with chg := .map v l n (move sb j e) o w }
        | .list v l q x o => { r with chg := .list v l q { x with loc := move sb j x.loc } o }
        | _ => r)) (gone h4)))) ∧
    (∀ P, M.forming = some P → h.wdn.voteSplit = false → Becomes (exec .journalPageStart s) s
      { h with mdm := { M with journal := M.journal ++ [{ P with programming := true }], forming := none } }) ∧
    (∀ P, M.journal.find? (fun P => P.seq = M.jdone) = some P → P.programming = true → h.wdn.voteSplit = false → let o := exec .journalPageDurable s;
      let h1 := P.recs.foldl (fun h r => changeSeen r.chg (modMap (fun M => applyChange M r.chg) h)) h
      let h2 := P.recs.foldl (fun h r => match r.whom with
        | .units c i n => unitsDurable c i n h
        | .append s k => appendDurable s k h
        | .volume c => endCmd c stOk h
        | .none => h) { h1 with mdm := { h1.mdm with jdone := P.seq + 1 } }
      Becomes o s (formReady h2) ∧
      Yields o s (fun h' => h'.mdm.map = P.recs.foldl (fun m r => applyChange m r.chg) M.map ∧ h'.mdm.jdone = M.jdone + 1)) ∧
    (∀ q cid, Becomes (exec (.tallySettle q cid) s) s { h with host := { h.host with tallies := h.host.tallies.map (fun t =>
      if t.q = q ∧ t.cid = cid ∧ !t.settled ∧ t.map.all (fun s => s != 2) then { t with settled := true, settledAt := now h } else t) } }) ∧
    (let o := exec .checkpointStart s;
     let n := (M.journal.filter (fun P => P.seq < M.jdone)).length
     let due := max 64 (min 4096 M.jmib) * 32 ≤ n ∨ (1 ≤ n ∧ max 60 M.interval * 100000000 ≤ now h - M.ckptAt)
     let k : Ckpt := { map := M.map, seq := M.jdone, gen := M.gen + 1, done := true }
     (¬ due → Becomes o s h) ∧
     (due → h.wdn.voteSplit = false → M.gen % 2 = 0 → Becomes o s { h with mdm := { M with ckptB := some k, ckptAt := now h } }) ∧
     (due → h.wdn.voteSplit = false → M.gen % 2 = 1 → Becomes o s { h with mdm := { M with ckptA := some k, ckptAt := now h } })) ∧
    (∀ k, (if M.gen % 2 = 0 then M.ckptB else M.ckptA) = some k → k.done = true → k.gen = M.gen + 1 → h.wdn.voteSplit = false →
      let v := some (rootVal (k.gen % 2) k.gen k.seq)
      Becomes (exec .mapRootWrite s) s { h with mdm := { M with gen := k.gen, crit := tput M.crit 1 { copies := [v, v, v] }, journal := M.journal.filter (fun P => k.seq ≤ P.seq) } }) ∧
    (∀ p, (M.pieces.contains p = false → Becomes (exec (.mapPieceReload p false) s) s (setMdmEvt 4 { h with mdm := { M with pieces := M.pieces ++ [p] } })) ∧
      (M.pieces.contains p = true → Becomes (exec (.mapPieceReload p true) s) s
        { h with mdm := { M with map := { replayed M with sbs := M.map.sbs }, pieces := M.pieces.filter (fun x => x ≠ p) } }))

/-- When a die set has fewer free superblocks than START, a superblock marked evict with the fewest valid units is copied, else
the full 4-bit one with the fewest, the lower number on a tie; urgently below URGENT. A full landing-zone superblock whose pages
are settled is copied too. A row read back clean is journalled and the copy goes on; positions that do not decode are programmed
again. A row whose program fails has its block replaced by a loose one and the page programmed again; with none, the destination
closes and is evicted. A victim with no valid unit, no record pending and no read is erased, and is free when no member is left to
erase. A list row 10 ms old, or that gets no more, is made up with void pages. In part this rests on the model's own choices: log
3, log 5, log 35, log 93, log 94, log 100. (R404, R407, R409, R411, R416, R417, R418, R419, R430, R435) -/
def Obligations.CopiesAndErases : Prop :=
  ∀ (s : State), let h := s.hw; let M := h.mdm
    (∀ k, k < 16 → let o := exec (.reclaimStart k) s;
      let all := M.map.sbs.filter (fun e => e.1 / 7427 = k && e.2.st != 3 && !M.reclaims.any (fun r => r.victim = e.1))
      let ev := all.filter (fun e => e.2.evict)
      let cand := if ev = [] then all.filter (fun e => !e.2.zone && e.2.st = 2) else ev
      (max 2 M.start ≤ freeCount M.map k → Becomes o s h) ∧
      (freeCount M.map k < max 2 M.start → h.wdn.voteSplit = false → cand ≠ [] → ∃ e, e ∈ cand ∧ (∀ x, x ∈ cand → validUnits M.map e.1 ≤ validUnits M.map x.1) ∧
        (M.map.sbs.Pairwise (fun a b => a.1 < b.1) → ∀ x, x ∈ cand → validUnits M.map x.1 = validUnits M.map e.1 → e.1 ≤ x.1) ∧
        Becomes o s (beginCopy e.1 (decide (freeCount M.map k < reclaimUrgent M)) h))) ∧
    (∀ sb S, sb < 118832 → tget M.map.sbs sb = some S → let o := exec (.lzDestage sb) s;
      (S.zone = false ∨ S.st < 2 → Becomes o s h) ∧
      (S.zone = true → 2 ≤ S.st → M.lzPages.any (fun p => p.sb = sb) = false → h.wdn.voteSplit = false → Becomes o s (beginCopy sb false h))) ∧
    (∀ id sb bad d S r, destOf h id sb = some d → tget M.map.sbs sb = some S → d.row = some r → let o := exec (.reclaimRowVerify id sb bad) s;
      let n := max 1 ((inSvc S).length - 2)
      let js := (List.range n).map (fun i => r * n + i)
      let recs := js.flatMap (fun j => pageRecs sb j M.jseq (tgetD d.pend j .void))
      (d.failed ≠ [] ∨ (inSvc S).all (fun p => d.done.contains p) = false → Becomes o s h) ∧
      (d.failed = [] → (inSvc S).all (fun p => d.done.contains p) = true → h.wdn.voteSplit = false →
        (bad ≠ [] → Becomes o s (modDest id sb (fun d => { d with failed := bad, done := d.done.filter (fun p => !bad.contains p) }) h)) ∧
        (bad = [] → Becomes o s (fill id (modDest id sb (fun d => { d with pend := d.pend.filter (fun e => !js.contains e.1), row := none, done := [] })
          (recs.foldl (fun h x => addRec (keepCount h.mdm.map x) h) h)))))) ∧
    (∀ id r S, reclaimOf h id = some r → tget M.map.sbs r.victim = some S → r.erasing = none → validUnits M.map r.victim = 0 → pendingFrom h r.victim = false →
      r.dests.any (fun d => d.row.isSome) = false → h.wdn.voteSplit = false → let o := exec (.victimErase id) s;
      let ps := (inSvc S).filter (fun p => !dieDead h (setDie (r.victim / 7427) p) && !owned h (setDie (r.victim / 7427) p))
      let reads := h.flash.ops.any (fun o => o.kind = .read && o.win && (inSvc S).any (fun p => memberAt M.map r.victim p = (o.die, o.blk)))
      (reads = true → Becomes o s h) ∧
      (reads = false → ps = [] → Becomes o s (freeSb id r.victim h)) ∧
      (reads = false → ps ≠ [] → Becomes o s (ps.foldl (fun h p =>
        flashQueue { id := 0, die := (memberAt h.mdm.map r.victim p).1, cls := if r.urgent then 2 else 3, kind := .erase, win := true
                     blk := (memberAt h.mdm.map r.victim p).2, owner := .victim id p, since := 0 } h)
        (modReclaim id (fun r => { r with erasing := some ps }) h)))) ∧
    (∀ id sb d r pos rest, destOf h id sb = some d → d.row = some r → d.failed = pos :: rest → let o := exec (.rowProgramFail id sb) s;
      let x := memberAt M.map sb pos
      let h1 := if dieDead h x.1 then h else growDefect x.1 (physOf (die h x.1) x.2) h
      let spare := if dieOut h1 x.1 then none else looseBlock h1 x.1
      (∀ new, spare = some new → let h2 := modDest id sb (fun d => { d with failed := rest }) (substitute sb pos new r h1)
        ∀ S, tget h2.mdm.map.sbs sb = some S → let dm := dataMembers S r
        let ds := (List.range dm.length).map (fun q => copyPage h2 (tgetD d.pend (r * dm.length + q) .void))
        let ns := ds.map (fun (y : FPage) => y.data)
        let data : FPage := match dm.findIdx? (fun p => p == pos) with
          | some q => (ds[q]?).getD { data := 0 }
          | none => if (inSvc S)[(parityOf (max 1 (inSvc S).length) r).1]? = some pos then { data := parityP ns } else { data := parityQ ns }
        Becomes o s (flashQueue { id := 0, die := x.1, cls := if ((reclaimOf h2 id).map (fun R => R.urgent)).getD false then 2 else 3, kind := .program, win := true
                                  blk := new, page := r, data, owner := .row id sb, since := 0 } h2)) ∧
      (spare = none → let keys := d.pend.flatMap (fun (e : Nat × PageW) => match e.2 with
          | .units us _ => us.filterMap (fun u => u.map (fun (x : CopyUnit) => (x.vol, x.lba, 0)))
          | .list v l p _ => [(v, l, p + 1)]
          | .void => [])
        let h2 := modMap (fun M => { M with sbs := match tget M.sbs sb with
          | some S => tput M.sbs sb { S with voids := S.voids ++ d.pend.map (fun (e : Nat × PageW) => e.1) }
          | none => M.sbs }) h1
        let h3 := evictSb sb { h2 with flash := { h2.flash with ops := h2.flash.ops.filter (fun o => !(o.owner == .row id sb && o.waits)) } }
        Becomes o s (fill id (modReclaim id (fun R => { R with dests := R.dests.filter (fun x => x.sb ≠ sb), taken := R.taken.filter (fun t => !keys.contains t) }) h3)))) ∧
    (∀ id sb R d S, reclaimOf h id = some R → destOf h id sb = some d → tget M.map.sbs sb = some S → d.row = none → d.pend ≠ [] → let o := exec (.voidPageFill id sb) s;
      let n := max 1 ((inSvc S).length - 2)
      let miss := ((List.range n).map (fun i => (d.pend.head?.map (fun e => e.1 / n)).getD 0 * n + i)).filter (fun j => (tget d.pend j).isNone)
      (now h - d.since < 1000000 → leftIn h R ≠ [] → Becomes o s h) ∧
      (1000000 ≤ now h - d.since ∨ leftIn h R = [] → Becomes o s (fill id (miss.foldl (fun h j => destPut id sb j .void h)
        (modMap (fun M => { M with sbs := tput M.sbs sb { S with voids := S.voids ++ miss } }) (usePages sb miss h))))))

/-- The block that a wear-window move empties, or one past a retirement limit, gives its pages to a loose block; past the refresh
limit it is then erased, past the retire limit it joins the grown-defect list. Before a die returns, each superblock with a member
on it is copied; then its blocks are erased. A due advance names the block before the gap as moving, unless it is open, and erases
the gap block unless it is erased or retired; once the moving block is empty the gap moves there, the window turning by one after
7,452 moves. A nailed span that is one chunk again and idle gets its fold recorded; over the budget the span written least
recently is rewritten whole in the landing zone. In part this rests on the model's own choices: log 3, log 5, log 90, log 93, log
96. (R380, R381, R382, R409, R412, R419, R420, R421, R435) -/
def Obligations.BlocksAndNails : Prop :=
  ∀ (s : State), let h := s.hw; let M := h.mdm
    (∀ d b, d < 512 → b < 7451 → let o := exec (.memberSubstitution d b) s; let p := physOf (die h d) b; let B := blk h d p; let mv := decide ((die h d).moving = some b)
      (mv = false ∧ B.limit = 0 ∨ B.st = 1 ∨ dieOut h d = true → Becomes o s h) ∧
      (∀ sb pos new, mv = true ∨ B.limit ≠ 0 → B.st ≠ 1 → dieOut h d = false → h.wdn.voteSplit = false → memberOf M.map d b = some (sb, pos) → looseBlock h d = some new →
        let h1 := substitute sb pos new B.next h
        (B.limit = 2 → Becomes o s (growDefect d p h1)) ∧
        (B.limit = 1 → Becomes o s (flashQueue { id := 0, die := d, cls := 3, kind := .erase, win := false, blk := p, owner := .spare, since := 0 }
          (modBlk d p (fun B => { B with refreshedAt := some B.wear }) h1))) ∧
        (B.limit = 0 → Becomes o s h1))) ∧
    (∀ d, d < 512 → let o := exec (.dieRebuild d) s;
      let mine := fun (e : Nat × Sblk) => e.1 / 7427 = (dieSet d).1 && e.2.inSvc.getLsbD (dieSet d).2 && e.2.st != 3
      ((die h d).rebuild = false → Becomes o s h) ∧
      ((die h d).rebuild = true → owned h d = false → dieDead h d = false → h.wdn.voteSplit = false →
        (∀ e, M.map.sbs.find? (fun e => mine e && !M.reclaims.any (fun r => r.victim = e.1)) = some e → Becomes o s (beginCopy e.1 false h)) ∧
        (M.map.sbs.any mine = false → Becomes o s (modDie d (fun D => { D with rebuild := false, blks := D.blks.map (fun e => match logicalBlk D e.1 with
          | some b => if 24 ≤ b && !e.2.retired && e.2.st != 0 then (e.1, eraseDone e.2 true) else e
          | none => e) }) h)))) ∧
    (∀ d, d < 512 → let o := exec (.wearWindowAdvance d) s; let D := die h d; let p := if D.gap = 0 then 7451 else D.gap - 1
      (D.due = 0 ∨ D.moving ≠ none → Becomes o s h) ∧
      (∀ b, D.due ≠ 0 → D.moving = none → dieDead h d = false → logicalBlk D p = some b →
        let G := blk h d D.gap; let h1 := modDie d (fun D => { D with moving := some b, due := D.due - 1 }) h
        ((blk h d p).st = 1 → Becomes o s h) ∧
        ((blk h d p).st ≠ 1 → G.retired = true ∨ G.st = 0 → Becomes o s h1) ∧
        ((blk h d p).st ≠ 1 → G.retired = false → G.st ≠ 0 →
          Becomes o s (flashQueue { id := 0, die := d, cls := 3, kind := .erase, win := false, blk := D.gap, owner := .spare, since := 0 } h1)))) ∧
    (∀ d b, d < 512 → (die h d).moving = some b → let o := exec (.wearWindowCommit d) s; let G := blk h d (die h d).gap
      (blockUsed M.map d b = true ∨ G.retired = false ∧ G.st ≠ 0 → Becomes o s h) ∧
      (blockUsed M.map d b = false → G.retired = true ∨ G.st = 0 → Becomes o s (modDie d (fun D =>
        if D.gap = 0 then { D with gap := 7451, offset := (D.offset + 1) % 7451, moving := none } else { D with gap := D.gap - 1, moving := none }) h))) ∧
    (∀ vol span t, spanEnt M.map vol span = .nailed t → let o := exec (.nailFold vol span) s; let one := ((tget M.map.nails t).bind chunkOf).isSome
      (spanIdle h vol span = false ∨ one = false → Becomes o s h) ∧
      (spanIdle h vol span = true → one = true → h.wdn.voteSplit = false → Becomes o s (addRec { chg := .fold vol span } h))) ∧
    (let o := exec .nailBudgetFold s; let at_ := fun (N : Nail) => tgetD M.spanAt (N.vol * 2 ^ 32 + N.span) 0
      (nailBytes M.map ≤ min 2000 M.budget * 1000000000 → Becomes o s h) ∧
      (∀ t N, min 2000 M.budget * 1000000000 < nailBytes M.map → h.wdn.voteSplit = false → (t, N) ∈ M.map.nails →
        (∀ e, e ∈ M.map.nails → e ≠ (t, N) → at_ N < at_ e.2) → ∀ sb j h1, takeLz true h = some ((sb, j), h1) →
        let h2 := { h1 with mdm := { h1.mdm with lz := { h1.mdm.lz with half := none } } }
        let us := (List.range 16).map (fun i => ({ vol := N.vol, lba := 16 * N.span + i, old := unitEnt h2.mdm.map N.vol (16 * N.span + i) } : CopyUnit))
        let page := fun (k : Nat) (h : Hw) => let l := (us.drop (8 * k)).take 8
          lzWrite sb (j + k) (copyPage h (.units (l.map some) true)).data ((List.range l.length).map (fun i =>
            let u := (l[i]?).getD { vol := 0, lba := 0, old := .unmapped }
            { chg := .map u.vol u.lba 1 (.located true sb (j + k) i) (some u.old) true })) h
        Becomes o s (page 1 (page 0 h2))))

/-- When no spare is left and a WRITE or APPEND still needs space, the module retires to reading and every such WRITE ends with
CAPACITY_EXHAUSTED. Phase 1 of a sanitize erases each die that is not dead, blocks whose erase fails joining the grown-defect
list; after the last the map, journal and checkpoints are gone and phase 2 follows, which rewrites the retained set. Progress is
recorded once the sanitize is durable. At the end commands are taken again and the event is raised. Each whole hour counts once,
as does the bin of each sensor's temperature. In part this rests on the model's own choices: log 3, log 5, log 85, log 96, log 99.
(R424, R425, R426, R427, R428, R429) -/
def Obligations.RetirementSanitizeAndHours : Prop :=
  ∀ (s : State), let h := s.hw; let M := h.mdm; let S := M.san
    (let o := exec .readOnlyEntry s; let needy := M.writes.filter (fun w => !w.trim && decide (w.placed < w.n)); let app := h.probe.scans.any (fun s => s.kind = 3 && !s.ended)
      (0 < spare h ∨ M.readOnly = true ∨ needy = [] ∧ app = false → Becomes o s h) ∧
      (spare h ≤ 0 → M.readOnly = false → needy ≠ [] ∨ app = true → Becomes o s (needy.foldl (fun h w => match h.host.cmds.find? (fun c => c.id = w.cmd) with
        | some c => endWrite w c stCapacity h
        | none => h) (setMdmEvt 2 { h with mdm := { M with readOnly := true } })) ∧
        Yields o s (fun h' => h'.mdm.readOnly = true))) ∧
    (∀ d bad, d < 512 → let o := exec (.sanitizePhase1 d bad) s;
      (S.state ≠ 1 ∨ S.durable = false ∨ S.dies.contains d = true ∨ dieDead h d = true → Becomes o s h) ∧
      (S.state = 1 → S.durable = true → S.dies.contains d = false → dieDead h d = false → let dies := d :: S.dies
        let h1 := bad.foldl (fun h p => growDefect d p h) (modDie d (fun D => { D with blks := D.blks.map (fun e => (e.1, eraseDone e.2 (!bad.contains e.1))) }) h)
        let h2 := { h1 with mdm := { h1.mdm with san := { h1.mdm.san with dies } } }
        ((sanDies h2).all (fun x => dies.contains x) = false → Becomes o s h2) ∧
        ((sanDies h2).all (fun x => dies.contains x) = true → Yields o s (fun h' => h'.flash.ops = [] ∧ h'.mdm.san = { S with state := 2, dies := [], recorded := [] } ∧
          h'.mdm.map = wipedMap M.map ∧ h'.mdm.journal = [] ∧ h'.mdm.forming = none ∧ h'.mdm.ckptA = none ∧ h'.mdm.ckptB = none ∧ h'.mdm.lzPages = [] ∧
          h'.mdm.reclaims = [] ∧ h'.mdm.defects = h2.mdm.defects ∧ h'.mdm.readOnly = M.readOnly)))) ∧
    (S.state = 2 → Becomes (exec .sanitizePhase2 s) s { h with mdm := { M with san := { S with dies := List.range 512 } } }) ∧
    (S.durable = true → Becomes (exec .sanitizeProgress s) s { h with mdm := { M with san := { S with recorded := S.dies } } }) ∧
    (S.state = 2 → S.dies ≠ [] → Becomes (exec .sanitizeEnd s) s (setMdmEvt 3 { h with mdm := { M with san := { state := 3 } }, host := { h.host with sanitize := false } })) ∧
    (let o := exec .powerOnHour s;
      (now h < (M.hourMark + 1) * 360000000000 → Becomes o s h) ∧
      ((M.hourMark + 1) * 360000000000 ≤ now h → M.hours < 2 ^ 64 - 1 → Yields o s (fun h' => h'.mdm.hours = M.hours + 1 ∧ h'.mdm.hourMark = M.hourMark + 1 ∧
        h'.mdm.temps = h.wdn.sensors.foldl (fun (t : Tbl Nat) (s : Nat × Int) => let k := 24 * s.1 + tempBin s.2; tput t k (satAdd 32 (tgetD t k 0) 1)) M.temps)))

/-- Each RAW_FLASH is answered NOT_PERMITTED on a queue without expert enablement, INVALID_FIELD for a field out of range, status
0xA8 for an address that does not exist and 0xAA for an operation that needs raw ownership of a die that is not owned. READ,
READ_RAW and READ_LEVEL queue a read of the codewords in range; PROGRAM (with its data) and ERASE a pulse; CACHE_LOOP returns its
data; a die feature is read or set; READ_IDENT and OTP_READ write their bytes to the host; BLOCK_STATE answers the erase-state
entry and the physical block. A dead die answers MEDIA_UNCORRECTABLE, 0xAB for a program, 0xAC for an erase. In part this rests on
the model's own choices: log 45, log 88, log 98, log 120, log 121, log 122. (R391, R392, R393, R396, R387, R379, R388, R479, R486)
-/
def Obligations.RawCommands : Prop :=
  ∀ (q slot : Nat) (c : Cmd) (s : State), let H := begun c s.hw
    let go := fun (op : Nat) (data owns addr : Bool) => Due s.hw q slot (isRaw op) c ∧ c.progress = 0 ∧ rawStatus H c data owns addr = none
    let rd := fun (n : Nat) => rawBlkOk c && rawPgOk H c && rawRange c n
    let pg := rawBlkOk c && decide (c.rawPg < blkPages (rawMode H c)) && c.rawByte == 0 && c.rawLen == 32768
    let op := fun (k : FKind) (cws : List Nat) (pslc : Bool) (data : FPage) => flashQueue { id := 0, die := c.die, cls := 2, kind := k, win := c.rawWin, blk := c.rawBlk, page := c.rawPg, pslc, cws, data, owner := .raw c.id, since := 0 } (setProgress c 1 H)
    let dead := dieDead H c.die
    (∀ mk n data owns addr, (mk, n, data, owns, addr) ∈ ([(.rawRead, 1, true, false, rd 32768), (.rawReadRaw, 2, true, false, rd 36864), (.rawReadLevel, 3, true, false, rd 36864),
        (.rawProgram, 4, true, true, pg), (.rawErase, 5, false, true, rawBlkOk c), (.rawCacheLoop, 6, true, true, rawRange c 32768), (.rawGetDieFeature, 7, false, false, true),
        (.rawSetDieFeature, 8, false, true, true), (.rawReadIdent, 9, true, false, true), (.rawBlockState, 10, false, false, rawBlkOk c),
        (.rawOtpRead, 11, true, false, rawRange c 4096)] : List ((Nat → Nat → Instr) × Nat × Bool × Bool × Bool)) → Due s.hw q slot (isRaw n) c → let o := exec (mk q slot) s;
      let own := (queueOf H c.q).expert; let ok := c.zeros [(4, 4), (34, 2)] = true ∧ c.fld 27 1 < 4 ∧ c.dataLen = (if data = true then c.rawLen else 0)
      let at_ := c.fld 25 1 < 64 ∧ c.fld 26 1 < 8 ∧ addr = true
      (c.progress ≠ 0 → Becomes o s H) ∧
      (c.progress = 0 → (own = false → Becomes o s (endCmd c.id stNotPermitted H)) ∧ (own = true → ¬ok → Becomes o s (endCmd c.id stInvalidField H)) ∧
        (own = true → ok → ¬at_ → Becomes o s (endCmd c.id 0xA8 H)) ∧
        (own = true → ok → at_ → owns = true → owned H c.die = false → Becomes o s (endCmd c.id 0xAA H)))) ∧
    (∀ mk n m w, (mk, n, m, w) ∈ ([(.rawRead, 1, 32768, 4096), (.rawReadRaw, 2, 36864, 4608), (.rawReadLevel, 3, 36864, 4608)] : List ((Nat → Nat → Instr) × Nat × Nat × Nat)) →
      go n true false (rd m) → let o := exec (mk q slot) s;
      (dead = true → Becomes o s (endCmd c.id stUncorrectable H)) ∧
      (dead = false → Becomes o s (op .read ((List.range 8).filter (fun i => decide (i * w < c.rawByte + c.rawLen) && decide (c.rawByte < (i + 1) * w))) false { data := 0 }))) ∧
    (go 4 true true pg → let o := exec (.rawProgram q slot) s;
      (dead = true → Becomes o s (endCmd c.id 0xAB H)) ∧ (dead = false → dataOf c 32768 = none → Becomes o s (askData c 32768 H)) ∧
      (∀ d, dead = false → dataOf c 32768 = some d → Becomes o s (op .program [] (rawMode H c) { data := d }))) ∧
    (go 5 false true (rawBlkOk c) → let o := exec (.rawErase q slot) s;
      (dead = true → Becomes o s (endCmd c.id 0xAC H)) ∧ (dead = false → Becomes o s (op .erase [] false { data := 0 }))) ∧
    (go 6 true true (rawRange c 32768) → let o := exec (.rawCacheLoop q slot) s;
      (dead = true → Becomes o s (endCmd c.id stUncorrectable H)) ∧ (dead = false → dataOf c c.rawLen = none → Becomes o s (askData c c.rawLen H)) ∧
      (∀ d, dead = false → dataOf c c.rawLen = some d → Becomes o s (endCmd c.id stOk (hostWrite c.addr c.rawLen d H)))) ∧
    (go 7 false false true → let o := exec (.rawGetDieFeature q slot) s; let f := tget (die H c.die).feats (c.fld 59 1); let v := (freeVal 32 H).1.toNat
      (dead = true → Becomes o s (endCmd c.id stUncorrectable H)) ∧ (∀ x, dead = false → f = some x → Becomes o s (finishCmd c.id { status := stOk, result := x } H)) ∧
      (dead = false → f = none → Becomes o s (finishCmd c.id { status := stOk, result := v } (modDie c.die (fun D => { D with feats := tput D.feats (c.fld 59 1) v }) (freeVal 32 H).2)))) ∧
    (go 8 false true true → let o := exec (.rawSetDieFeature q slot) s;
      (dead = true → Becomes o s (endCmd c.id stUncorrectable H)) ∧
      (dead = false → Becomes o s (endCmd c.id stOk (modDie c.die (fun D => { D with feats := tput D.feats (c.fld 59 1) (c.fld 60 4) }) H)))) ∧
    (go 9 true false true → let o := exec (.rawReadIdent q slot) s;
      (dead = true → Becomes o s (endCmd c.id stUncorrectable H)) ∧
      (dead = false → Becomes o s (endCmd c.id stOk (hostWrite c.addr c.rawLen (freeVal (8 * c.rawLen) H).1.toNat (freeVal (8 * c.rawLen) H).2)))) ∧
    (go 10 false false (rawBlkOk c) → let B := blk H c.die (rawPhys H c)
      Becomes (exec (.rawBlockState q slot) s) s (finishCmd c.id { status := stOk, result := 2 ^ 30 * B.st + 2 ^ 29 * bit B.pslc + 2 ^ 16 * (B.indet % 4096) +
        (if B.st = 2 then blkPages B.pslc else B.next) % 4096 + 2 ^ 32 * rawPhys H c } H)) ∧
    (go 11 true false (rawRange c 4096) → let o := exec (.rawOtpRead q slot) s;
      (dead = true ∨ (die H c.die).otp.bad = true → Becomes o s (endCmd c.id stUncorrectable H)) ∧
      (dead = false → (die H c.die).otp.bad = false → Becomes o s (endCmd c.id stOk (hostWrite c.addr c.rawLen (fldOf (otpRow H c.die false) c.rawByte c.rawLen) H))))

/-- IDENTIFY and GET_LOG write their structure or log bytes to the host; GET_FEATURE answers in RESULT or writes its structure.
QUEUE creates a queue that is not configured and deletes one with no command; EXPERT with the token enables expert functions and
with another spends it; EVENT_MASK, POWER_CAP (350 to 900 W), SLEEP_POLICY, ERROR_LOG_CLEAR and MODULE_ID set what they name, the
last BUSY while a job holds NET credits. SANITIZE stops new work, cancels jobs and completes with a durable record when all that
had started has ended; its query answers its state. Fields out of range answer INVALID_FIELD. In part this rests on the model's
own choices: log 49, log 50, log 51, log 52, log 88, log 127, log 128. (R2, R55, R58, R317, R398, R426, R443, R468, R472, R473,
R474, R475) -/
def Obligations.AdminCommands : Prop :=
  ∀ (q slot : Nat) (c : Cmd) (s : State), let H := begun c s.hw; let bad := endCmd c.id stInvalidField H
    let okay := fun (h : Hw) => endCmd c.id stOk h; let res := fun (n : Nat) (h : Hw) => finishCmd c.id { status := stOk, result := n } h
    let give := fun (n v : Nat) (h : Hw) => if c.dataLen < n then endCmd c.id stInvalidField h else endCmd c.id stOk (hostWrite c.addr n v h)
    let set := fun (o : Host.Outcome State Fault Refusal) (ok : Prop) (h1 : Hw) => (¬ok → Becomes o s bad) ∧ (ok → Becomes o s h1)
    let t := c.fld 25 1; let w := s.hw.wdn
    (Due s.hw q slot (hasOp 0x01) c → set (exec (.identify q slot) s) (c.zeros [(4, 4), (24, 40)] = true) (give 4096 (identity (freeVal 8 H).2 (freeVal 8 H).1.toNat) (freeVal 8 H).2)) ∧
    (Due s.hw q slot (hasOp 0x02) c → let o := exec (.getLog q slot) s; let id := c.fld 24 1
      let ok := c.zeros [(4, 4), (32, 32)] = true ∧ (id = 4 ∨ c.zeros [(25, 3)] = true) ∧ 1 ≤ id ∧ id ≤ 5
      let log := fun (data : Nat) (h : Hw) => okay (hostWrite c.addr c.dataLen (data / 256 ^ c.fld 28 4) h)
      (¬ok → Becomes o s bad) ∧
      (ok → (id = 1 → Becomes o s (log (packed 32 (s.hw.ev.log.map (fun e => e.logBytes))) H)) ∧
        (id = 2 → Becomes o s (log (healthLog (freeVal 512 H).2 (freeVal 512 H).1.toNat) (freeVal 512 H).2)) ∧
        (id = 3 → Becomes o s (log (packed 776 ((List.range 6).map (fun t => errLogBytes (tgetD s.hw.diu.logs t {})))) H)) ∧
        (∀ r, id = 4 → s.hw.host.tallies.reverse.find? (fun x => x.q = t && x.cid = c.fld 26 2) = some r → Becomes o s (log r.bytes H)) ∧
        (id = 4 → s.hw.host.tallies.reverse.find? (fun x => x.q = t && x.cid = c.fld 26 2) = none → Becomes o s (endCmd c.id stNoRecord H)) ∧
        (id = 5 → Becomes o s (log (firmwareLog H) H)))) ∧
    (Due s.hw q slot (hasOp 0x04) c → let o := exec (.getFeature q slot) s; let id := c.fld 24 1; let Q := queueOf s.hw t; let v := c.fld 32 4
      let large := c.zeros [(4, 4), (26, 6), (36, 28)] = true; let rest := c.fld 32 4 = 0; let O := s.hw.boot
      (∀ i n, (i, n) ∈ [(0x03, s.hw.ev.mask.toNat), (0x10, w.cap.getD 0), (0x11, sleepWord w), (0x50, s.hw.ffu.id),
          (0x40, bytesOf ([(0, 1, O.rec0.ovl), (1, 1, O.modOverlay)] ++ (List.range 8).map (fun k => (2 + k, 1, ovType s.hw k))))] →
        id = i → set o (featOk c 0 false = true) (res n H)) ∧
      (id = 0x01 → Q.configured = true → set o (large ∧ rest) (give 32 (bytesOf [(1, 1, t), (2, 2, Q.depth), (4, 2, Q.limit), (8, 8, Q.base)]) H)) ∧
      (id = 0x01 → Q.configured = false → large ∧ rest → let x := (freeVal 80 H).1.toNat
        Becomes o s (give 32 (bytesOf [(1, 1, t), (2, 2, x), (8, 8, x / 2 ^ 16)]) (freeVal 80 H).2)) ∧
      (id = 0x20 → set o (large ∧ rest ∧ t < 8) (give 256 ((part H t).stored.bytes + 256 ^ 128 * (part H t).inEff.bytes) H)) ∧
      (∀ V, id = 0x30 → volume s.hw v = some V → set o (large ∧ t = 0) (give 32 (V.bytes v) H)) ∧
      (id = 0x30 → volume s.hw v = none → Becomes o s bad) ∧
      (id ∉ [0x01, 0x03, 0x10, 0x11, 0x20, 0x30, 0x40, 0x50] → Becomes o s bad)) ∧
    (Due s.hw q slot (fun c => setsFeature 0x01 c && c.fld 32 1 != 1) c → let n := c.fld 33 1; let depth := c.fld 34 2; let limit := c.fld 36 2
      set (exec (.queueCreate q slot) s) (featOk c 16 true = true ∧ c.fld 32 1 = 0 ∧ n ≠ 0 ∧ isPow2In depth 16 4096 = true ∧ 1 ≤ limit ∧ limit ≤ depth ∧ c.fld 38 2 = 0 ∧ c.fld 40 8 % 4096 = 0)
        (if (queueOf H n).configured = true then endCmd c.id stQueueInUse H else okay (modQueue n (fun Q => { configured := true, depth, limit, base := c.fld 40 8, expert := Q.expert }) H))) ∧
    (Due s.hw q slot (fun c => setsFeature 0x01 c && c.fld 32 1 == 1) c → let n := c.fld 33 1
      set (exec (.queueDelete q slot) s) (featOk c 16 true = true ∧ n ≠ 0 ∧ c.fld 38 2 = 0 ∧ (queueOf H n).configured = true)
        (if H.host.cmds.any (fun x => x.q = n) = true then endCmd c.id stQueueInUse H else okay (modQueue n (fun _ => {}) H))) ∧
    (Due s.hw q slot (setsFeature 0x02) c → let k := c.fld 32 16; let on := fun (b : Bool) (h : Hw) => modQueue t (fun Q => { Q with expert := b }) h
      set (exec (.expert q slot) s) (featOk c 16 true = true)
        (if k = 0 then okay (on false H)
         else if H.host.token = some k then okay (on true { H with host := { H.host with expertEver := true } })
         else endCmd c.id stToken { H with host := { H.host with token := none } })) ∧
    (Due s.hw q slot (setsFeature 0x03) c → set (exec (.eventMask q slot) s) (featOk c 4 false = true)
      (okay { H with ev := { H.ev with mask := BitVec.ofNat 32 (c.fld 32 4) } })) ∧
    (Due s.hw q slot (setsFeature 0x10) c → let p := c.fld 32 2
      (set (exec (.powerCap q slot) s) (featOk c 2 false = true ∧ (p = 0 ∨ 350 ≤ p ∧ p ≤ 900))
        (okay { H with wdn := if p = 0 then { H.wdn with cap := none, capSamples := [], capLimit := 10240 } else { H.wdn with cap := some p, capSamples := [] } }))) ∧
    (Due s.hw q slot (setsFeature 0x11) c → let v := c.fld 32 4
      set (exec (.sleepPolicy q slot) s) (featOk c 4 false = true) (okay { H with wdn := { H.wdn with
        s4en := v.testBit 31, s3en := v.testBit 30, s4idle := max 1 (v / 2 ^ 24 % 64), s3idle := max 1 (v / 2 ^ 12 % 4096), s2idle := max 1 (v % 4096) } })) ∧
    (Due s.hw q slot (setsFeature 0x31) c → let m := c.fld 32 1
      set (exec (.errorLogClear q slot) s) (featOk c 1 false = true ∧ m < 64) (okay { H with diu := { H.diu with logs := H.diu.logs.filter (fun (e : Nat × ErrLog) => !m.testBit e.1) } })) ∧
    (Due s.hw q slot (setsFeature 0x50) c → set (exec (.moduleId q slot) s) (featOk c 2 false = true ∧ c.fld 32 2 < 0x4000)
      (if (List.range 32).any (fun x => (ctx H x).st != .free && decide (0 < (ctx H x).credits)) = true then endCmd c.id stBusy H
       else okay { H with ffu := { H.ffu with id := c.fld 32 2 } })) ∧
    (Due s.hw q slot (fun c => c.opcode == 0x08 && c.fld 24 1 != 1) c → let o := exec (.sanitizeStart q slot) s; let S := s.hw.mdm.san
      (S.durable = true → Becomes o s (endCmd c.id stSanitize H)) ∧
      (S.durable = false → S.waiting = none ∨ S.waiting = some c.id →
        let h1 := cancelAll { H with mdm := { H.mdm with san := { S with waiting := some c.id } }, host := { H.host with sanitize := true } }
        let busy := h1.host.cmds.any (fun x => (dataOp x.opcode || jobOp x.opcode) && x.started && x.comp.isNone) = true ∨
          (List.range 32).any (fun x => (ctx h1 x).st != .free && (ctx h1 x).st != .loaded) = true
        set o (c.zeros [(4, 4), (16, 4), (24, 40)] = true) (if busy then h1 else okay { h1 with mdm := { h1.mdm with san := { state := 1, durable := true } } }))) ∧
    (Due s.hw q slot (fun c => c.opcode == 0x08 && c.fld 24 1 == 1) c →
      set (exec (.sanitizeStatus q slot) s) (c.zeros [(4, 4), (16, 4), (25, 39)] = true) (res (sanitizeWord H) H))

/-- A volume command answers INVALID_FIELD, 0x60 for no volume, 0x61 for an index volume and 0x62 beyond its end, else waits for
what R480 names. Then READ asks its units of their dies; WRITE asks the host for its data, and places its pages as it arrives;
TRIM places its records in order, up to a journal page's worth at a time; a WRITE in read-only retirement answers
CAPACITY_EXHAUSTED. FLUSH completes when all before it has settled. A transfer answers OBJECT_STATE for a context that is not
LOADED, moves its bytes, every instance of a bay object being written, and ends OK or with the offset of the first bad word. In
part this rests on the model's own choices: log 38, log 84, log 86, log 87, log 88. (R401, R405, R409, R410, R425, R476, R477,
R478, R480, R481, R486, R490) -/
def Obligations.DataCommands : Prop :=
  ∀ (q slot : Nat) (c : Cmd) (s : State), let H := begun c s.hw
    let status := fun (o : Host.Outcome State Fault Refusal) (most : Nat) (data : Bool) =>
      let ok := c.zeros [(36, 28)] = true ∧ c.units ≠ 0 ∧ c.units ≤ most ∧ c.dataLen = (if data = true then 4096 * c.units else 0)
      (¬ok → Becomes o s (endCmd c.id stInvalidField H)) ∧ (ok → volume H c.target = none → Becomes o s (endCmd c.id 0x60 H)) ∧
      (∀ V, ok → volume H c.target = some V → (V.ty ≠ 0 → Becomes o s (endCmd c.id 0x61 H)) ∧ (V.ty = 0 → V.blocks < c.lba + c.units → Becomes o s (endCmd c.id 0x62 H)))
    let writes := fun (w : Writing) => { H with mdm := { H.mdm with writes := H.mdm.writes ++ [w] } }
    let ends := fun (bad : Option Nat) (h : Hw) => finishCmd c.id (match bad with
      | none => { status := stOk, result := 2 ^ 64 - 1 }
      | some b => { status := stUncorrectable, result := b }) h
    (Due s.hw q slot isRead c → let o := exec (.read q slot) s;
      (status o 4096 true) ∧
      (unitStatus H c 4096 true = none → (c.progress ≠ 0 ∨ mustWait H c false = true → Becomes o s H) ∧
        (c.progress = 0 → mustWait H c false = false → Becomes o s (volumeReads c.target c.lba c.units (fun i => .unit c.id i) (setProgress c 1 H))))) ∧
    (Due s.hw q slot isWrite c → let o := exec (.write q slot) s;
      (∀ w, writing H c.id = some w → Becomes o s ((List.range (w.n - w.placed)).foldl (fun h _ => placePage c.id h) H)) ∧
      (writing H c.id = none → status o 4096 true ∧
        (unitStatus H c 4096 true = none → (mustWait H c true = true → Becomes o s H) ∧
          (mustWait H c true = false → H.mdm.readOnly = true → Becomes o s (endCmd c.id stCapacity H)) ∧
          (mustWait H c true = false → H.mdm.readOnly = false → Becomes o s (askData c c.dataLen (writes { cmd := c.id, trim := false, vol := c.target, lba := c.lba, n := c.units })))))) ∧
    (Due s.hw q slot isTrim c → let o := exec (.trim q slot) s; let recs := fun (h : Hw) => (List.range 2044).foldl (fun h _ => trimRec c.id h) h
      (∀ w, writing H c.id = some w → Becomes o s (recs H)) ∧
      (writing H c.id = none → status o (2 ^ 32 - 1) false ∧
        (unitStatus H c (2 ^ 32 - 1) false = none → (mustWait H c true = true → Becomes o s H) ∧
          (mustWait H c true = false → Becomes o s (recs (writes { cmd := c.id, trim := true, vol := c.target, lba := c.lba, n := c.units })))))) ∧
    (Due s.hw q slot (hasOp 0x23) c → let o := exec (.flush q slot) s; let ok := c.zeros [(4, 4), (16, 4), (24, 40)] = true
      let before := H.host.cmds.any (fun x => decide (x.id < c.id) && x.comp.isNone && (x.opcode == 0x21 || x.opcode == 0x22)) = true ∨
        H.host.tallies.any (fun t => decide (t.cmd < c.id) && !t.settled) = true
      (¬ok → Becomes o s (endCmd c.id stInvalidField H)) ∧ (ok → before → Becomes o s H) ∧ (ok → ¬before → Becomes o s (endCmd c.id stOk H))) ∧
    (Due s.hw q slot isObjRead c → let o := exec (.objectRead q slot) s;
      (∀ st, objOf H c false = .error st → Becomes o s (endCmd c.id st H)) ∧
      (∀ x b, objOf H c false = .ok (x, b) → (objWaits H c = true → Becomes o s H) ∧
        (objWaits H c = false → let m := objMem H (objKey x b 0); let W := wordBytes b.tier; let bad := firstBad m b.tier (fun w => meet (w * W) W c.lba c.dataLen)
          let n := match bad with
            | none => c.dataLen
            | some b => b - c.lba
          Becomes o s (ends bad (hostWrite c.addr n (m.readLE c.lba n) (dramAccess x 0 b c.lba c.dataLen 3 false none H)))))) ∧
    (Due s.hw q slot isObjWrite c → let o := exec (.objectWrite q slot) s;
      (∀ st, objOf H c true = .error st → Becomes o s (endCmd c.id st H)) ∧
      (∀ x b, objOf H c true = .ok (x, b) → (objWaits H c = true → Becomes o s H) ∧
        (objWaits H c = false → dataOf c c.dataLen = none → Becomes o s (askData c c.dataLen H)) ∧
        (∀ d, objWaits H c = false → dataOf c c.dataLen = some d → let gs := if b.tier = 0 then partGals H (x / 4) else [0]
          let W := wordBytes b.tier
          let part := fun (w : Nat) => meet (w * W) W c.lba c.dataLen && !(decide (c.lba ≤ w * W) && decide ((w + 1) * W ≤ c.lba + c.dataLen))
          let bad := gs.foldl (fun (a : Option Nat) g => match firstBad (objMem H (objKey x b g)) b.tier part, a with
            | none, a => a
            | some a, none => some a
            | some a, some a' => some (min a a')) none
          Becomes o s (ends bad (dramAccess x 0 b c.lba c.dataLen 3 true none
            (gs.foldl (fun h g => modMem h (objKey x b g) (fun m => (m.store b.tier (bytesAt c.lba c.dataLen d)).1)) H))))))

/-- ABORT answers INVALID_FIELD for a field out of range and ABORT_MISSED when no unfinished command of its queue has the
identifier, or the one that has can no longer stop. Otherwise the target ends as its kind allows, and ABORT completes with
ABORT_CAUGHT once the target's completion has been written. Creating a volume answers INVALID_FIELD for a descriptor out of range
or an identifier in use, 0x40 beyond the user capacity; deleting answers INVALID_FIELD for no such volume and BUSY while an object
is bound to it. Otherwise its record joins the journal; each waits while another is not durable. In part this rests on the model's
own choices: log 44, log 88. (R398, R399, R400, R412, R482, R486) -/
def Obligations.AbortAndVolumes : Prop :=
  ∀ (q slot : Nat) (c : Cmd) (s : State), let H := begun c s.hw
    (Due s.hw q slot (hasOp 0x0B) c → let o := exec (.abort q slot) s; let ok := c.zeros [(4, 4), (16, 4), (25, 1), (28, 36)] = true
      let target := H.host.cmds.find? (fun x => x.q = c.fld 24 1 && x.cid = c.fld 26 2 && !x.badCid && x.comp.isNone && x.id != c.id)
      (c.progress ≠ 0 → H.host.cmds.any (fun x => x.id + 1 = c.progress) = true → Becomes o s H) ∧
      (c.progress ≠ 0 → H.host.cmds.any (fun x => x.id + 1 = c.progress) = false → Becomes o s (endCmd c.id stAbortCaught H)) ∧
      (c.progress = 0 → ¬ok → Becomes o s (endCmd c.id stInvalidField H)) ∧
      (c.progress = 0 → ok → target = none → Becomes o s (endCmd c.id stAbortMissed H)) ∧
      (∀ t, c.progress = 0 → ok → target = some t →
        (abortStop t H = none → Becomes o s (endCmd c.id stAbortMissed H)) ∧
        (∀ h, abortStop t H = some h → Becomes o s (setProgress c (t.id + 1) h)) ∧
        (t.opcode = 0x20 ∨ t.opcode = 0x23 ∨ t.opcode = 0x40 → Becomes o s (setProgress c (t.id + 1) (endCmd t.id stAbortCaught H))) ∧
        (t.opcode = 0x0B → Becomes o s (endCmd c.id stAbortMissed H)))) ∧
    (Due s.hw q slot (fun c => setsFeature 0x30 c && c.fld 36 1 != 1) c → let o := exec (.volumeCreate q slot) s;
      let wait := c.progress ≠ 0 ∨ H.mdm.recovering = true ∨ volumePending H = true
      (wait → Becomes o s H) ∧ (¬wait → volumeOf c = none → Becomes o s (endCmd c.id stInvalidField H)) ∧
      (∀ v V, ¬wait → volumeOf c = some (v, V) → let total := H.mdm.map.vols.foldl (fun (n : Nat) e => n + e.2.blocks) V.blocks
        ((volume H v).isSome = true → Becomes o s (endCmd c.id stInvalidField H)) ∧
        (volume H v = none → 52734375000 < total → Becomes o s (endCmd c.id 0x40 H)) ∧
        (volume H v = none → total ≤ 52734375000 → Becomes o s (addRec { chg := .volume v (some V), whom := .volume c.id } (setProgress c 1 H))))) ∧
    (Due s.hw q slot (fun c => setsFeature 0x30 c && c.fld 36 1 == 1) c → let o := exec (.volumeDelete q slot) s; let v := c.fld 32 4
      let wait := c.progress ≠ 0 ∨ H.mdm.recovering = true ∨ volumePending H = true
      let ok := c.zeros [(4, 4), (16, 4), (25, 7), (38, 2), (53, 3)] = true ∧ (volume H v).isSome = true
      let bound := (List.range 32).any (fun x => (ctx H x).st != .free && (ctx H x).objs.any (fun o => o.tier = 3 && o.bindId = v))
      (wait → Becomes o s H) ∧ (¬wait → ¬ok → Becomes o s (endCmd c.id stInvalidField H)) ∧
      (¬wait → ok → bound = true → Becomes o s (endCmd c.id stBusy H)) ∧
      (¬wait → ok → bound = false → Becomes o s (addRec { chg := .volume v none, whom := .volume c.id } (setProgress c 1 (bufDrop v 0 (2 ^ 64) H)))))

/-- FW_DOWNLOAD withdraws a commit of the slot it writes, then puts the chunk with its pages into the slot and its chunk map.
FW_COMMIT of the running slot withdraws; of the other it answers why the image may not boot, else writes the boot record,
completes when that is durable with ACTION 0, and asks for a reset with ACTION 1. STORE, DELETE and SELECT keep, drop and name an
overlay. ATTEST writes the signed report, with a fresh token if asked. Fields out of range answer INVALID_FIELD. BOOT takes each
step whose condition holds, nothing without power, with the reset pin low or after VOTE_SPLIT; the last makes the module ready. In
part this rests on the model's own choices: log 3, log 36, log 46, log 47, log 53, log 54, log 72, log 88, log 113. (R519, R520,
R521, R522, R523, R525, R527, R528, R530, R533, R536, R486) -/
def Obligations.FirmwareOverlaysAndBoot : Prop :=
  ∀ (q slot : Nat) (c : Cmd) (s : State), let H := begun c s.hw; let B := H.boot
    let set := fun (o : Host.Outcome State Fault Refusal) (ok : Prop) (P : Prop) => (¬ok → Becomes o s (endCmd c.id stInvalidField H)) ∧ (ok → P)
    (Due s.hw q slot (hasOp 0x05) c → let o := exec (.fwDownload q slot) s; let off := c.fld 24 4; let n := c.dataLen; let k := inactive H
      set o (c.zeros [(4, 4), (28, 36)] = true ∧ off % 4096 = 0 ∧ n % 4096 = 0 ∧ 4096 ≤ n ∧ n ≤ 1048576 ∧ off + n ≤ 67108864)
        ((B.newRec ≠ none → Becomes o s H) ∧
         (B.newRec = none → committed H k = true → Becomes o s (writeRec (withdrawn H) H)) ∧
         (B.newRec = none → committed H k = false → dataOf c n = none → Becomes o s (askData c n H)) ∧
         (∀ d, B.newRec = none → committed H k = false → dataOf c n = some d → Becomes o s (endCmd c.id stOk (modSlotFw k (fun S =>
           { shipped := false, data := (List.range (n / 4096)).foldl (fun (t : Tbl Nat) i => tput t (off / 4096 + i) (fldOf d (4096 * i) 4096)) S.data
             map := (List.range (n / 4096)).foldl (fun (m : List Nat) i => if m.contains (off / 4096 + i) then m else m ++ [off / 4096 + i]) S.map }) H))))) ∧
    (Due s.hw q slot (hasOp 0x06) c → let o := exec (.fwCommit q slot) s; let k := c.fld 24 1; let action := c.fld 25 1; let runs := k = B.run ∧ B.stage ≠ 15
      (c.progress = 1 → (B.newRec ≠ none → Becomes o s H) ∧ (B.newRec = none → action = 0 ∨ runs → Becomes o s (endCmd c.id stOk H)) ∧
        (B.newRec = none → action ≠ 0 → ¬runs → Becomes o s (setProgress c 2 { H with boot := { B with commit := some c.id, resetDue := some 2 } }))) ∧
      (c.progress = 0 → set o (c.zeros [(4, 4), (16, 4), (26, 38)] = true ∧ k < 2 ∧ action < 2)
        ((B.newRec ≠ none → Becomes o s H) ∧
         (B.newRec = none → runs → B.rec0.slot = k → committed H (1 - k) = false → Becomes o s (endCmd c.id stOk H)) ∧
         (B.newRec = none → runs → B.rec0.slot ≠ k ∨ committed H (1 - k) = true → Becomes o s (setProgress c 1 (writeRec (withdrawn H) H))) ∧
         (∀ st, B.newRec = none → ¬runs → commitStatus H k action = some st → Becomes o s (endCmd c.id st (modSlotFw k (fun S => { S with map := [] }) H))) ∧
         (B.newRec = none → ¬runs → commitStatus H k action = none → let r := { (B.rec0.setState k 2) with slot := k, trials := 0 }
           Becomes o s (modSlotFw k (fun S => { S with map := [] }) (setProgress c 1 (writeRec (if k = 0 then { r with digA := imageDigest H k } else { r with digB := imageDigest H k }) H))))))) ∧
    (Due s.hw q slot (fun c => setsFeature 0x40 c && c.fld 32 1 != 1 && c.fld 32 1 != 2) c → let o := exec (.overlayStore q slot) s; let k := c.fld 33 1
      set o (ovFields c = true ∧ c.fld 32 1 = 0 ∧ k < 8 ∧ c.dataLen ≤ 4096)
        ((dataOf c c.dataLen = none → Becomes o s (askData c c.dataLen H)) ∧
         (∀ d, dataOf c c.dataLen = some d → (overlaySigned H c.dataLen d = false → Becomes o s (endCmd c.id stFwInvalid H)) ∧
           (overlaySigned H c.dataLen d = true → overlayOk d = false → Becomes o s (endCmd c.id stInvalidField H)) ∧
           (overlaySigned H c.dataLen d = true → overlayOk d = true → let n := 64 + 8 * fldOf d 8 2 + 132
             Becomes o s (endCmd c.id stOk { H with boot := { B with overlays := tput B.overlays k { len := n, data := fldOf d 0 n } } }))))) ∧
    (Due s.hw q slot (overlayOp 1) c → let o := exec (.overlayDelete q slot) s; let k := c.fld 33 1
      let named := (List.range 8).any (fun p => [(part H p).stored, (part H p).inEff].any (fun d => d.valid && d.overlay == k)) = true ∨ B.rec0.ovl = k ∨ B.modOverlay = k
      set o (ovFields c = true ∧ c.dataLen = 0 ∧ k < 8 ∧ ¬named) (Becomes o s (endCmd c.id stOk { H with boot := { B with overlays := tdel B.overlays k } }))) ∧
    (Due s.hw q slot (overlayOp 2) c → let o := exec (.overlaySelect q slot) s; let k := c.fld 33 1
      (B.newRec ≠ none → Becomes o s H) ∧ (B.newRec = none → c.progress = 1 → Becomes o s (endCmd c.id stOk H)) ∧
      (B.newRec = none → c.progress ≠ 1 → set o (ovFields c = true ∧ c.dataLen = 0 ∧ (k = 0xFF ∨ (tget B.overlays k).isSome = true))
        (Becomes o s (setProgress c 1 (writeRec { B.rec0 with ovl := k } H))))) ∧
    (Due s.hw q slot (hasOp 0x07) c → let o := exec (.attest q slot) s; let T := (freeVal 128 H).1.toNat; let h := (freeVal 128 H).2
      let want := c.fld 56 1 = 1; let h1 := if want then { h with host := { h.host with token := some T } } else h
      let body := reportBody h1 (c.fld 24 32) (if want then some T else none)
      set o (c.zeros [(4, 4), (57, 7)] = true ∧ c.fld 56 1 < 2 ∧ 724 ≤ c.dataLen)
        (Becomes o s (endCmd c.id stOk (hostWrite c.addr 724 (body + 256 ^ 592 * (Config.sign Config.attestKey.toNat (Config.sha512 592 body) h1.free % 256 ^ 132)) { h1 with free := h1.free + 1 })))) ∧
    (let o := exec .boot s; let h := s.hw; let stuck := h.wdn.power = false ∨ h.boot.pinLow = true ∨ h.wdn.voteSplit = true
      (Becomes o s ((List.range 9).foldl (fun h _ => bootStep h) h)) ∧
      (stuck ∨ h.boot.stage = 15 ∨ h.boot.stage = 9 ∨ h.boot.stage = 6 ∧ h.mdm.recovering = true ∨ h.boot.stage = 7 ∧ h.boot.partDue ≠ [] → Becomes o s h) ∧
      (¬stuck → h.boot.stage = 8 → Becomes o s (bootReady h) ∧ Yields o s (fun h' => h'.wdn.ready = true ∧ h'.boot.stage = 9 ∧ h'.boot.trial = false)))

/-- A vote takes the value that two readable copies hold, rewrites, counts and reports one that disagrees; without a majority the
module halts. A write under way that reaches copy 1 takes effect. ANTIROLL goes up one step in each readable row, to 127 at most.
Recovery gives the map that checkpoint and journal give, its superblocks closed, and ends what the reset cut short. A scrub reads
its place; a corrected SRAM word is logged and written back, an uncorrectable one logged and its row due for a remap. A row due
takes a spare while one is left, the last raising an event. Losing a channel resets every partition, forgets every work object and
reloads the map. In part this rests on the model's own choices: log 3, log 5, log 36, log 90, log 113, log 117, log 130, log 142.
(R395, R414, R437, R440, R441, R442, R445, R446, R358, R361, R545, R546) -/
def Obligations.WordsAndTheirRepair : Prop :=
  ∀ (s : State), let h := s.hw; let D := h.diu; let M := h.mdm; let diu := fun (f : Diu → Diu) (h : Hw) => { h with diu := f h.diu }
    let halt := fun (w : Nat) (h : Hw) => revokeAll { h with wdn := { h.wdn with voteSplit := true }, diu := { h.diu with word := w } }
    (∀ w bad, w < 5 → let o := exec (.criticalWordVote w bad) s; let c := critNow h w
      let seen := (List.range 3).map (fun i => if bad.contains i then none else (c.copies[i]?).getD none)
      let voted := fun (l : List (Option Nat)) => { h with mdm := { M with crit := tput M.crit w { copies := l } } }
      (majority { c with copies := seen } = none → h.wdn.voteSplit = false → Becomes o s (halt w { h with mdm := { M with crit := tput M.crit w { c with copies := seen } } })) ∧
      (∀ v, majority { c with copies := seen } = some v → let h1 := voted [some v, some v, some v]; let n := satAdd 16 D.corrected 1
        (seen.filter (fun x => x != some v) = [] → Becomes o s h1) ∧
        (seen.filter (fun x => x != some v) ≠ [] → Becomes o s (setDiuEvt 1 (diu (fun d => { d with corrected := n, word := w }) (saturated 16 0xA000C D.corrected n h1)))))) ∧
    (∀ w, w < 5 → let o := exec (.voteSplit w) s;
      (majority (critNow h w) = none → h.wdn.voteSplit = false → Becomes o s (halt w h)) ∧ (majority (critNow h w) ≠ none ∨ h.wdn.voteSplit = true → Becomes o s h)) ∧
    (∀ w n v, w < 5 → n ≤ 3 → (critNow h w).writing = some v → h.wdn.voteSplit = false → let o := exec (.criticalWordWrite w n) s;
      let old := (majority (critNow h w)).getD 0
      let h1 := { h with mdm := { M with crit := tput M.crit w { copies := (List.range 3).map (fun i => some (if i < n then v else old)) } } }
      (∀ r, w = 0 → h.boot.newRec = some r → Becomes o s { h1 with boot := { h.boot with rec0 := if 2 ≤ n then r else h.boot.rec0, newRec := none } }) ∧
      (∀ p d cmd, w = 2 → h.jst.newPart = some (p, d, cmd) → let h2 := { h1 with jst := { h.jst with newPart := none, root := if 2 ≤ n then v else h.jst.root } }
        (2 ≤ n → Becomes o s (endCmd cmd stOk (modPart h2 p (fun P => { P with stored := d })))) ∧ (n < 2 → Becomes o s h2)) ∧
      (w ≠ 0 → w ≠ 2 → Becomes o s h1)) ∧
    (∀ f0 f32, let o := exec (.antirollAdvance f0 f32) s; let B := h.boot
      (B.antiTarget ≤ B.anti ∨ 127 ≤ B.anti ∨ h.wdn.voteSplit = true → Becomes o s h) ∧
      (B.anti < B.antiTarget → B.anti < 127 → h.wdn.voteSplit = false → let h1 := if otpGood h 0 = true then progRow 0 f0 h else h
        let h2 := if otpGood h1 256 = true then progRow 256 f32 h1 else h1
        Becomes o s { h2 with boot := { h2.boot with anti := max h2.boot.anti (antiNow h2) } })) ∧
    (let o := exec .mdmRecovery s; let due := M.recovering = true ∧ h.boot.stage = 6 ∧ h.wdn.voteSplit = false
      (¬due → Becomes o s h) ∧ (due → majority (critNow h 1) = none → Becomes o s (halt 1 h)) ∧
      (due → majority (critNow h 1) ≠ none → Yields o s (fun h' => h'.mdm.recovering = false ∧ h'.mdm.writes = [] ∧ h'.mdm.lzPages = [] ∧ h'.mdm.forming = none ∧
        h'.mdm.reclaims = [] ∧ h'.mdm.map = closeOpen { replayed M with sbs := M.map.sbs } ∧ h'.host.tallies.all (fun t => t.settled) = true ∧
        ∀ c, c ∈ h'.host.cmds → c.started = true → c.opcode = 0x20 ∨ c.opcode = 0x24 → c.comp ≠ none))) ∧
    (∀ unit row word ecc, ecc ≤ 2 → word < 64 →
      (unit < 512 → row < 7452 * 2048 → let o := exec (.patrolScrub 0 unit row word ecc) s;
        (M.recovering = true ∨ dieOut h unit = true ∨ tget (blk h unit (row / 2048)).pages (row % 2048) = none → Becomes o s h) ∧
        (M.recovering = false → dieOut h unit = false → tget (blk h unit (row / 2048)).pages (row % 2048) ≠ none → Becomes o s (flashQueue
          { id := 0, die := unit, cls := 3, kind := .read, win := false, blk := row / 2048, page := row % 2048, cws := List.range 8, owner := .scrub, since := 0 } h))) ∧
      (unit < 64 → row < 2 ^ 21 → let o := exec (.patrolScrub 1 unit row word ecc) s; let w := (rowAddr h unit row word).bind (fun a => workOwner h a)
        ((chan h unit).state = 3 → Becomes o s h) ∧
        ((chan h unit).state ≠ 3 → Becomes o s (modChan unit (fun x => { x with queue := x.queue ++ [{ cls := 4, write := false, since := now h, thr := none, key := (w.map (fun y => y.1)).getD 0, word := (w.map (fun y => y.2 / 64)).getD 0, row }] }) h))) ∧
      (∀ st, (st = 2 ∧ unit < 96 ∧ row / 2048 < 16 ∧ row % 2048 < 1536) ∨ (st = 3 ∧ unit < 4 ∧ row < 131072) → let o := exec (.patrolScrub st unit row word ecc) s; let ty := st - 1
        let addr := if st = 2 then unit + 2 ^ 7 * (row / 2048) + 2 ^ 11 * (row % 2048) else unit + 4 * row
        let at_ := if st = 2 then bayOwner h unit ((row % 2048 * 16 + row / 2048) * 512 + 8 * word) else
          let l := row * 512 + 8 * word
          atriumOwner h (l / 256 * 1024 + unit * 256 + l % 256)
        let h1 := diu (fun d => { d with wb := d.wb ++ [(st, unit, row)] }) (sramCorrected ty addr h)
        (ecc = 0 → Becomes o s h) ∧
        (ecc = 1 → Becomes o s (if max 1 h1.diu.sramThresh ≤ count24 h1 ty addr then sramDue ty addr h1 else h1)) ∧
        (ecc = 2 → Becomes o s (sramDue ty addr (spoilWord (ty - 1) at_ (sramUncorrectable (logEvent ty addr true h))))))) ∧
    (∀ newer st u row rest, D.wb = (st, u, row) :: rest → let o := exec (.scrubWriteback newer) s; let h1 := diu (fun d => { d with wb := rest }) h
      (st ≠ 1 ∨ newer = true → Becomes o s h1) ∧
      (st = 1 → newer = false → (chan h u).state ≠ 3 → Becomes o s (modChan u (fun x => { x with queue := x.queue ++ [{ cls := 4, write := true, since := now h, thr := none, key := 0, word := 0, row }] }) h1))) ∧
    (let o := exec .errorLogWindow s; let w := now h / 8640000000000
      (w ≤ D.window → Becomes o s h) ∧
      (D.window < w → Becomes o s (diu (fun d => { d with window := w, logs := d.logs.map (fun (e : Nat × ErrLog) => (e.1, { e.2 with ents := e.2.ents.map (fun x => { x with c24 := 0 }) })) }) h))) ∧
    (∀ ty addr, 1 ≤ ty → ty ≤ 2 → let o := exec (.sramRowRemap ty addr) s; let u := sramUnit ty addr; let rows := tgetD D.remaps u.1 []
      let h1 := diu (fun d => { d with due := d.due.filter (fun x => x != (ty, addr)) }) h
      let h2 := logRemapped ty addr (diu (fun d => { d with remaps := tput d.remaps u.1 (rows ++ [addr]) }) h1)
      (D.due.contains (ty, addr) = false → Becomes o s h) ∧
      (D.due.contains (ty, addr) = true → (rows.contains addr = true ∨ u.2 ≤ rows.length → Becomes o s h1) ∧
        (rows.contains addr = false → rows.length < u.2 → Becomes o s (if rows.length + 1 = u.2 then setDiuEvt 3 h2 else h2)))) ∧
    (∀ c row, c < 64 → let o := exec (.dramRowRemap c row) s; let x := chan h c; let h1 := modChan c (fun x => { x with due := x.due.filter (fun r => r ≠ row) }) h
      let h2 := logRemapped 0 (c + row * 64) (modChan c (fun y => { y with remap := y.remap ++ [(row, x.remap.length)] }) h1)
      (x.due.contains row = false ∨ x.state = 3 → Becomes o s h) ∧
      (x.due.contains row = true → x.state ≠ 3 → (x.remap.length < 64 → Becomes o s (if x.remap.length + 1 = 64 then raiseEvent 11 3 1 c 0 h2 else h2)) ∧
        (64 ≤ x.remap.length → h.wmc.retireOnFull = true → Becomes o s (loseChan c h1)) ∧ (64 ≤ x.remap.length → h.wmc.retireOnFull = false → Becomes o s h1))) ∧
    (∀ c, c < 64 → let o := exec (.dramChannelLoss c) s; let lost := modChan c (fun x => { x with state := 3, queue := [], due := [] }) h
      ((chan h c).state = 3 → Becomes o s h) ∧
      ((chan h c).state ≠ 3 → Becomes o s (let h1 := forgetWork { lost with wmc := { lost.wmc with reconfig := true } }
        let h2 := (List.range 8).foldl (fun h p => modPart h p (fun P => { P with resetting := some { stepDone := 0, cause := 3 } })) h1
        setMdmEvt 4 { h2 with mdm := { h2.mdm with pieces := List.range 384 } })))

/-- Training and retraining end with the widest width whose lanes pass, or with another attempt; INIT with enough credits brings
the link up, else it is repeated. A reset keeps what was not acknowledged for RESYNC. A flit that does not decode, is malformed or
ahead of its turn starts dropping, and one that had come before is ignored; one in sequence frees what it acknowledges and returns
its credits. DOORBELL entries are judged in order; CQ_HEAD frees slots up to the tail; READ_DATA's bytes go to their entry with
the last. LOOP starts or ends a loop-back. The oldest completion formed is posted while its ring has room, and the oldest event
while queue 0 keeps a slot for each outstanding command. In part this rests on the model's own choices: log 3, log 5, log 22, log
55, log 101, log 102, log 123, log 124, log 125, log 126. (R451, R452, R453, R454, R455, R457, R458, R460, R462, R465, R467, R488)
-/
def Obligations.TheHostLink : Prop :=
  ∀ (s : State), let h := s.hw; let l := h.host.link; let up := linkUp l = true; let lk := fun (f : HostLink → HostLink) (h : Hw) => { h with host := { h.host with link := f h.host.link } }
    (∀ lanes, let o := exec (.hostLinkTraining lanes) s; let due := h.wdn.power = true ∧ l.state < 2 ∧ l.retryAt = none ∧ (l.state = 1 → l.trained = 0)
      let h1 := lk (fun l => { l with lanesGood := lanes % 256 }) h; let w := widest lanes
      (¬due → Becomes o s h) ∧
      (due → w = 0 → Becomes o s (lk (fun l => { l with state := 1, width := 0, trained := 0, retryAt := some (now h + 10000000) }) h1)) ∧
      (due → w ≠ 0 → let h2 := lk (fun l => { l with state := 1, width := w, trained := w, coeffs := true, retryAt := none, initAt := none, replayRun := 0, retrainFails := 0, dropping := false }) h1
        Becomes o s (sendInit (if w < 8 then setHluEvt 3 h2 else h2)))) ∧
    (∀ t, l.retryAt = some t → let o := exec .trainingRetry s; (now h < t → Becomes o s h) ∧ (t ≤ now h → Becomes o s (lk (fun l => { l with retryAt := none }) h))) ∧
    (∀ credits, let o := exec (.init credits) s; let ready := l.state = 1 ∧ l.trained ≠ 0
      let held := fun (k : Nat) => (l.out.filter (fun m => m.cls = k && m.last.isSome && m.cls != 3)).foldl (fun n m => n + m.flits) 0
      (¬ready → Becomes o s h) ∧
      (∀ a b c d r, ready → credits = a :: b :: c :: d :: r → 16 ≤ a → 64 ≤ b → 512 ≤ c → 16 ≤ d → Becomes o s (pump (lk (fun l => { l with state := 2, initAt := none, credits := [a - held 0, b - held 1, c - held 2, d - held 3] }) h))) ∧
      (ready → credits.length < 4 ∨ (∃ a b c d r, credits = a :: b :: c :: d :: r ∧ (a < 16 ∨ b < 64 ∨ c < 512 ∨ d < 16)) → Becomes o s (lk (fun l => { l with initAt := some (now h + 1000000) }) h))) ∧
    (∀ t, l.initAt = some t → let o := exec .initRetry s; (now h < t → Becomes o s h) ∧ (t ≤ now h → Becomes o s (sendInit (lk (fun l => { l with initAt := none }) h)))) ∧
    (∀ lanes, let o := exec (.hostLinkRetrain lanes) s; let due := l.coeffs = true ∧ 2 ≤ l.state; let w := widest lanes
      let h1 := setHluEvt 1 (lk (fun l => { l with retrains := satAdd 8 l.retrains 1, retrainReq := false, replayRun := 0, lanesGood := lanes % 256 }) h)
      let h2 := lk (fun l => { l with state := 2, width := w, trained := w, retrainFails := 0, dropping := false }) h1
      (¬due → Becomes o s h) ∧ (due → w ≠ 0 → Becomes o s (pump (if w < 8 then setHluEvt 3 h2 else h2))) ∧
      (due → w = 0 → l.retrainFails = 0 → Becomes o s (lk (fun l => { l with state := 5, retrainFails := 1 }) h1)) ∧
      (due → w = 0 → l.retrainFails ≠ 0 → Becomes o s (lk (fun l => { l with state := 0, width := 0, trained := 0, retrainFails := 0 }) h1))) ∧
    (let o := exec .adapterLinkReset s;
      let kept := { l with state := 0, width := 0, trained := 0, resets := satAdd 8 l.resets 1, rxNext := 0, txNext := 0, dropping := false, replayRun := 0, retrainFails := 0, awaitResync := true }
      (l.state = 0 → Becomes o s h) ∧
      (l.state ≠ 0 → Becomes o s (setHluEvt 2 (lk (fun _ => { kept with out := (l.out.filter (fun m => m.cls = 2 || m.last.isNone)).map (fun m => { m with last := none }), reads := l.reads.map (fun r => { r with got := 0, data := 0 }) }) h)))) ∧
    (let o := exec .resync s;
      let h1 := sendMsg 0 (.accState ((List.range 256).map (fun q => lastSlot (queueOf h q)))) (lk (fun l => { l with awaitResync := false, reads := l.reads.map (fun r => { r with sent := false }) }) h)
      (l.state ≠ 2 → Becomes o s h) ∧
      (l.state = 2 → Becomes o s (pump ((l.reads.filter (fun r => r.sent)).foldl (fun h r => sendMsg 1 (.readReq r.rtag r.len r.addr) h) h1)))) ∧
    (let o := exec .linkWideningDone s;
      (l.state ≠ 4 → Becomes o s h) ∧ (l.state = 4 → Becomes o s (sendMsg 3 (.width l.trained l.txNext) (lk (fun l => { l with state := 2, width := l.trained }) h)))) ∧
    (∀ w, let o := exec (.width w) s; let ok := up ∧ (w = 2 ∨ w = 4 ∨ w = 8) ∧ w ≤ l.trained
      (¬ok → Becomes o s h) ∧ (ok → l.state = 2 → Becomes o s (lk (fun l => { l with width := w }) h)) ∧
      (ok → l.state = 4 → w = l.trained → Becomes o s (lk (fun l => { l with state := 2, width := w }) h))) ∧
    (∀ x, let o := exec (.hostFlitReceive x) s; let n := satAdd 32 l.fecCorr x.corrected; let h1 := saturated 32 0x10008 l.fecCorr n (lk (fun l => { l with fecCorr := n }) h)
      let drop := fun (h : Hw) => lk (fun l => { l with dropping := true }) h; let u := satAdd 32 l.fecUncorr 1
      (¬up → Becomes o s h) ∧
      (up → x.fecBad = true → Becomes o s (setHluEvt 0 (saturated 32 0x1000C l.fecUncorr u (lk (fun l => { l with fecUncorr := u, dropping := true }) h1)))) ∧
      (up → x.fecBad = false → x.good = false → Becomes o s (drop h1)) ∧
      (up → x.fecBad = false → x.good = true → x.zeros = false ∨ 2 < x.cls → Becomes o s (setHluEvt 4 (drop h1))) ∧
      (up → x.fecBad = false → x.good = true → x.zeros = true → x.cls ≤ 2 → (x.idle = false → x.seq ≠ l.rxNext → Becomes o s (if hseqLe (x.seq + 1) l.rxNext then h1 else drop h1)) ∧
        (x.idle = true → l.dropping = true → Becomes o s h1) ∧
        (x.idle = false → x.seq = l.rxNext → l.loop ≠ 3 →
          let left := fun (a : Nat) => l.out.filter (fun m => match m.last with | some s => !hseqLe s a | none => true)
          let add := fun (cr : Nat × Nat) (l : HostLink) => { l with credits := l.credits.set cr.1 ((l.credits[cr.1]?).getD 0 + cr.2) }
          let h2 := match x.ack with
            | none => h1
            | some a => lk (fun y => { y with out := left a, replayRun := if (left a).length = l.out.length then l.replayRun else 0 }) h1
          Becomes o s (pump (lk (fun l => { l with rxNext := (l.rxNext + 1) % 4096, dropping := false }) (lk (fun l => add x.crB (add x.crA l)) h2)))))) ∧
    (let o := exec .hostReplayTimeout s; let out := l.out.any (fun m => m.last.isSome) = true
      (¬up ∨ ¬out → Becomes o s h) ∧
      (up → out → Becomes o s (healthError 8 1 (lk (fun l => { l with replays := satAdd 16 l.replays 1, replayRun := l.replayRun + 1, state := if 8 ≤ l.replayRun + 1 then 5 else l.state }) h)))) ∧
    (∀ q count first len lat es, q < 256 → let o := exec (.doorbell q count first len lat es) s; let ok := 1 ≤ count ∧ count ≤ 3 ∧ len = 8 + 64 * count ∧ es.length = count
      (¬up ∨ l.loop = 3 → Becomes o s h) ∧ (up → l.loop ≠ 3 → ¬ok → Becomes o s (setHluEvt 4 h)) ∧
      (up → l.loop = 4 → ok → Becomes o s (es.foldl (fun h e => hostWrite h.host.link.echo 64 e.toNat h) h)) ∧
      (up → l.loop ≠ 3 → l.loop ≠ 4 → ok →
        let r := es.zipIdx.foldl (fun (a : List Verdict × Hw) e =>
          let v := judge q ((first + e.2) % (queueOf h q).depth) e.1 a.2;
          (a.1 ++ [v.1], v.2)) ([], h)
        Becomes o s (sendMsg 0 (.verdicts r.1) (lk (fun l => { l with maxLat := max l.maxLat (min 65535 lat) }) r.2)))) ∧
    (∀ q head, q < 256 → let o := exec (.cqHead q head) s; let Q := queueOf h q; let ok := up ∧ l.loop ≠ 3 ∧ Q.configured = true ∧
        (head + Q.depth - Q.head) % Q.depth ≤ (Q.tail + Q.depth - Q.head) % Q.depth
      (¬ok → Becomes o s h) ∧ (ok → Becomes o s (modQueue q (fun Q => { Q with head := head % Q.depth }) h))) ∧
    (∀ rtag len data r, l.reads.find? (fun r => r.rtag = rtag && r.sent) = some r → let o := exec (.readData rtag len data) s; let n := min len (r.len - r.got)
      let r' := { r with got := r.got + n, data := r.data + data % 256 ^ n * 256 ^ r.got }
      (¬up ∨ l.loop = 3 → Becomes o s h) ∧
      (up → l.loop ≠ 3 → r.got + n < r.len → Becomes o s (lk (fun l => { l with reads := l.reads.map (fun x => if x.rtag = rtag then r' else x) }) h)) ∧
      (up → l.loop ≠ 3 → r.len ≤ r.got + n → Becomes o s (pump (modCmd r.cmd (fun c => { c with chunks := tput c.chunks r.chunk r'.data })
        (lk (fun l => { l with reads := l.reads.filter (fun x => x.rtag != rtag) }) h))))) ∧
    (∀ depth echo, let o := exec (.loop depth echo) s;
      (¬up → Becomes o s h) ∧ (up → depth = 0 → Becomes o s (lk (fun l => { l with loop := 0, loopWant := 0 }) h)) ∧
      (up → depth = 3 ∨ depth = 4 → let h1 := lk (fun l => { l with loopWant := depth, echo }) h
        (h.host.cmds = [] → Becomes o s (lk (fun l => { l with loop := depth }) h1)) ∧ (h.host.cmds ≠ [] → Becomes o s h1))) ∧
    (∀ q, q < 256 → let o := exec (.completionPost q) s; let h1 := formUnlisted q h; let formed := h1.host.cmds.filter (fun c => c.q = q && c.comp.isSome); let Q := queueOf h1 q
      (formed = [] ∨ ringRoom Q = 0 → Becomes o s h1) ∧
      (∀ c x, c ∈ formed → (∀ d, d ∈ formed → d ≠ c → c.form < d.form) → c.comp = some x → ringRoom Q ≠ 0 →
        let h2 := ringPut q (compBytes Q c.cid c.slot x.status x.flags q x.aux x.result) h1
        Becomes o s (enterLoop { h2 with host := { h2.host with cmds := h2.host.cmds.filter (fun y => y.id ≠ c.id) } }))) ∧
    (∀ e rest, h.ev.pend = e :: rest → let o := exec .eventPost s; let Q := queueOf h 0
      (h.wdn.power = false ∨ ringRoom Q ≤ outstanding h 0 → Becomes o s h) ∧
      (h.wdn.power = true → outstanding h 0 < ringRoom Q → Becomes o s (ringPut 0 (compBytes Q 0xFFFF 0xFFF 0 2 0 (e.sev + 2 ^ 7 * bit h.ev.loss) e.result)
        { h with ev := { h.ev with pend := rest, loss := false } })))

/-- A module reset that may fall now puts every unit at its reset state but what is stored or in AON, with its code kept; a second
one before the module was ready has code 7 and loses all jobs, as causes 2 and 5 do. A watchdog expiry is cause 6, the reset pin
cause 1, a trial boot not ready 30 s after its firmware started cause 3. A restart of the Warden's ROM counts an uncorrectable
word. An emergency stop revokes the gallery grants while a source of it holds, and the trial timer stands. Power at 46.0 V starts
the AON domain from 0; its loss leaves what is stored. In part this rests on the model's own choices: log 3, log 112, log 117, log
122, log 131, log 132, log 142. (R525, R543, R544, R546, R548, R549, R551, R574, R575, R582, R585, R586) -/
def Obligations.ResetsAndPower : Prop :=
  ∀ (s : State), let h := s.hw; let B := h.boot; let second := B.again && !h.wdn.ready
    let clear := fun (code : Nat) (losing : Bool) (h' : Hw) => h'.wdn.ready = false ∧ h'.wdn.voteSplit = false ∧ h'.wdn.modState = 0 ∧ h'.wdn.cap = none ∧ h'.boot.stage = 0 ∧
      h'.boot.cause = code ∧ h'.boot.losing = losing ∧ h'.boot.trial = false ∧ h'.boot.newRec = none ∧ h'.host.token = none ∧ h'.host.expertEver = false ∧ h'.probe = {} ∧
      h'.dbg.gate = false ∧ h'.dbg.opened = false ∧ (losing = true → h'.mem = []) ∧ (∀ l, (landing h' l).own = 0)
    let reset := fun (o : Host.Outcome State Fault Refusal) (cause : Nat) (loses : Bool) (h : Hw) => let code := if second = true then 7 else cause
      Becomes o s (resetWith code (second || loses) h) ∧ Yields o s (clear code (second || loses))
    let stop := fun (h : Hw) => setMgmtEvt 2 (revokeAll { h with boot := { h.boot with stopSince := some (now h) } })
    (∀ cause, let o := exec (.moduleReset cause) s; let may := h.wdn.power = true ∧ (cause ∈ [1, 4, 5, 6] ∨ cause ∈ [2, 3] ∧ B.resetDue = some cause)
      (¬may → Becomes o s h) ∧ (may → reset o cause (decide (cause = 2) || decide (cause = 5)) h)) ∧
    (let o := exec .watchdogExpiry s; (h.wdn.power = false → Becomes o s h) ∧ (h.wdn.power = true → reset o 6 false h)) ∧
    (let o := exec (.resetPin true) s; let h1 := { h with boot := { B with pinLow := true } }
      (B.pinLow = true → Becomes o s h) ∧ (B.pinLow = false → h.wdn.power = false → Becomes o s h1) ∧ (B.pinLow = false → h.wdn.power = true → reset o 1 false h1)) ∧
    (Becomes (exec (.resetPin false) s) s { h with boot := { B with pinLow := false }, dbg := { h.dbg with driving := [] } }) ∧
    (∀ t, B.trialFrom = some t → let o := exec .trialReadyTimeout s;
      let due := h.wdn.power = true ∧ B.trial = true ∧ h.wdn.ready = false ∧ B.stopSince = none ∧ t + 3000000000 ≤ now h; let h1 := trialFail 3 h
      (¬due → Becomes o s h) ∧ (due → reset o 3 false { h1 with boot := { h1.boot with resetDue := some 3 } })) ∧
    (let o := exec .wardenRomRestart s; (h.wdn.power = false → Becomes o s h) ∧ (h.wdn.power = true → Becomes o s (sramUncorrectable h))) ∧
    (∀ low, let o := exec (.emstopPin low) s; let h1 := { h with wdn := { h.wdn with emstopPin := low } }; let was := emstop h.wdn; let is := low || h.wdn.emstopSmb
      (h.wdn.power = false ∨ was = is → Becomes o s h1) ∧ (h.wdn.power = true → was = false → is = true → Becomes o s (stop h1)) ∧
      (∀ t, h.wdn.power = true → was = true → is = false → B.stopSince = some t → Becomes o s { h1 with boot := { B with stopSince := none, trialFrom := B.trialFrom.map (fun x => x + (now h - max t x)) } })) ∧
    (∀ v, let o := exec (.powerGoodAssert v) s; let h1 := { h with wdn := { h.wdn with power := true, aon := 0, inputVoltage := v } }
      (h.wdn.power = true ∨ v < 4600 → Becomes o s h) ∧
      (h.wdn.power = false → 4600 ≤ v → (emstop h.wdn = false → Becomes o s h1) ∧ (emstop h.wdn = true → Becomes o s (stop h1)))) ∧
    (∀ v, let o := exec (.powerGoodDeassert v) s;
      (h.wdn.power = false → Becomes o s h) ∧
      (h.wdn.power = true → Yields o s (fun h' => h'.wdn = { inputVoltage := v, emstopPin := h.wdn.emstopPin } ∧ h'.mem = [] ∧ h'.ctx = [] ∧ h'.ev = {} ∧ h'.host.cmds = [] ∧
        h'.host.link = {} ∧ h'.boot.stage = 0 ∧ h'.boot.rec0 = B.rec0 ∧ h'.boot.overlays = B.overlays ∧ h'.boot.slotA.data = B.slotA.data ∧ h'.boot.slotB.data = B.slotB.data ∧
        h'.mdm.map = h.mdm.map ∧ h'.mdm.defects = h.mdm.defects ∧ h'.mdm.readOnly = h.mdm.readOnly ∧ h'.mdm.recovering = true ∧ h'.jst.root = h.jst.root ∧
        (∀ d, (die h' d).otp = (die h d).otp ∧ (die h' d).gap = (die h d).gap ∧ (die h' d).offset = (die h d).offset ∧ (die h' d).blks = (die h d).blks))))

/-- A sample is kept, with since when the coolant is above 40 degC or its two readings lie more than 15 K apart; either held for
10 s sets its bit and event. A flash sensor above 85 degC withholds pulses until all four read below 80. A read of the port's
address with a good PEC returns its byte or block, with a bad one nothing. A write with a good PEC selects a sensor (47 at most),
clears the alert bits it names, begins or ends an emergency stop with 0x5A or 0xA5, or resets the module with 0xC3. The alert
response answers the port's address while an alert stands. In part this rests on the model's own choices: log 3, log 5, log 67,
log 112, log 136. (R583, R584, R585, R588, R589, R590, R593, R447) -/
def Obligations.SensorsAndManagementPort : Prop :=
  ∀ (s : State), let h := s.hw; let W := h.wdn; let wdn := fun (f : Warden → Warden) => { h with wdn := f W }; let port := 0x58 + Config.smbStraps.toNat
    (∀ (k : Nat) (t : BitVec 16), k < 48 → let o := exec (.sensorSample k t) s; let ss := tput W.sensors k t.toInt
      let hot := ∃ a, tget ss 46 = some a ∧ 16 * 40 < a; let dt := ∃ a b, tget ss 46 = some a ∧ tget ss 47 = some b ∧ 16 * 15 < b - a
      (W.power = false → Becomes o s h) ∧
      (∀ since1 since2, W.power = true → (hot → since1 = W.hotSince.or (some (now h))) → (¬hot → since1 = none) → (dt → since2 = W.dtSince.or (some (now h))) → (¬dt → since2 = none) →
        Becomes o s (wdn (fun w => { w with sensors := ss, hotSince := since1, dtSince := since2 })))) ∧
    (let o := exec .coolantHotCheck s; let held := W.power = true ∧ ∃ t, W.hotSince = some t ∧ t + 1000000000 ≤ now h
      (¬held ∨ W.coolantHot = true → Becomes o s h) ∧ (held → W.coolantHot = false → Becomes o s (raiseEvent 0 0x10 1 0 0 (wdn (fun w => { w with coolantHot := true }))))) ∧
    (let o := exec .coolantDtCheck s; let held := W.power = true ∧ ∃ t, W.dtSince = some t ∧ t + 1000000000 ≤ now h
      (¬held ∨ W.coolantDt = true → Becomes o s h) ∧ (held → W.coolantDt = false → Becomes o s (raiseEvent 0 0x11 1 0 0 (wdn (fun w => { w with coolantDt := true }))))) ∧
    (let o := exec .flashHot s; let ts := (W.sensors.filter (fun e => decide (40 ≤ e.1) && decide (e.1 ≤ 43))).map (fun e => e.2)
      (W.power = false → Becomes o s h) ∧ (W.power = true → (∃ t, t ∈ ts ∧ 16 * 85 < t) → Becomes o s (wdn (fun w => { w with flashHot := true }))) ∧
      (W.power = true → (∀ t, t ∈ ts → t < 16 * 80) → Becomes o s (wdn (fun w => { w with flashHot := false }))) ∧
      (W.power = true → (∀ t, t ∈ ts → t ≤ 16 * 85) → (∃ t, t ∈ ts ∧ 16 * 80 ≤ t) → Becomes o s h)) ∧
    (∀ mk v, (mk, v) ∈ ([(.smbInventory, let id := identity h 0; bytesOf [(0, 16, fldOf id 50 16), (16, 16, fldOf id 70 16), (32, 16, fldOf id 86 16), (48, 2, fldOf id 103 2), (50, 4, fldOf id 66 4)]),
        (.smbStatus, bit W.ready + 2 * bit W.voteSplit + 4 * bit (emstop W) + 8 * bit W.trip + 16 * bit h.mdm.san.durable + 32 * bit h.mdm.readOnly + 2 ^ 8 * (W.modState % 8)),
        (.smbPower, W.inputPower % 2 ^ 16), (.smbVoltage, W.inputVoltage % 2 ^ 16), (.smbHottest, min 255 ((hottest W) / 16).toNat), (.smbSensor, sensorTemp h W.sensorSel),
        (.smbVoteStat, 2 ^ 31 * bit W.voteSplit + 2 ^ 24 * (h.diu.word % 8) + h.diu.corrected % 2 ^ 16)] : List ((Nat → Bool → Instr) × Nat)) → ∀ a pec, let o := exec (mk a pec) s;
      (W.power = false ∨ a ≠ port → Becomes o s h) ∧ (W.power = true → a = port → Becomes o s (wdn (fun w => { w with smbOut := if pec = true then some v else none })))) ∧
    (∀ a pec (v : BitVec 8), let mine := W.power = true ∧ a = port ∧ pec = true; let n := v.toNat
      (∀ mk, mk ∈ ([.smbSensorSel, .smbAlertClr, .smbEmstop, .smbReset] : List (Nat → Bool → BitVec 8 → Instr)) → ¬mine → Becomes (exec (mk a pec v) s) s h) ∧
      (mine → Becomes (exec (.smbSensorSel a pec v) s) s (wdn (fun w => { w with sensorSel := min 47 n }))) ∧
      (mine → Becomes (exec (.smbAlertClr a pec v) s) s (wdn (fun w => { w with
        coolantHot := w.coolantHot && !n.testBit 0, coolantDt := w.coolantDt && !n.testBit 1, stopEvt := w.stopEvt && !n.testBit 2 }))) ∧
      (mine → let o := exec (.smbEmstop a pec v) s; let h1 := wdn (fun w => { w with emstopSmb := true }); let h2 := wdn (fun w => { w with emstopSmb := false })
        (n ≠ 0x5A → n ≠ 0xA5 → Becomes o s h) ∧
        (n = 0x5A → emstop W = true → Becomes o s h1) ∧ (n = 0x5A → emstop W = false → Becomes o s (setMgmtEvt 2 (revokeAll { h1 with boot := { h.boot with stopSince := some (now h) } }))) ∧
        (n = 0xA5 → emstop W = false ∨ W.emstopPin = true → Becomes o s h2) ∧
        (∀ t, n = 0xA5 → emstop W = true → W.emstopPin = false → h.boot.stopSince = some t →
          Becomes o s { h2 with boot := { h.boot with stopSince := none, trialFrom := h.boot.trialFrom.map (fun x => x + (now h - max t x)) } })) ∧
      (mine → let o := exec (.smbReset a pec v) s; let second := h.boot.again && !W.ready
        (n ≠ 0xC3 → Becomes o s h) ∧ (n = 0xC3 → Becomes o s (resetWith (if second = true then 7 else 1) second h)))) ∧
    (let o := exec .smbAlertResponse s; let alert := W.power = true ∧ (W.coolantHot = true ∨ W.coolantDt = true ∨ W.stopEvt = true)
      (¬alert → Becomes o s h) ∧ (alert → Becomes o s (wdn (fun w => { w with smbOut := some (2 * port) }))))

/-- A register command answers NOT_PERMITTED without expert enablement, INVALID_FIELD for fields or an address out of range, and
asks for the block's grains while its wing is power-gated; after 10 ms without them it answers BUSY. A read returns the register's
value, latching or clearing what that read does; a write changes what the register's fields take. WDN_AONTIME_LO latches the high
half. Writes set an operating point, clear the performance counters, mark a wing to retire or restore, retire a channel, retrain
the link, take and release dies, and reach the checker. A flight enters its loop-back once its replay buffer is empty or after 100
us; a channel's checker reports in pad loop-back; new channel settings apply when no transfer runs. In part this rests on the
model's own choices: log 3, log 56, log 57, log 59, log 68, log 128, log 134, log 138, log 139, log 140. (R7, R25, R26, R35, R374,
R391, R421, R444, R452, R475, R556, R557) -/
def Obligations.RegisterAccesses : Prop :=
  ∀ (q slot : Nat) (c : Cmd) (s : State), let h := s.hw; let H := begun c h; let a := c.reg
    let access := fun (o : Host.Outcome State Fault Refusal) (tail : Nat × Nat) (f : Hw → Hw) =>
      let own := (queueOf H c.q).expert; let ok := c.zeros [(4, 4), (16, 4), tail] = true ∧ a % 4 = 0 ∧ csrReserved a = false
      (own = false → Becomes o s (endCmd c.id stNotPermitted H)) ∧ (own = true → ¬ok → Becomes o s (endCmd c.id stInvalidField H)) ∧
      (own = true → ok → csrGranted H a = false → Becomes o s (grainRequest (.csrWake a) 0 H)) ∧
      (own = true → ok → csrGranted H a = true → Becomes o s (f (if csrAsleep H a = true then csrRelease a H else H)))
    (∀ mk row, (mk, row) ∈ ([(.regRead, .reg), (.wdnAontimeLoRead, .aonLo), (.rcRead, .rc)] : List ((Nat → Nat → Instr) × RegRow)) →
      Due h q slot (fun c => isRegRead c && readRow c.reg == row) c → access (exec (mk q slot) s) (28, 36) (fun h => finishCmd c.id { status := stOk, result := (csrRead a h).1 } (csrRead a h).2)) ∧
    (∀ mk row, (mk, row) ∈ ([(.regWrite, .reg), (.wdnOppointTarget, .opPoint), (.galPerfClr, .perfClr), (.galBypassWrite, .bypass), (.wingRetire, .retire), (.wingRestore, .restore),
        (.wmcChanRetireGo, .chanRetire), (.hluLinkCtlRetrain, .hluRetrain), (.ffuFlDisable, .flDisable), (fun q t => .ffuFlLoop (some (q, t)) 0, .flLoop), (.lndLoopLink, .lndLink),
        (fun q t => .lndLoopPad (some (q, t)) 0 false 0, .lndPad), (.lndRawOwnWrite, .rawOwn), (.diuChkWrite, .chkWrite), (.diuChkRead, .chkRead)] : List ((Nat → Nat → Instr) × RegRow)) →
      Due h q slot (fun c => isRegWrite c && writeRow h c.reg c.regVal == row) c → access (exec (mk q slot) s) (32, 32) (fun h => endCmd c.id stOk (csrWrite false 0 a c.regVal h))) ∧
    (∀ bad, Due h q slot (fun c => isRegWrite c && writeRow h c.reg c.regVal == .wmcLoop) c →
      access (exec (.wmcLoopGo bad q slot) s) (32, 32) (fun h => endCmd c.id stOk (csrWrite false bad a c.regVal h))) ∧
    (csrRead 0x100 h = (h.wdn.aon.toNat % 2 ^ 32, { h with wdn := { h.wdn with aonHi := BitVec.ofNat 32 (h.wdn.aon.toNat / 2 ^ 32) } })) ∧
    (∀ v, let w := csrWrite false 0; let t := min 2 (v / 4 % 4)
      (v.testBit 8 = false → w 0x320 v h = { h with wdn := { h.wdn with opAuto := false, opFloor := v / 16 % 4, opTarget := t, opReq := if t = h.wdn.opCur then none else some t } }) ∧
      (v.testBit 1 = true → h.host.link.coeffs = true → 2 ≤ h.host.link.state →
        w 0x10000 v h = { h with host := { h.host with link := { h.host.link with listenEn := v.testBit 0, retrainReq := true, state := 5 } } }) ∧
      (v.testBit 6 = true → 49 ≤ (chansUp h).length → w 0x90008 v h = loseChan (v % 64) { h with wmc := { h.wmc with retireSel := v % 64 } }) ∧
      (∀ g, g < 96 → v.testBit 0 = true → w (0x100040 + 0x1000 * g) v h = modGal h g (fun G => { G with perfRows := 0, perfBusy := 0, perfStream := 0, perfRevoke := 0 })) ∧
      (∀ g, g < 96 → w (0x100408 + 0x1000 * g) v h = modWing h (g / 8) (fun W => { W with restore := W.restore || v.testBit 2, retire := W.retire || v.testBit 1 })) ∧
      (∀ l, l < 16 → w (0x200400 + 0x10000 * l) v h = rawOwn l v h ∧ w (0x200014 + 0x10000 * l) v h = landingLoop l v h) ∧
      (∀ f, f < 64 → w (0x20004 + 0x400 * f) v h = flightCtl f v h)) ∧
    (∀ f, f < 64 → let o := exec (.ffuFlLoop none f) s; let x := flight h f; let h1 := modFlight f (fun y => { y with replay := [], used := [], loopAt := none }) h
      (x.loopAt = none → Becomes o s h) ∧
      (∀ t, x.loopAt = some t → x.replay ≠ [] → now h < t + 10000 → Becomes o s h) ∧
      (∀ t, x.loopAt = some t → x.replay = [] ∨ t + 10000 ≤ now h → Becomes o s (x.replay.foldl (fun h r => if pktClass r.2.ty = 0 ∨ pktClass r.2.ty = 2 then reply r.2 0x83 0 2 h else h) h1))) ∧
    (∀ k sync errs, k < 64 → let o := exec (.lndLoopPad none k sync errs) s; let pad := (landing h (k / 4)).loopPad.getLsbD (k % 4)
      (pad = false → Becomes o s h) ∧ (pad = true → Becomes o s (modFchan k (fun x => { x with padSync := sync, padErrs := satAdd 8 x.padErrs errs }) h))) ∧
    (∀ k, k < 64 → let o := exec (.lndChCfgApply k) s; let runs := h.flash.ops.any (fun o => o.die / 8 = k && o.kind = .read && o.isRunning)
      (runs = true → Becomes o s h) ∧ (runs = false → Becomes o s (modFchan k (fun x => { x with vccqAct := x.vccq, rateAct := x.rate, rlatAct := x.rlat, rpreAct := x.rpre }) h))) ∧
    (∀ x, findCmd h q slot = some x → (isRegRead x || isRegWrite x) = true → x.started = true → let o := exec (.csrWakeTimeout (some (q, slot))) s;
      (∀ t, csrSince h x.reg = some t → (now h < t + 1000000 → Becomes o s h) ∧ (t + 1000000 ≤ now h → Becomes o s (endCmd x.id stBusy (csrRelease x.reg h)))) ∧
      (csrSince h x.reg = none → Becomes o s h)) ∧
    (∀ k t, h.dbg.wake = some k → csrSince h k = some t → let o := exec (.csrWakeTimeout none) s; let h1 := csrRelease k h
      (now h < t + 1000000 → Becomes o s h) ∧ (t + 1000000 ≤ now h → Becomes o s { h1 with dbg := { h1.dbg with wake := none, data := 0, err := true } }))

/-- TRST# low holds the port in reset, and nothing happens on the port without power or in reset. SAMPLE/PRELOAD captures the pins
and loads the cells; EXTEST also drives them while RESET# holds the module in reset; IDCODE returns 0x192564E3 for Idhel and
0x192574E3 for a landing; BYPASS one bit. DBG_UNLOCK with the serial number opens the gate and raises its event, another value
closes the port's ear for 1 s. While the gate is open a register access returns ERR for a bad address, asks for the block's grains
while it sleeps, else reads or writes; an OTP read returns a word with the key shown; an accumulator read needs the DEBUG overlay.
In part this rests on the model's own choices: log 3, log 57, log 60. (R559, R560, R561, R582, R565, R238, R239) -/
def Obligations.TestAccessPort : Prop :=
  ∀ (s : State), let h := s.hw; let D := h.dbg; let on := h.wdn.power = true ∧ D.trst = false; let dbg := fun (f : Debug → Debug) (h : Hw) => { h with dbg := f h.dbg }
    let ir := fun (dev code : Nat) (d : Debug) => { d with ir := tput d.ir dev code }; let open_ := on ∧ D.gate = true
    let H := dbg (ir 0 0x21) h; let ends := fun (v : Nat) (err : Bool) (h : Hw) => dbg (fun d => { d with data := BitVec.ofNat 32 v, err, wake := none }) h
    (Becomes (exec (.trstPin true) s) s (dbg (fun d => { d with trst := true, ir := [], driving := [], out := 0 }) h)) ∧
    (Becomes (exec (.trstPin false) s) s (dbg (fun d => { d with trst := false }) h)) ∧
    (∀ dev pins cells, dev < 17 → let bnd := fun (code : Nat) (d : Debug) => { (ir dev code d) with boundary := tput d.boundary dev cells, driving := d.driving.filter (fun x => x != dev), out := pins }
      (∀ i, i ∈ [Instr.tapExtest dev pins cells, .tapSamplePreload dev pins cells, .tapIdcode dev, .tapBypass dev] → ¬on → Becomes (exec i s) s h) ∧
      (on → Becomes (exec (.tapSamplePreload dev pins cells) s) s (dbg (bnd 0x02) h)) ∧
      (on → h.boot.pinLow = false → Becomes (exec (.tapExtest dev pins cells) s) s (dbg (bnd 0x00) h)) ∧
      (on → h.boot.pinLow = true → Becomes (exec (.tapExtest dev pins cells) s) s (dbg (fun d => { (bnd 0x00 d) with driving := (bnd 0x00 d).driving ++ [dev] }) h)) ∧
      (on → Becomes (exec (.tapIdcode dev) s) s (dbg (fun d => { (ir dev 0x01 d) with out := if dev = 0 then 0x192564E3 else 0x192574E3 }) h)) ∧
      (on → Becomes (exec (.tapBypass dev) s) s (dbg (fun d => { (ir dev 0x3F d) with out := 0 }) h))) ∧
    (∀ v : BitVec 128, let o := exec (.dbgUnlock v) s;
      (¬on ∨ D.gate = true ∨ now h < D.lockUntil → Becomes o s h) ∧
      (on → D.gate = false → D.lockUntil ≤ now h → v.toNat = serialNo h → Becomes o s (raiseEvent 0 0x40 2 0 0 (dbg (fun d => { (ir 0 0x20 d) with gate := true, opened := true }) h))) ∧
      (on → D.gate = false → D.lockUntil ≤ now h → v.toNat ≠ serialNo h → Becomes o s (dbg (fun d => { (ir 0 0x20 d) with lockUntil := now h + 100000000 }) h))) ∧
    (∀ a v : Word, ∀ bad, ∀ i, i ∈ [Instr.dbgCsrRead a, .dbgCsrWrite a v bad, .dbgOtpRead a, .dbgAccRead a] → ¬open_ → Becomes (exec i s) s h) ∧
    (∀ a v : Word, ∀ bad, open_ → let r := exec (.dbgCsrRead a) s; let w := exec (.dbgCsrWrite a v bad) s; let n := a.toNat; let G := dbg (fun d => { d with wake := some n }) H
      let h1 := if csrAsleep G n = true then csrRelease n G else G
      (csrOk n = false → Becomes r s (ends 0 true H) ∧ Becomes w s (ends 0 true H)) ∧
      (csrOk n = true → csrGranted G n = false → Becomes r s (grainRequest (.csrWake n) 0 G) ∧ Becomes w s (grainRequest (.csrWake n) 0 G)) ∧
      (csrOk n = true → csrGranted G n = true → Becomes r s (ends (csrRead n h1).1 false (csrRead n h1).2) ∧ Becomes w s (ends v.toNat false (csrWrite true bad n v.toNat h1)))) ∧
    (∀ a : Word, open_ → let o := exec (.dbgOtpRead a) s; let n := a.toNat; let d := 8 * (n / 2 ^ 10 % 64) + n / 2 ^ 16 % 8
      (2 ^ 19 ≤ n ∨ dieDead H d = true → Becomes o s (ends 0 true H)) ∧
      (n < 2 ^ 19 → dieDead H d = false → Becomes o s (ends (fldOf (otpRow H d true) (4 * (n % 2 ^ 10)) 4) false H))) ∧
    (∀ a : Word, open_ → let o := exec (.dbgAccRead a) s; let n := a.toNat; let g := n / 2 ^ 18 % 128; let e := accEntry g (n / 2 ^ 7 % 2 ^ 11) (n % 128) H
      (96 ≤ g ∨ 2 ^ 25 ≤ n ∨ debugOverlay H g = false → Becomes o s (ends 0 true H)) ∧
      (g < 96 → n < 2 ^ 25 → debugOverlay H g = true → Becomes o s (ends e.1 false e.2)))

end Statements
end

