-- ==== Sys2Proof/Laws/Table.lean ====
section
/-!
SUPPORT. Tables: what is read after a write, and that every operation keeps the keys rising.
-/
namespace Sys2Proof.Machine

variable {α : Type}

@[simp] theorem tget_nil (n : Nat) : tget ([] : Tbl α) n = none := rfl
@[simp] theorem tgetD_nil (n : Nat) (d : α) : tgetD ([] : Tbl α) n d = d := rfl

/-- Reading number `m` after listing `v` for number `n`. -/
theorem tget_tput (t : Tbl α) (n m : Nat) (v : α) : tget (tput t n v) m = if m = n then some v else tget t m := by
  induction t with
  | nil => simp [tput, tget]
  | cons e r ih =>
    obtain ⟨k, w⟩ := e
    unfold tput
    split
    · simp [tget]
    · split
      · subst_vars; by_cases h : m = k <;> simp [tget, h]
      · by_cases h : m = k
        · subst h; simp [tget]; omega
        · simp [tget, h, ih]

@[simp] theorem tget_tput_self (t : Tbl α) (n : Nat) (v : α) : tget (tput t n v) n = some v := by simp [tget_tput]
theorem tget_tput_ne (t : Tbl α) {n m : Nat} (v : α) (h : m ≠ n) : tget (tput t n v) m = tget t m := by simp [tget_tput, h]

theorem tgetD_tput (t : Tbl α) (n m : Nat) (v d : α) : tgetD (tput t n v) m d = if m = n then v else tgetD t m d := by
  unfold tgetD; rw [tget_tput]; split <;> rfl
@[simp] theorem tgetD_tput_self (t : Tbl α) (n : Nat) (v d : α) : tgetD (tput t n v) n d = v := by simp [tgetD_tput]
theorem tgetD_tput_ne (t : Tbl α) {n m : Nat} (v d : α) (h : m ≠ n) : tgetD (tput t n v) m d = tgetD t m d := by
  simp [tgetD_tput, h]

theorem tgetD_tmod (t : Tbl α) (n m : Nat) (d : α) (f : α → α) :
    tgetD (tmod t n d f) m d = if m = n then f (tgetD t n d) else tgetD t m d := by simp [tmod, tgetD_tput]
@[simp] theorem tgetD_tmod_self (t : Tbl α) (n : Nat) (d : α) (f : α → α) : tgetD (tmod t n d f) n d = f (tgetD t n d) := by
  simp [tgetD_tmod]
theorem tgetD_tmod_ne (t : Tbl α) {n m : Nat} (d : α) (f : α → α) (h : m ≠ n) : tgetD (tmod t n d f) m d = tgetD t m d := by
  simp [tgetD_tmod, h]

/-- Keys above a bound. -/
def keysAbove (k : Nat) : Tbl α → Prop
  | [] => True
  | (a, _) :: _ => k < a

theorem tsorted_cons (a : Nat) (v : α) (r : Tbl α) : tsorted ((a, v) :: r) = true ↔ keysAbove a r ∧ tsorted r = true := by
  cases r with
  | nil => simp [tsorted, keysAbove]
  | cons e r => obtain ⟨b, w⟩ := e; simp [tsorted, keysAbove]

theorem keysAbove_tput (t : Tbl α) (k n : Nat) (v : α) (h : keysAbove k t) (hk : k < n) : keysAbove k (tput t n v) := by
  cases t with
  | nil => simpa [tput, keysAbove]
  | cons e r =>
    obtain ⟨a, w⟩ := e
    unfold tput
    split
    · exact hk
    · split <;> first | exact hk | exact h

/-- Listing an entry keeps the keys rising. -/
theorem tsorted_tput (t : Tbl α) (n : Nat) (v : α) (h : tsorted t = true) : tsorted (tput t n v) = true := by
  induction t with
  | nil => simp [tput, tsorted]
  | cons e r ih =>
    obtain ⟨a, w⟩ := e
    have h' := (tsorted_cons a w r).1 h
    unfold tput
    split
    · rw [tsorted_cons]; exact ⟨by assumption, h⟩
    · split
      · subst_vars; exact (tsorted_cons _ v r).2 h'
      · exact (tsorted_cons a w _).2 ⟨keysAbove_tput r a n v h'.1 (by omega), ih h'.2⟩

theorem tsorted_tmod (t : Tbl α) (n : Nat) (d : α) (f : α → α) (h : tsorted t = true) : tsorted (tmod t n d f) = true :=
  tsorted_tput t n _ h

end Sys2Proof.Machine
end

