-- ==== Sys2Proof/Laws/State.lean ====
section
/-!
SUPPORT. The state: one lemma for each field and each named update, so that no proof unfolds an update; reset.
-/
namespace Sys2Proof.Machine

section
variable (h : Hw) (g : Nat) (f : Gallery → Gallery)
@[simp] theorem modGal_free : (modGal h g f).free = h.free := rfl
@[simp] theorem modGal_wdn : (modGal h g f).wdn = h.wdn := rfl
@[simp] theorem modGal_ev : (modGal h g f).ev = h.ev := rfl
@[simp] theorem modGal_wing : (modGal h g f).wing = h.wing := rfl
@[simp] theorem modGal_part : (modGal h g f).part = h.part := rfl
@[simp] theorem modGal_ctx : (modGal h g f).ctx = h.ctx := rfl
@[simp] theorem modGal_mem : (modGal h g f).mem = h.mem := rfl
@[simp] theorem modGal_jst : (modGal h g f).jst = h.jst := rfl
@[simp] theorem modGal_wmc : (modGal h g f).wmc = h.wmc := rfl
@[simp] theorem modGal_ffu : (modGal h g f).ffu = h.ffu := rfl
@[simp] theorem modGal_probe : (modGal h g f).probe = h.probe := rfl
@[simp] theorem modGal_diu : (modGal h g f).diu = h.diu := rfl
@[simp] theorem modGal_host : (modGal h g f).host = h.host := rfl
@[simp] theorem modGal_flash : (modGal h g f).flash = h.flash := rfl
@[simp] theorem modGal_mdm : (modGal h g f).mdm = h.mdm := rfl
@[simp] theorem modGal_boot : (modGal h g f).boot = h.boot := rfl
@[simp] theorem modGal_dbg : (modGal h g f).dbg = h.dbg := rfl
end

section
variable (h : Hw) (w : Nat) (f : Wing → Wing)
@[simp] theorem modWing_free : (modWing h w f).free = h.free := rfl
@[simp] theorem modWing_wdn : (modWing h w f).wdn = h.wdn := rfl
@[simp] theorem modWing_ev : (modWing h w f).ev = h.ev := rfl
@[simp] theorem modWing_gal : (modWing h w f).gal = h.gal := rfl
@[simp] theorem modWing_part : (modWing h w f).part = h.part := rfl
@[simp] theorem modWing_ctx : (modWing h w f).ctx = h.ctx := rfl
@[simp] theorem modWing_mem : (modWing h w f).mem = h.mem := rfl
@[simp] theorem modWing_jst : (modWing h w f).jst = h.jst := rfl
@[simp] theorem modWing_wmc : (modWing h w f).wmc = h.wmc := rfl
@[simp] theorem modWing_ffu : (modWing h w f).ffu = h.ffu := rfl
@[simp] theorem modWing_probe : (modWing h w f).probe = h.probe := rfl
@[simp] theorem modWing_diu : (modWing h w f).diu = h.diu := rfl
@[simp] theorem modWing_host : (modWing h w f).host = h.host := rfl
@[simp] theorem modWing_flash : (modWing h w f).flash = h.flash := rfl
@[simp] theorem modWing_mdm : (modWing h w f).mdm = h.mdm := rfl
@[simp] theorem modWing_boot : (modWing h w f).boot = h.boot := rfl
@[simp] theorem modWing_dbg : (modWing h w f).dbg = h.dbg := rfl
end

section
variable (h : Hw) (p : Nat) (f : Partition → Partition)
@[simp] theorem modPart_free : (modPart h p f).free = h.free := rfl
@[simp] theorem modPart_wdn : (modPart h p f).wdn = h.wdn := rfl
@[simp] theorem modPart_ev : (modPart h p f).ev = h.ev := rfl
@[simp] theorem modPart_gal : (modPart h p f).gal = h.gal := rfl
@[simp] theorem modPart_wing : (modPart h p f).wing = h.wing := rfl
@[simp] theorem modPart_ctx : (modPart h p f).ctx = h.ctx := rfl
@[simp] theorem modPart_mem : (modPart h p f).mem = h.mem := rfl
@[simp] theorem modPart_jst : (modPart h p f).jst = h.jst := rfl
@[simp] theorem modPart_wmc : (modPart h p f).wmc = h.wmc := rfl
@[simp] theorem modPart_ffu : (modPart h p f).ffu = h.ffu := rfl
@[simp] theorem modPart_probe : (modPart h p f).probe = h.probe := rfl
@[simp] theorem modPart_diu : (modPart h p f).diu = h.diu := rfl
@[simp] theorem modPart_host : (modPart h p f).host = h.host := rfl
@[simp] theorem modPart_flash : (modPart h p f).flash = h.flash := rfl
@[simp] theorem modPart_mdm : (modPart h p f).mdm = h.mdm := rfl
@[simp] theorem modPart_boot : (modPart h p f).boot = h.boot := rfl
@[simp] theorem modPart_dbg : (modPart h p f).dbg = h.dbg := rfl
end

section
variable (h : Hw) (c : Nat) (f : Context → Context)
@[simp] theorem modCtx_free : (modCtx h c f).free = h.free := rfl
@[simp] theorem modCtx_wdn : (modCtx h c f).wdn = h.wdn := rfl
@[simp] theorem modCtx_ev : (modCtx h c f).ev = h.ev := rfl
@[simp] theorem modCtx_gal : (modCtx h c f).gal = h.gal := rfl
@[simp] theorem modCtx_wing : (modCtx h c f).wing = h.wing := rfl
@[simp] theorem modCtx_part : (modCtx h c f).part = h.part := rfl
@[simp] theorem modCtx_mem : (modCtx h c f).mem = h.mem := rfl
@[simp] theorem modCtx_jst : (modCtx h c f).jst = h.jst := rfl
@[simp] theorem modCtx_wmc : (modCtx h c f).wmc = h.wmc := rfl
@[simp] theorem modCtx_ffu : (modCtx h c f).ffu = h.ffu := rfl
@[simp] theorem modCtx_probe : (modCtx h c f).probe = h.probe := rfl
@[simp] theorem modCtx_diu : (modCtx h c f).diu = h.diu := rfl
@[simp] theorem modCtx_host : (modCtx h c f).host = h.host := rfl
@[simp] theorem modCtx_flash : (modCtx h c f).flash = h.flash := rfl
@[simp] theorem modCtx_mdm : (modCtx h c f).mdm = h.mdm := rfl
@[simp] theorem modCtx_boot : (modCtx h c f).boot = h.boot := rfl
@[simp] theorem modCtx_dbg : (modCtx h c f).dbg = h.dbg := rfl
end

section
variable (h : Hw) (th : Thr) (f : Thread → Thread)
@[simp] theorem modThr_free : (modThr h th f).free = h.free := rfl
@[simp] theorem modThr_wdn : (modThr h th f).wdn = h.wdn := rfl
@[simp] theorem modThr_ev : (modThr h th f).ev = h.ev := rfl
@[simp] theorem modThr_wing : (modThr h th f).wing = h.wing := rfl
@[simp] theorem modThr_part : (modThr h th f).part = h.part := rfl
@[simp] theorem modThr_ctx : (modThr h th f).ctx = h.ctx := rfl
@[simp] theorem modThr_mem : (modThr h th f).mem = h.mem := rfl
@[simp] theorem modThr_jst : (modThr h th f).jst = h.jst := rfl
@[simp] theorem modThr_wmc : (modThr h th f).wmc = h.wmc := rfl
@[simp] theorem modThr_ffu : (modThr h th f).ffu = h.ffu := rfl
@[simp] theorem modThr_probe : (modThr h th f).probe = h.probe := rfl
@[simp] theorem modThr_diu : (modThr h th f).diu = h.diu := rfl
@[simp] theorem modThr_host : (modThr h th f).host = h.host := rfl
@[simp] theorem modThr_flash : (modThr h th f).flash = h.flash := rfl
@[simp] theorem modThr_mdm : (modThr h th f).mdm = h.mdm := rfl
@[simp] theorem modThr_boot : (modThr h th f).boot = h.boot := rfl
@[simp] theorem modThr_dbg : (modThr h th f).dbg = h.dbg := rfl
end

section
variable (h : Hw) (k : Nat) (f : ObjMem → ObjMem)
@[simp] theorem modMem_free : (modMem h k f).free = h.free := rfl
@[simp] theorem modMem_wdn : (modMem h k f).wdn = h.wdn := rfl
@[simp] theorem modMem_ev : (modMem h k f).ev = h.ev := rfl
@[simp] theorem modMem_gal : (modMem h k f).gal = h.gal := rfl
@[simp] theorem modMem_wing : (modMem h k f).wing = h.wing := rfl
@[simp] theorem modMem_part : (modMem h k f).part = h.part := rfl
@[simp] theorem modMem_ctx : (modMem h k f).ctx = h.ctx := rfl
@[simp] theorem modMem_jst : (modMem h k f).jst = h.jst := rfl
@[simp] theorem modMem_wmc : (modMem h k f).wmc = h.wmc := rfl
@[simp] theorem modMem_ffu : (modMem h k f).ffu = h.ffu := rfl
@[simp] theorem modMem_probe : (modMem h k f).probe = h.probe := rfl
@[simp] theorem modMem_diu : (modMem h k f).diu = h.diu := rfl
@[simp] theorem modMem_host : (modMem h k f).host = h.host := rfl
@[simp] theorem modMem_flash : (modMem h k f).flash = h.flash := rfl
@[simp] theorem modMem_mdm : (modMem h k f).mdm = h.mdm := rfl
@[simp] theorem modMem_boot : (modMem h k f).boot = h.boot := rfl
@[simp] theorem modMem_dbg : (modMem h k f).dbg = h.dbg := rfl
end

@[simp] theorem tickAon_free (h : Hw) : (tickAon h).free = h.free := by unfold tickAon; split <;> rfl
@[simp] theorem tickAon_mem (h : Hw) : (tickAon h).mem = h.mem := by unfold tickAon; split <;> rfl

/-- On an empty queue one AON count passes (log 1). -/
theorem step_empty (h : Hw) : step { pending := [], hw := h } = .next { pending := [], hw := tickAon h } := rfl

/-- The command in front is carried out on the rest. -/
theorem step_cons (c : Instr) (r : List Instr) (h : Hw) : step { pending := c :: r, hw := h } = exec c { pending := r, hw := h } := rfl

@[simp] theorem reset_pending : State.reset.pending = [] := rfl
@[simp] theorem reset_hw : State.reset.hw = {} := rfl

end Sys2Proof.Machine
end

