-- ==== Sys2Proof/Laws/Ops.lean ====
section
/-!
SUPPORT. The shared operations: everything each can do, said once.
-/
namespace Sys2Proof.Machine

/-! ## Commands -/

/-- A command on units that exist acts on the hardware and leaves the queue. -/
theorem act_next {ok : Bool} {f : Hw → Hw} {s : State} (h : ok = true) : act ok f s = .next { s with hw := f s.hw } := by
  simp [act, h]
/-- A command on a unit that does not exist stops. -/
theorem act_fault {ok : Bool} {f : Hw → Hw} {s : State} (h : ok = false) : act ok f s = .fault .noSuchUnit := by
  simp [act, h]
/-- All that a command can do: act when its units exist, stop when one does not. -/
theorem act_cases {ok : Bool} {f : Hw → Hw} {s t : State} (h : act ok f s = .next t) :
    ok = true ∧ t.pending = s.pending ∧ t.hw = f s.hw := by
  unfold act at h
  split at h
  · cases h; exact ⟨by assumption, rfl, rfl⟩
  · cases h

/-! ## Units -/

section
variable (h : Hw)

theorem gal_modGal (g k : Nat) (f : Gallery → Gallery) : gal (modGal h g f) k = if k = g then f (gal h g) else gal h k := by
  simp [gal, modGal, tgetD_tmod]
@[simp] theorem gal_modGal_self (g : Nat) (f : Gallery → Gallery) : gal (modGal h g f) g = f (gal h g) := by simp [gal_modGal]
theorem gal_modGal_ne {g k : Nat} (f : Gallery → Gallery) (e : k ≠ g) : gal (modGal h g f) k = gal h k := by simp [gal_modGal, e]

theorem wing_modWing (w k : Nat) (f : Wing → Wing) : wing (modWing h w f) k = if k = w then f (wing h w) else wing h k := by
  simp [wing, modWing, tgetD_tmod]
@[simp] theorem wing_modWing_self (w : Nat) (f : Wing → Wing) : wing (modWing h w f) w = f (wing h w) := by simp [wing_modWing]

theorem part_modPart (p k : Nat) (f : Partition → Partition) :
    part (modPart h p f) k = if k = p then f (part h p) else part h k := by
  simp [part, modPart, tgetD_tmod]
@[simp] theorem part_modPart_self (p : Nat) (f : Partition → Partition) : part (modPart h p f) p = f (part h p) := by
  simp [part_modPart]

theorem ctx_modCtx (c k : Nat) (f : Context → Context) : ctx (modCtx h c f) k = if k = c then f (ctx h c) else ctx h k := by
  simp [ctx, modCtx, tgetD_tmod]
@[simp] theorem ctx_modCtx_self (c : Nat) (f : Context → Context) : ctx (modCtx h c f) c = f (ctx h c) := by simp [ctx_modCtx]

theorem objMem_modMem (k j : Nat) (f : ObjMem → ObjMem) :
    objMem (modMem h k f) j = if j = k then f (objMem h k) else objMem h j := by
  simp [objMem, modMem, tgetD_tmod]
@[simp] theorem objMem_modMem_self (k : Nat) (f : ObjMem → ObjMem) : objMem (modMem h k f) k = f (objMem h k) := by
  simp [objMem_modMem]

theorem gal_modThr (th : Thr) (f : Thread → Thread) (g : Nat) : gal (modThr h th f) g =
    if g = th.g then { gal h g with thr := tmod (gal h g).thr th.t {} f } else gal h g := by
  unfold modThr; rw [gal_modGal]; split <;> simp [*]
@[simp] theorem thread_modThr_self (th : Thr) (f : Thread → Thread) : thread (modThr h th f) th = f (thread h th) := by
  simp [thread, gal_modThr]
theorem thread_modThr_ne {th u : Thr} (f : Thread → Thread) (e : u ≠ th) : thread (modThr h th f) u = thread h u := by
  obtain ⟨ug, ut⟩ := u; obtain ⟨tg, tt⟩ := th
  simp only [thread, gal_modThr]
  split
  · subst_vars; rw [tgetD_tmod_ne]; simpa using e
  · rfl

@[simp] theorem gal_modWing (w : Nat) (f : Wing → Wing) (g : Nat) : gal (modWing h w f) g = gal h g := rfl
@[simp] theorem gal_modPart (p : Nat) (f : Partition → Partition) (g : Nat) : gal (modPart h p f) g = gal h g := rfl
@[simp] theorem gal_modCtx (c : Nat) (f : Context → Context) (g : Nat) : gal (modCtx h c f) g = gal h g := rfl
@[simp] theorem gal_modMem (k : Nat) (f : ObjMem → ObjMem) (g : Nat) : gal (modMem h k f) g = gal h g := rfl
@[simp] theorem wing_modGal (g : Nat) (f : Gallery → Gallery) (w : Nat) : wing (modGal h g f) w = wing h w := rfl
@[simp] theorem wing_modPart (p : Nat) (f : Partition → Partition) (w : Nat) : wing (modPart h p f) w = wing h w := rfl
@[simp] theorem wing_modCtx (c : Nat) (f : Context → Context) (w : Nat) : wing (modCtx h c f) w = wing h w := rfl
@[simp] theorem wing_modMem (k : Nat) (f : ObjMem → ObjMem) (w : Nat) : wing (modMem h k f) w = wing h w := rfl
@[simp] theorem wing_modThr (th : Thr) (f : Thread → Thread) (w : Nat) : wing (modThr h th f) w = wing h w := rfl
@[simp] theorem part_modGal (g : Nat) (f : Gallery → Gallery) (p : Nat) : part (modGal h g f) p = part h p := rfl
@[simp] theorem part_modWing (w : Nat) (f : Wing → Wing) (p : Nat) : part (modWing h w f) p = part h p := rfl
@[simp] theorem part_modCtx (c : Nat) (f : Context → Context) (p : Nat) : part (modCtx h c f) p = part h p := rfl
@[simp] theorem part_modMem (k : Nat) (f : ObjMem → ObjMem) (p : Nat) : part (modMem h k f) p = part h p := rfl
@[simp] theorem part_modThr (th : Thr) (f : Thread → Thread) (p : Nat) : part (modThr h th f) p = part h p := rfl
@[simp] theorem ctx_modGal (g : Nat) (f : Gallery → Gallery) (c : Nat) : ctx (modGal h g f) c = ctx h c := rfl
@[simp] theorem ctx_modWing (w : Nat) (f : Wing → Wing) (c : Nat) : ctx (modWing h w f) c = ctx h c := rfl
@[simp] theorem ctx_modPart (p : Nat) (f : Partition → Partition) (c : Nat) : ctx (modPart h p f) c = ctx h c := rfl
@[simp] theorem ctx_modMem (k : Nat) (f : ObjMem → ObjMem) (c : Nat) : ctx (modMem h k f) c = ctx h c := rfl
@[simp] theorem ctx_modThr (th : Thr) (f : Thread → Thread) (c : Nat) : ctx (modThr h th f) c = ctx h c := rfl
@[simp] theorem objMem_modGal (g : Nat) (f : Gallery → Gallery) (k : Nat) : objMem (modGal h g f) k = objMem h k := rfl
@[simp] theorem objMem_modThr (th : Thr) (f : Thread → Thread) (k : Nat) : objMem (modThr h th f) k = objMem h k := rfl
@[simp] theorem thread_modWing (w : Nat) (f : Wing → Wing) (th : Thr) : thread (modWing h w f) th = thread h th := rfl
@[simp] theorem thread_modPart (p : Nat) (f : Partition → Partition) (th : Thr) : thread (modPart h p f) th = thread h th := rfl
@[simp] theorem thread_modCtx (c : Nat) (f : Context → Context) (th : Thr) : thread (modCtx h c f) th = thread h th := rfl
@[simp] theorem thread_modMem (k : Nat) (f : ObjMem → ObjMem) (th : Thr) : thread (modMem h k f) th = thread h th := rfl

/-- A change of a gallery that keeps its threads keeps every thread. -/
theorem thread_modGal (g : Nat) (f : Gallery → Gallery) (e : (f (gal h g)).thr = (gal h g).thr) (th : Thr) :
    thread (modGal h g f) th = thread h th := by
  simp only [thread, gal_modGal]; split <;> simp_all
end

/-- What a change of a thread makes of it decides the whole change. -/
theorem modThr_congr {h : Hw} {th : Thr} {j k : Thread → Thread} (e : j (thread h th) = k (thread h th)) : modThr h th j = modThr h th k := by
  have : ∀ i : Thread → Thread, modThr h th i = { h with gal := tput h.gal th.g { gal h th.g with
      thr := tput (gal h th.g).thr th.t (i (thread h th)) } } := fun i => rfl
  rw [this, this, e]

/-! ## Registers (04 R82) -/

@[simp] theorem sreg_setS (T : Thread) (n m : Nat) (x : DWord) : (T.setS n x).sreg m = if m = n then x else T.sreg m := by
  simp [Thread.sreg, Thread.setS, tgetD_tput]
@[simp] theorem preg_zero (T : Thread) : T.preg 0 = BitVec.allOnes 128 := rfl
@[simp] theorem preg_setP (T : Thread) (n m : Nat) (x : BitVec 128) :
    (T.setP n x).preg m = if m = n ∧ n ≠ 0 then x else T.preg m := by
  unfold Thread.preg Thread.setP
  by_cases hn : n = 0 <;> by_cases hm : m = 0 <;> simp_all [tgetD_tput]
  omega

/-! ## Counters (00 R9) -/

theorem satAdd_le (w v n : Nat) : satAdd w v n ≤ 2 ^ w - 1 := by unfold satAdd; omega
theorem le_satAdd (w v n : Nat) (h : v ≤ 2 ^ w - 1) : v ≤ satAdd w v n := by unfold satAdd; omega

end Sys2Proof.Machine
end

