-- ==== Sys2Proof/Laws/Exec.lean ====
section
/-!
SUPPORT. Commands: every meaning acts on the hardware alone, and only when the units that the command numbers exist.
-/
namespace Sys2Proof.Machine

/-- All that a command can do: act on the hardware when its units exist (and leave the queue), stop when one does not. -/
theorem exec_act (c : Instr) : ∃ f, ∀ s, exec c s = act c.wf f s := by
  cases c with
  | br th x1 => exact ⟨_, fun s => by show execBr th x1 s = _; unfold execBr; rfl⟩
  | brc th x1 => exact ⟨_, fun s => by show execBrc th x1 s = _; unfold execBrc; rfl⟩
  | call th x1 => exact ⟨_, fun s => by show execCall th x1 s = _; unfold execCall; rfl⟩
  | ret th x1 => exact ⟨_, fun s => by show execRet th x1 s = _; unfold execRet; rfl⟩
  | yield th x1 => exact ⟨_, fun s => by show execYield th x1 s = _; unfold execYield; rfl⟩
  | halt th x1 => exact ⟨_, fun s => by show execHalt th x1 s = _; unfold execHalt; rfl⟩
  | smov th x1 => exact ⟨_, fun s => by show execSmov th x1 s = _; unfold execSmov; rfl⟩
  | sadd th x1 => exact ⟨_, fun s => by show execSadd th x1 s = _; unfold execSadd; rfl⟩
  | ssub th x1 => exact ⟨_, fun s => by show execSsub th x1 s = _; unfold execSsub; rfl⟩
  | smul th x1 => exact ⟨_, fun s => by show execSmul th x1 s = _; unfold execSmul; rfl⟩
  | sand th x1 => exact ⟨_, fun s => by show execSand th x1 s = _; unfold execSand; rfl⟩
  | sor th x1 => exact ⟨_, fun s => by show execSor th x1 s = _; unfold execSor; rfl⟩
  | sxor th x1 => exact ⟨_, fun s => by show execSxor th x1 s = _; unfold execSxor; rfl⟩
  | sshl th x1 => exact ⟨_, fun s => by show execSshl th x1 s = _; unfold execSshl; rfl⟩
  | sshr th x1 => exact ⟨_, fun s => by show execSshr th x1 s = _; unfold execSshr; rfl⟩
  | ssra th x1 => exact ⟨_, fun s => by show execSsra th x1 s = _; unfold execSsra; rfl⟩
  | smin th x1 => exact ⟨_, fun s => by show execSmin th x1 s = _; unfold execSmin; rfl⟩
  | smax th x1 => exact ⟨_, fun s => by show execSmax th x1 s = _; unfold execSmax; rfl⟩
  | scmp th x1 => exact ⟨_, fun s => by show execScmp th x1 s = _; unfold execScmp; rfl⟩
  | ld th x1 => exact ⟨_, fun s => by show execLd th x1 s = _; unfold execLd; rfl⟩
  | st th x1 => exact ⟨_, fun s => by show execSt th x1 s = _; unfold execSt; rfl⟩
  | pref th x1 => exact ⟨_, fun s => by show execPref th x1 s = _; unfold execPref; rfl⟩
  | lda th x1 => exact ⟨_, fun s => by show execLda th x1 s = _; unfold execLda; rfl⟩
  | ldaComplete th seq => exact ⟨_, fun s => by show execLdaComplete th seq s = _; unfold execLdaComplete; rfl⟩
  | waita th x1 => exact ⟨_, fun s => by show execWaita th x1 s = _; unfold execWaita; rfl⟩
  | sema th x1 => exact ⟨_, fun s => by show execSema th x1 s = _; unfold execSema; rfl⟩
  | semr th x1 => exact ⟨_, fun s => by show execSemr th x1 s = _; unfold execSemr; rfl⟩
  | bar th x1 => exact ⟨_, fun s => by show execBar th x1 s = _; unfold execBar; rfl⟩
  | barrierComplete c scope n g => exact ⟨_, fun s => by show execBarrierComplete c scope n g s = _; unfold execBarrierComplete; rfl⟩
  | fence th x1 => exact ⟨_, fun s => by show execFence th x1 s = _; unfold execFence; rfl⟩
  | postedOpComplete g id => exact ⟨_, fun s => by show execPostedOpComplete g id s = _; unfold execPostedOpComplete; rfl⟩
  | send th x1 => exact ⟨_, fun s => by show execSend th x1 s = _; unfold execSend; rfl⟩
  | inboxDelivery g id => exact ⟨_, fun s => by show execInboxDelivery g id s = _; unfold execInboxDelivery; rfl⟩
  | recv th x1 => exact ⟨_, fun s => by show execRecv th x1 s = _; unfold execRecv; rfl⟩
  | madd th x1 => exact ⟨_, fun s => by show execMadd th x1 s = _; unfold execMadd; rfl⟩
  | radd th x1 => exact ⟨_, fun s => by show execRadd th x1 s = _; unfold execRadd; rfl⟩
  | memorySideAdd g id => exact ⟨_, fun s => by show execMemorySideAdd g id s = _; unfold execMemorySideAdd; rfl⟩
  | pgalloc th x1 => exact ⟨_, fun s => by show execPgalloc th x1 s = _; unfold execPgalloc; rfl⟩
  | pgfree th x1 => exact ⟨_, fun s => by show execPgfree th x1 s = _; unfold execPgfree; rfl⟩
  | stepend th x1 => exact ⟨_, fun s => by show execStepend th x1 s = _; unfold execStepend; rfl⟩
  | geom th x1 => exact ⟨_, fun s => by show execGeom th x1 s = _; unfold execGeom; rfl⟩
  | csrr th x1 => exact ⟨_, fun s => by show execCsrr th x1 s = _; unfold execCsrr; rfl⟩
  | csrw th x1 => exact ⟨_, fun s => by show execCsrw th x1 s = _; unfold execCsrw; rfl⟩
  | tdesc th x1 => exact ⟨_, fun s => by show execTdesc th x1 s = _; unfold execTdesc; rfl⟩
  | topen th x1 => exact ⟨_, fun s => by show execTopen th x1 s = _; unfold execTopen; rfl⟩
  | arrayLeaseGrant g => exact ⟨_, fun s => by show execArrayLeaseGrant g s = _; unfold execArrayLeaseGrant; rfl⟩
  | tload th x1 => exact ⟨_, fun s => by show execTload th x1 s = _; unfold execTload; rfl⟩
  | stationaryLoadStart g => exact ⟨_, fun s => by show execStationaryLoadStart g s = _; unfold execStationaryLoadStart; rfl⟩
  | stationaryLoadDone g => exact ⟨_, fun s => by show execStationaryLoadDone g s = _; unfold execStationaryLoadDone; rfl⟩
  | tswap th x1 => exact ⟨_, fun s => by show execTswap th x1 s = _; unfold execTswap; rfl⟩
  | tstream th x1 => exact ⟨_, fun s => by show execTstream th x1 s = _; unfold execTstream; rfl⟩
  | tstreamt th x1 => exact ⟨_, fun s => by show execTstreamt th x1 s = _; unfold execTstreamt; rfl⟩
  | rowEntry g => exact ⟨_, fun s => by show execRowEntry g s = _; unfold execRowEntry; rfl⟩
  | accumulatorUpdate g ecc wit => exact ⟨_, fun s => by show execAccumulatorUpdate g ecc wit s = _; unfold execAccumulatorUpdate; rfl⟩
  | burstGrant w => exact ⟨_, fun s => by show execBurstGrant w s = _; unfold execBurstGrant; rfl⟩
  | tdrain th x1 => exact ⟨_, fun s => by show execTdrain th x1 s = _; unfold execTdrain; rfl⟩
  | drainStart g => exact ⟨_, fun s => by show execDrainStart g s = _; unfold execDrainStart; rfl⟩
  | drainComplete g ecc => exact ⟨_, fun s => by show execDrainComplete g ecc s = _; unfold execDrainComplete; rfl⟩
  | vop th x1 => exact ⟨_, fun s => by show execVop th x1 s = _; unfold execVop; rfl⟩
  | vquant th x1 => exact ⟨_, fun s => by show execVquant th x1 s = _; unfold execVquant; rfl⟩
  | vrot th x1 => exact ⟨_, fun s => by show execVrot th x1 s = _; unfold execVrot; rfl⟩
  | vhist th x1 => exact ⟨_, fun s => by show execVhist th x1 s = _; unfold execVhist; rfl⟩
  | vscale th x1 => exact ⟨_, fun s => by show execVscale th x1 s = _; unfold execVscale; rfl⟩
  | selt th x1 => exact ⟨_, fun s => by show execSelt th x1 s = _; unfold execSelt; rfl⟩
  | topk th x1 => exact ⟨_, fun s => by show execTopk th x1 s = _; unfold execTopk; rfl⟩
  | merge th x1 => exact ⟨_, fun s => by show execMerge th x1 s = _; unfold execMerge; rfl⟩
  | selectionResume g => exact ⟨_, fun s => by show execSelectionResume g s = _; unfold execSelectionResume; rfl⟩
  | ptab th x1 => exact ⟨_, fun s => by show execPtab th x1 s = _; unfold execPtab; rfl⟩
  | pscan th x1 => exact ⟨_, fun s => by show execPscan th x1 s = _; unfold execPscan; rfl⟩
  | scanStart => exact ⟨_, fun s => by show execScanStart s = _; unfold execScanStart; rfl⟩
  | lpuPageScan id page => exact ⟨_, fun s => by show execLpuPageScan id page s = _; unfold execLpuPageScan; rfl⟩
  | survivorArrival id k => exact ⟨_, fun s => by show execSurvivorArrival id k s = _; unfold execSurvivorArrival; rfl⟩
  | thresholdSend id q => exact ⟨_, fun s => by show execThresholdSend id q s = _; unfold execThresholdSend; rfl⟩
  | thresholdApply id q l => exact ⟨_, fun s => by show execThresholdApply id q l s = _; unfold execThresholdApply; rfl⟩
  | appendEnd id => exact ⟨_, fun s => by show execAppendEnd id s = _; unfold execAppendEnd; rfl⟩
  | scanEnd id => exact ⟨_, fun s => by show execScanEnd id s = _; unfold execScanEnd; rfl⟩
  | pcollect th x1 => exact ⟨_, fun s => by show execPcollect th x1 s = _; unfold execPcollect; rfl⟩
  | gwalk th x1 => exact ⟨_, fun s => by show execGwalk th x1 s = _; unfold execGwalk; rfl⟩
  | issueSelect g => exact ⟨_, fun s => by show execIssueSelect g s = _; unfold execIssueSelect; rfl⟩
  | identify q slot => exact ⟨_, fun s => by show execIdentify q slot s = _; unfold execIdentify; rfl⟩
  | getLog q slot => exact ⟨_, fun s => by show execGetLog q slot s = _; unfold execGetLog; rfl⟩
  | getFeature q slot => exact ⟨_, fun s => by show execGetFeature q slot s = _; unfold execGetFeature; rfl⟩
  | queueCreate q slot => exact ⟨_, fun s => by show execQueueCreate q slot s = _; unfold execQueueCreate; rfl⟩
  | queueDelete q slot => exact ⟨_, fun s => by show execQueueDelete q slot s = _; unfold execQueueDelete; rfl⟩
  | expert q slot => exact ⟨_, fun s => by show execExpert q slot s = _; unfold execExpert; rfl⟩
  | eventMask q slot => exact ⟨_, fun s => by show execEventMask q slot s = _; unfold execEventMask; rfl⟩
  | powerCap q slot => exact ⟨_, fun s => by show execPowerCap q slot s = _; unfold execPowerCap; rfl⟩
  | sleepPolicy q slot => exact ⟨_, fun s => by show execSleepPolicy q slot s = _; unfold execSleepPolicy; rfl⟩
  | partition q slot => exact ⟨_, fun s => by show execPartition q slot s = _; unfold execPartition; rfl⟩
  | partitionReset p cmd bad wit other => exact ⟨_, fun s => by show execPartitionReset p cmd bad wit other s = _; unfold execPartitionReset; rfl⟩
  | volumeCreate q slot => exact ⟨_, fun s => by show execVolumeCreate q slot s = _; unfold execVolumeCreate; rfl⟩
  | volumeDelete q slot => exact ⟨_, fun s => by show execVolumeDelete q slot s = _; unfold execVolumeDelete; rfl⟩
  | errorLogClear q slot => exact ⟨_, fun s => by show execErrorLogClear q slot s = _; unfold execErrorLogClear; rfl⟩
  | overlayStore q slot => exact ⟨_, fun s => by show execOverlayStore q slot s = _; unfold execOverlayStore; rfl⟩
  | overlayDelete q slot => exact ⟨_, fun s => by show execOverlayDelete q slot s = _; unfold execOverlayDelete; rfl⟩
  | overlaySelect q slot => exact ⟨_, fun s => by show execOverlaySelect q slot s = _; unfold execOverlaySelect; rfl⟩
  | moduleId q slot => exact ⟨_, fun s => by show execModuleId q slot s = _; unfold execModuleId; rfl⟩
  | fwDownload q slot => exact ⟨_, fun s => by show execFwDownload q slot s = _; unfold execFwDownload; rfl⟩
  | fwCommit q slot => exact ⟨_, fun s => by show execFwCommit q slot s = _; unfold execFwCommit; rfl⟩
  | attest q slot => exact ⟨_, fun s => by show execAttest q slot s = _; unfold execAttest; rfl⟩
  | sanitizeStart q slot => exact ⟨_, fun s => by show execSanitizeStart q slot s = _; unfold execSanitizeStart; rfl⟩
  | sanitizeStatus q slot => exact ⟨_, fun s => by show execSanitizeStatus q slot s = _; unfold execSanitizeStatus; rfl⟩
  | regRead q slot => exact ⟨_, fun s => by show execRegRead q slot s = _; unfold execRegRead; rfl⟩
  | regWrite q slot => exact ⟨_, fun s => by show execRegWrite q slot s = _; unfold execRegWrite; rfl⟩
  | csrWakeTimeout who => exact ⟨_, fun s => by show execCsrWakeTimeout who s = _; unfold execCsrWakeTimeout; rfl⟩
  | abort q slot => exact ⟨_, fun s => by show execAbort q slot s = _; unfold execAbort; rfl⟩
  | read q slot => exact ⟨_, fun s => by show execRead q slot s = _; unfold execRead; rfl⟩
  | write q slot => exact ⟨_, fun s => by show execWrite q slot s = _; unfold execWrite; rfl⟩
  | trim q slot => exact ⟨_, fun s => by show execTrim q slot s = _; unfold execTrim; rfl⟩
  | flush q slot => exact ⟨_, fun s => by show execFlush q slot s = _; unfold execFlush; rfl⟩
  | objectRead q slot => exact ⟨_, fun s => by show execObjectRead q slot s = _; unfold execObjectRead; rfl⟩
  | objectWrite q slot => exact ⟨_, fun s => by show execObjectWrite q slot s = _; unfold execObjectWrite; rfl⟩
  | rawRead q slot => exact ⟨_, fun s => by show execRawRead q slot s = _; unfold execRawRead; rfl⟩
  | rawReadRaw q slot => exact ⟨_, fun s => by show execRawReadRaw q slot s = _; unfold execRawReadRaw; rfl⟩
  | rawReadLevel q slot => exact ⟨_, fun s => by show execRawReadLevel q slot s = _; unfold execRawReadLevel; rfl⟩
  | rawProgram q slot => exact ⟨_, fun s => by show execRawProgram q slot s = _; unfold execRawProgram; rfl⟩
  | rawErase q slot => exact ⟨_, fun s => by show execRawErase q slot s = _; unfold execRawErase; rfl⟩
  | rawCacheLoop q slot => exact ⟨_, fun s => by show execRawCacheLoop q slot s = _; unfold execRawCacheLoop; rfl⟩
  | rawGetDieFeature q slot => exact ⟨_, fun s => by show execRawGetDieFeature q slot s = _; unfold execRawGetDieFeature; rfl⟩
  | rawSetDieFeature q slot => exact ⟨_, fun s => by show execRawSetDieFeature q slot s = _; unfold execRawSetDieFeature; rfl⟩
  | rawReadIdent q slot => exact ⟨_, fun s => by show execRawReadIdent q slot s = _; unfold execRawReadIdent; rfl⟩
  | rawBlockState q slot => exact ⟨_, fun s => by show execRawBlockState q slot s = _; unfold execRawBlockState; rfl⟩
  | rawOtpRead q slot => exact ⟨_, fun s => by show execRawOtpRead q slot s = _; unfold execRawOtpRead; rfl⟩
  | jobLoad q slot => exact ⟨_, fun s => by show execJobLoad q slot s = _; unfold execJobLoad; rfl⟩
  | jobSubmit q slot => exact ⟨_, fun s => by show execJobSubmit q slot s = _; unfold execJobSubmit; rfl⟩
  | jobCancel q slot => exact ⟨_, fun s => by show execJobCancel q slot s = _; unfold execJobCancel; rfl⟩
  | jobStatus q slot => exact ⟨_, fun s => by show execJobStatus q slot s = _; unfold execJobStatus; rfl⟩
  | schedulingPoint p => exact ⟨_, fun s => by show execSchedulingPoint p s = _; unfold execSchedulingPoint; rfl⟩
  | groupLimitExpiry g => exact ⟨_, fun s => by show execGroupLimitExpiry g s = _; unfold execGroupLimitExpiry; rfl⟩
  | preemptionSwitch p => exact ⟨_, fun s => by show execPreemptionSwitch p s = _; unfold execPreemptionSwitch; rfl⟩
  | lendStart p n => exact ⟨_, fun s => by show execLendStart p n s = _; unfold execLendStart; rfl⟩
  | lendLimitExpiry p g t => exact ⟨_, fun s => by show execLendLimitExpiry p g t s = _; unfold execLendLimitExpiry; rfl⟩
  | contextTeardown c => exact ⟨_, fun s => by show execContextTeardown c s = _; unfold execContextTeardown; rfl⟩
  | programFault g => exact ⟨_, fun s => by show execProgramFault g s = _; unfold execProgramFault; rfl⟩
  | grainRequest r mode => exact ⟨_, fun s => by show execGrainRequest r mode s = _; unfold execGrainRequest; rw [show okReq r = Requester.wf r by cases r <;> rfl]; rfl⟩
  | grainRelease r mode => exact ⟨_, fun s => by show execGrainRelease r mode s = _; unfold execGrainRelease; rw [show okReq r = Requester.wf r by cases r <;> rfl]; rfl⟩
  | ledgerArbitration a => exact ⟨_, fun s => by show execLedgerArbitration a s = _; unfold execLedgerArbitration; rfl⟩
  | headBlocked a => exact ⟨_, fun s => by show execHeadBlocked a s = _; unfold execHeadBlocked; rfl⟩
  | revocationWaitExpiry => exact ⟨_, fun s => by show execRevocationWaitExpiry s = _; unfold execRevocationWaitExpiry; rfl⟩
  | oppointChange => exact ⟨_, fun s => by show execOppointChange s = _; unfold execOppointChange; rfl⟩
  | autoOppointLower => exact ⟨_, fun s => by show execAutoOppointLower s = _; unfold execAutoOppointLower; rfl⟩
  | autoOppointRaise => exact ⟨_, fun s => by show execAutoOppointRaise s = _; unfold execAutoOppointRaise; rfl⟩
  | powerCapSample p => exact ⟨_, fun s => by show execPowerCapSample p s = _; unfold execPowerCapSample; rfl⟩
  | thermalStep => exact ⟨_, fun s => by show execThermalStep s = _; unfold execThermalStep; rfl⟩
  | thermalTrip => exact ⟨_, fun s => by show execThermalTrip s = _; unfold execThermalTrip; rfl⟩
  | thermalTripEnd => exact ⟨_, fun s => by show execThermalTripEnd s = _; unfold execThermalTripEnd; rfl⟩
  | pllLock k => exact ⟨_, fun s => by show execPllLock k s = _; unfold execPllLock; rfl⟩
  | s1Entry w => exact ⟨_, fun s => by show execS1Entry w s = _; unfold execS1Entry; rfl⟩
  | s2Entry w => exact ⟨_, fun s => by show execS2Entry w s = _; unfold execS2Entry; rfl⟩
  | s3Entry => exact ⟨_, fun s => by show execS3Entry s = _; unfold execS3Entry; rfl⟩
  | s4Entry => exact ⟨_, fun s => by show execS4Entry s = _; unfold execS4Entry; rfl⟩
  | wakeTrigger k => exact ⟨_, fun s => by show execWakeTrigger k s = _; unfold execWakeTrigger; rfl⟩
  | domainWakeDone k => exact ⟨_, fun s => by show execDomainWakeDone k s = _; unfold execDomainWakeDone; rfl⟩
  | wdnAontimeLoRead q slot => exact ⟨_, fun s => by show execWdnAontimeLoRead q slot s = _; unfold execWdnAontimeLoRead; rfl⟩
  | wdnOppointTarget q slot => exact ⟨_, fun s => by show execWdnOppointTarget q slot s = _; unfold execWdnOppointTarget; rfl⟩
  | rcRead q slot => exact ⟨_, fun s => by show execRcRead q slot s = _; unfold execRcRead; rfl⟩
  | galPerfClr q slot => exact ⟨_, fun s => by show execGalPerfClr q slot s = _; unfold execGalPerfClr; rfl⟩
  | galBypassWrite q slot => exact ⟨_, fun s => by show execGalBypassWrite q slot s = _; unfold execGalBypassWrite; rfl⟩
  | wingRetire q slot => exact ⟨_, fun s => by show execWingRetire q slot s = _; unfold execWingRetire; rfl⟩
  | wingRestore q slot => exact ⟨_, fun s => by show execWingRestore q slot s = _; unfold execWingRestore; rfl⟩
  | wmcChanRetireGo q slot => exact ⟨_, fun s => by show execWmcChanRetireGo q slot s = _; unfold execWmcChanRetireGo; rfl⟩
  | wmcLoopGo bad q slot => exact ⟨_, fun s => by show execWmcLoopGo bad q slot s = _; unfold execWmcLoopGo; rfl⟩
  | hluLinkCtlRetrain q slot => exact ⟨_, fun s => by show execHluLinkCtlRetrain q slot s = _; unfold execHluLinkCtlRetrain; rfl⟩
  | ffuFlDisable q slot => exact ⟨_, fun s => by show execFfuFlDisable q slot s = _; unfold execFfuFlDisable; rfl⟩
  | ffuFlLoop w x1 => exact ⟨_, fun s => by show execFfuFlLoop w x1 s = _; unfold execFfuFlLoop; rfl⟩
  | lndLoopLink q slot => exact ⟨_, fun s => by show execLndLoopLink q slot s = _; unfold execLndLoopLink; rfl⟩
  | lndLoopPad w c sync errs => exact ⟨_, fun s => by show execLndLoopPad w c sync errs s = _; unfold execLndLoopPad; rfl⟩
  | lndRawOwnWrite q slot => exact ⟨_, fun s => by show execLndRawOwnWrite q slot s = _; unfold execLndRawOwnWrite; rfl⟩
  | lndChCfgApply c => exact ⟨_, fun s => by show execLndChCfgApply c s = _; unfold execLndChCfgApply; rfl⟩
  | diuChkWrite q slot => exact ⟨_, fun s => by show execDiuChkWrite q slot s = _; unfold execDiuChkWrite; rfl⟩
  | diuChkRead q slot => exact ⟨_, fun s => by show execDiuChkRead q slot s = _; unfold execDiuChkRead; rfl⟩
  | doorbell q count first len lat es => exact ⟨_, fun s => by show execDoorbell q count first len lat es s = _; unfold execDoorbell; rfl⟩
  | cqHead q head => exact ⟨_, fun s => by show execCqHead q head s = _; unfold execCqHead; rfl⟩
  | completionPost q => exact ⟨_, fun s => by show execCompletionPost q s = _; unfold execCompletionPost; rfl⟩
  | eventPost => exact ⟨_, fun s => by show execEventPost s = _; unfold execEventPost; rfl⟩
  | readData rtag len data => exact ⟨_, fun s => by show execReadData rtag len data s = _; unfold execReadData; rfl⟩
  | init credits => exact ⟨_, fun s => by show execInit credits s = _; unfold execInit; rfl⟩
  | initRetry => exact ⟨_, fun s => by show execInitRetry s = _; unfold execInitRetry; rfl⟩
  | width w => exact ⟨_, fun s => by show execWidth w s = _; unfold execWidth; rfl⟩
  | resync => exact ⟨_, fun s => by show execResync s = _; unfold execResync; rfl⟩
  | loop depth echo => exact ⟨_, fun s => by show execLoop depth echo s = _; unfold execLoop; rfl⟩
  | hostFlitReceive x => exact ⟨_, fun s => by show execHostFlitReceive x s = _; unfold execHostFlitReceive; rfl⟩
  | hostReplayTimeout => exact ⟨_, fun s => by show execHostReplayTimeout s = _; unfold execHostReplayTimeout; rfl⟩
  | hostLinkTraining lanes => exact ⟨_, fun s => by show execHostLinkTraining lanes s = _; unfold execHostLinkTraining; rfl⟩
  | trainingRetry => exact ⟨_, fun s => by show execTrainingRetry s = _; unfold execTrainingRetry; rfl⟩
  | hostLinkRetrain lanes => exact ⟨_, fun s => by show execHostLinkRetrain lanes s = _; unfold execHostLinkRetrain; rfl⟩
  | adapterLinkReset => exact ⟨_, fun s => by show execAdapterLinkReset s = _; unfold execAdapterLinkReset; rfl⟩
  | linkWideningDone => exact ⟨_, fun s => by show execLinkWideningDone s = _; unfold execLinkWideningDone; rfl⟩
  | landingFlitReceive l up x => exact ⟨_, fun s => by show execLandingFlitReceive l up x s = _; unfold execLandingFlitReceive; rfl⟩
  | landingReplayTimeout l up => exact ⟨_, fun s => by show execLandingReplayTimeout l up s = _; unfold execLandingReplayTimeout; rfl⟩
  | landingLinkRetrain l lanes => exact ⟨_, fun s => by show execLandingLinkRetrain l lanes s = _; unfold execLandingLinkRetrain; rfl⟩
  | landingLost l fatal => exact ⟨_, fun s => by show execLandingLost l fatal s = _; unfold execLandingLost; rfl⟩
  | channelGrant c => exact ⟨_, fun s => by show execChannelGrant c s = _; unfold execChannelGrant; rfl⟩
  | classCWaitExpiry c => exact ⟨_, fun s => by show execClassCWaitExpiry c s = _; unfold execClassCWaitExpiry; rfl⟩
  | classDWaitExpiry c => exact ⟨_, fun s => by show execClassDWaitExpiry c s = _; unfold execClassDWaitExpiry; rfl⟩
  | programSuspend d p => exact ⟨_, fun s => by show execProgramSuspend d p s = _; unfold execProgramSuspend; rfl⟩
  | suspendResume d p => exact ⟨_, fun s => by show execSuspendResume d p s = _; unfold execSuspendResume; rfl⟩
  | flashReadDone d p errs => exact ⟨_, fun s => by show execFlashReadDone d p errs s = _; unfold execFlashReadDone; rfl⟩
  | tier2Reread id left => exact ⟨_, fun s => by show execTier2Reread id left s = _; unfold execTier2Reread; rfl⟩
  | tier3Reconstruct id bad ok => exact ⟨_, fun s => by show execTier3Reconstruct id bad ok s = _; unfold execTier3Reconstruct; rfl⟩
  | flashProgramDone d p ok => exact ⟨_, fun s => by show execFlashProgramDone d p ok s = _; unfold execFlashProgramDone; rfl⟩
  | flashEraseDone d ok => exact ⟨_, fun s => by show execFlashEraseDone d ok s = _; unfold execFlashEraseDone; rfl⟩
  | readBufferExpiry l => exact ⟨_, fun s => by show execReadBufferExpiry l s = _; unfold execReadBufferExpiry; rfl⟩
  | calibrationIdleCheck d g => exact ⟨_, fun s => by show execCalibrationIdleCheck d g s = _; unfold execCalibrationIdleCheck; rfl⟩
  | landingBootCheck l fresh => exact ⟨_, fun s => by show execLandingBootCheck l fresh s = _; unfold execLandingBootCheck; rfl⟩
  | wearWindowAdvance d => exact ⟨_, fun s => by show execWearWindowAdvance d s = _; unfold execWearWindowAdvance; rfl⟩
  | wearWindowCommit d => exact ⟨_, fun s => by show execWearWindowCommit d s = _; unfold execWearWindowCommit; rfl⟩
  | antirollAdvance f0 f32 => exact ⟨_, fun s => by show execAntirollAdvance f0 f32 s = _; unfold execAntirollAdvance; rfl⟩
  | lzPageProgrammed id => exact ⟨_, fun s => by show execLzPageProgrammed id s = _; unfold execLzPageProgrammed; rfl⟩
  | lzCopyFail id => exact ⟨_, fun s => by show execLzCopyFail id s = _; unfold execLzCopyFail; rfl⟩
  | journalPageStart => exact ⟨_, fun s => by show execJournalPageStart s = _; unfold execJournalPageStart; rfl⟩
  | journalPageDurable => exact ⟨_, fun s => by show execJournalPageDurable s = _; unfold execJournalPageDurable; rfl⟩
  | tallySettle q cid => exact ⟨_, fun s => by show execTallySettle q cid s = _; unfold execTallySettle; rfl⟩
  | checkpointStart => exact ⟨_, fun s => by show execCheckpointStart s = _; unfold execCheckpointStart; rfl⟩
  | mapRootWrite => exact ⟨_, fun s => by show execMapRootWrite s = _; unfold execMapRootWrite; rfl⟩
  | mdmRecovery => exact ⟨_, fun s => by show execMdmRecovery s = _; unfold execMdmRecovery; rfl⟩
  | mapPieceReload p ends => exact ⟨_, fun s => by show execMapPieceReload p ends s = _; unfold execMapPieceReload; rfl⟩
  | nailFold vol span => exact ⟨_, fun s => by show execNailFold vol span s = _; unfold execNailFold; rfl⟩
  | nailBudgetFold => exact ⟨_, fun s => by show execNailBudgetFold s = _; unfold execNailBudgetFold; rfl⟩
  | voidPageFill id sb => exact ⟨_, fun s => by show execVoidPageFill id sb s = _; unfold execVoidPageFill; rfl⟩
  | reclaimStart k => exact ⟨_, fun s => by show execReclaimStart k s = _; unfold execReclaimStart; rfl⟩
  | lzDestage sb => exact ⟨_, fun s => by show execLzDestage sb s = _; unfold execLzDestage; rfl⟩
  | reclaimRowVerify id sb bad => exact ⟨_, fun s => by show execReclaimRowVerify id sb bad s = _; unfold execReclaimRowVerify; rfl⟩
  | victimErase id => exact ⟨_, fun s => by show execVictimErase id s = _; unfold execVictimErase; rfl⟩
  | rowProgramFail id sb => exact ⟨_, fun s => by show execRowProgramFail id sb s = _; unfold execRowProgramFail; rfl⟩
  | memberSubstitution d b => exact ⟨_, fun s => by show execMemberSubstitution d b s = _; unfold execMemberSubstitution; rfl⟩
  | dieOutOfService d lost => exact ⟨_, fun s => by show execDieOutOfService d lost s = _; unfold execDieOutOfService; rfl⟩
  | dieRebuild d => exact ⟨_, fun s => by show execDieRebuild d s = _; unfold execDieRebuild; rfl⟩
  | readOnlyEntry => exact ⟨_, fun s => by show execReadOnlyEntry s = _; unfold execReadOnlyEntry; rfl⟩
  | sanitizePhase1 d bad => exact ⟨_, fun s => by show execSanitizePhase1 d bad s = _; unfold execSanitizePhase1; rfl⟩
  | sanitizePhase2 => exact ⟨_, fun s => by show execSanitizePhase2 s = _; unfold execSanitizePhase2; rfl⟩
  | sanitizeProgress => exact ⟨_, fun s => by show execSanitizeProgress s = _; unfold execSanitizeProgress; rfl⟩
  | sanitizeEnd => exact ⟨_, fun s => by show execSanitizeEnd s = _; unfold execSanitizeEnd; rfl⟩
  | powerOnHour => exact ⟨_, fun s => by show execPowerOnHour s = _; unfold execPowerOnHour; rfl⟩
  | criticalWordVote w bad => exact ⟨_, fun s => by show execCriticalWordVote w bad s = _; unfold execCriticalWordVote; rfl⟩
  | criticalWordWrite w n => exact ⟨_, fun s => by show execCriticalWordWrite w n s = _; unfold execCriticalWordWrite; rfl⟩
  | voteSplit w => exact ⟨_, fun s => by show execVoteSplit w s = _; unfold execVoteSplit; rfl⟩
  | patrolScrub store unit row word ecc => exact ⟨_, fun s => by show execPatrolScrub store unit row word ecc s = _; unfold execPatrolScrub; rfl⟩
  | scrubWriteback newer => exact ⟨_, fun s => by show execScrubWriteback newer s = _; unfold execScrubWriteback; rfl⟩
  | errorLogWindow => exact ⟨_, fun s => by show execErrorLogWindow s = _; unfold execErrorLogWindow; rfl⟩
  | sramRowRemap ty addr => exact ⟨_, fun s => by show execSramRowRemap ty addr s = _; unfold execSramRowRemap; rfl⟩
  | dramRowRemap c row => exact ⟨_, fun s => by show execDramRowRemap c row s = _; unfold execDramRowRemap; rfl⟩
  | dramChannelLoss c => exact ⟨_, fun s => by show execDramChannelLoss c s = _; unfold execDramChannelLoss; rfl⟩
  | dramRequestServe c ecc => exact ⟨_, fun s => by show execDramRequestServe c ecc s = _; unfold execDramRequestServe; rfl⟩
  | dramRequestAgeExpiry c => exact ⟨_, fun s => by show execDramRequestAgeExpiry c s = _; unfold execDramRequestAgeExpiry; rfl⟩
  | flightTraining x0 lanes rtt => exact ⟨_, fun s => by show execFlightTraining x0 lanes rtt s = _; unfold execFlightTraining; rfl⟩
  | hello x0 peer => exact ⟨_, fun s => by show execHello x0 peer s = _; unfold execHello; rfl⟩
  | flightFlitReceive x0 x => exact ⟨_, fun s => by show execFlightFlitReceive x0 x s = _; unfold execFlightFlitReceive; rfl⟩
  | flightReplayTimeout x0 => exact ⟨_, fun s => by show execFlightReplayTimeout x0 s = _; unfold execFlightReplayTimeout; rfl⟩
  | flightRetrain x0 ok => exact ⟨_, fun s => by show execFlightRetrain x0 ok s = _; unfold execFlightRetrain; rfl⟩
  | flightLost x0 => exact ⟨_, fun s => by show execFlightLost x0 s = _; unfold execFlightLost; rfl⟩
  | linkState seat st => exact ⟨_, fun s => by show execLinkState seat st s = _; unfold execLinkState; rfl⟩
  | linkStatePeriodic loads => exact ⟨_, fun s => by show execLinkStatePeriodic loads s = _; unfold execLinkStatePeriodic; rfl⟩
  | flightWake x0 => exact ⟨_, fun s => by show execFlightWake x0 s = _; unfold execFlightWake; rfl⟩
  | packetForward => exact ⟨_, fun s => by show execPacketForward s = _; unfold execPacketForward; rfl⟩
  | remoteReadServe => exact ⟨_, fun s => by show execRemoteReadServe s = _; unfold execRemoteReadServe; rfl⟩
  | remoteWriteServe => exact ⟨_, fun s => by show execRemoteWriteServe s = _; unfold execRemoteWriteServe; rfl⟩
  | remoteAddServe => exact ⟨_, fun s => by show execRemoteAddServe s = _; unfold execRemoteAddServe; rfl⟩
  | mailServe => exact ⟨_, fun s => by show execMailServe s = _; unfold execMailServe; rfl⟩
  | mailStoreMove c => exact ⟨_, fun s => by show execMailStoreMove c s = _; unfold execMailStoreMove; rfl⟩
  | arrive => exact ⟨_, fun s => by show execArrive s = _; unfold execArrive; rfl⟩
  | barrierCancel => exact ⟨_, fun s => by show execBarrierCancel s = _; unfold execBarrierCancel; rfl⟩
  | barrierRelease => exact ⟨_, fun s => by show execBarrierRelease s = _; unfold execBarrierRelease; rfl⟩
  | remoteData => exact ⟨_, fun s => by show execRemoteData s = _; unfold execRemoteData; rfl⟩
  | remoteAck => exact ⟨_, fun s => by show execRemoteAck s = _; unfold execRemoteAck; rfl⟩
  | nack => exact ⟨_, fun s => by show execNack s = _; unfold execNack; rfl⟩
  | resendTimer tag => exact ⟨_, fun s => by show execResendTimer tag s = _; unfold execResendTimer; rfl⟩
  | requestTimeout tag => exact ⟨_, fun s => by show execRequestTimeout tag s = _; unfold execRequestTimeout; rfl⟩
  | barrierTimeout c n => exact ⟨_, fun s => by show execBarrierTimeout c n s = _; unfold execBarrierTimeout; rfl⟩
  | rootBarrierTimeout c n => exact ⟨_, fun s => by show execRootBarrierTimeout c n s = _; unfold execRootBarrierTimeout; rfl⟩
  | powerGoodAssert v => exact ⟨_, fun s => by show execPowerGoodAssert v s = _; unfold execPowerGoodAssert; rfl⟩
  | powerGoodDeassert v => exact ⟨_, fun s => by show execPowerGoodDeassert v s = _; unfold execPowerGoodDeassert; rfl⟩
  | boot => exact ⟨_, fun s => by show execBoot s = _; unfold execBoot; rfl⟩
  | trialReadyTimeout => exact ⟨_, fun s => by show execTrialReadyTimeout s = _; unfold execTrialReadyTimeout; rfl⟩
  | watchdogExpiry => exact ⟨_, fun s => by show execWatchdogExpiry s = _; unfold execWatchdogExpiry; rfl⟩
  | moduleReset cause => exact ⟨_, fun s => by show execModuleReset cause s = _; unfold execModuleReset; rfl⟩
  | wardenRomRestart => exact ⟨_, fun s => by show execWardenRomRestart s = _; unfold execWardenRomRestart; rfl⟩
  | resetPin low => exact ⟨_, fun s => by show execResetPin low s = _; unfold execResetPin; rfl⟩
  | trstPin low => exact ⟨_, fun s => by show execTrstPin low s = _; unfold execTrstPin; rfl⟩
  | emstopPin low => exact ⟨_, fun s => by show execEmstopPin low s = _; unfold execEmstopPin; rfl⟩
  | coolantHotCheck => exact ⟨_, fun s => by show execCoolantHotCheck s = _; unfold execCoolantHotCheck; rfl⟩
  | coolantDtCheck => exact ⟨_, fun s => by show execCoolantDtCheck s = _; unfold execCoolantDtCheck; rfl⟩
  | flashHot => exact ⟨_, fun s => by show execFlashHot s = _; unfold execFlashHot; rfl⟩
  | sensorSample k t => exact ⟨_, fun s => by show execSensorSample k t s = _; unfold execSensorSample; rfl⟩
  | tapExtest dev pins cells => exact ⟨_, fun s => by show execTapExtest dev pins cells s = _; unfold execTapExtest; rfl⟩
  | tapIdcode dev => exact ⟨_, fun s => by show execTapIdcode dev s = _; unfold execTapIdcode; rfl⟩
  | tapSamplePreload dev pins cells => exact ⟨_, fun s => by show execTapSamplePreload dev pins cells s = _; unfold execTapSamplePreload; rfl⟩
  | tapBypass dev => exact ⟨_, fun s => by show execTapBypass dev s = _; unfold execTapBypass; rfl⟩
  | dbgUnlock v => exact ⟨_, fun s => by show execDbgUnlock v s = _; unfold execDbgUnlock; rfl⟩
  | dbgCsrRead a => exact ⟨_, fun s => by show execDbgCsrRead a s = _; unfold execDbgCsrRead; rfl⟩
  | dbgCsrWrite a v bad => exact ⟨_, fun s => by show execDbgCsrWrite a v bad s = _; unfold execDbgCsrWrite; rfl⟩
  | dbgOtpRead a => exact ⟨_, fun s => by show execDbgOtpRead a s = _; unfold execDbgOtpRead; rfl⟩
  | dbgAccRead a => exact ⟨_, fun s => by show execDbgAccRead a s = _; unfold execDbgAccRead; rfl⟩
  | smbInventory a pec => exact ⟨_, fun s => by show execSmbInventory a pec s = _; unfold execSmbInventory; rfl⟩
  | smbStatus a pec => exact ⟨_, fun s => by show execSmbStatus a pec s = _; unfold execSmbStatus; rfl⟩
  | smbPower a pec => exact ⟨_, fun s => by show execSmbPower a pec s = _; unfold execSmbPower; rfl⟩
  | smbVoltage a pec => exact ⟨_, fun s => by show execSmbVoltage a pec s = _; unfold execSmbVoltage; rfl⟩
  | smbHottest a pec => exact ⟨_, fun s => by show execSmbHottest a pec s = _; unfold execSmbHottest; rfl⟩
  | smbSensorSel a pec v => exact ⟨_, fun s => by show execSmbSensorSel a pec v s = _; unfold execSmbSensorSel; rfl⟩
  | smbSensor a pec => exact ⟨_, fun s => by show execSmbSensor a pec s = _; unfold execSmbSensor; rfl⟩
  | smbVoteStat a pec => exact ⟨_, fun s => by show execSmbVoteStat a pec s = _; unfold execSmbVoteStat; rfl⟩
  | smbAlertClr a pec v => exact ⟨_, fun s => by show execSmbAlertClr a pec v s = _; unfold execSmbAlertClr; rfl⟩
  | smbEmstop a pec v => exact ⟨_, fun s => by show execSmbEmstop a pec v s = _; unfold execSmbEmstop; rfl⟩
  | smbReset a pec v => exact ⟨_, fun s => by show execSmbReset a pec v s = _; unfold execSmbReset; rfl⟩
  | smbAlertResponse => exact ⟨_, fun s => by show execSmbAlertResponse s = _; unfold execSmbAlertResponse; rfl⟩
  | loadDataArrival th => exact ⟨_, fun s => by show execLoadDataArrival th s = _; unfold execLoadDataArrival; rfl⟩
  | selectionComplete g => exact ⟨_, fun s => by show execSelectionComplete g s = _; unfold execSelectionComplete; rfl⟩
  | walkComplete th => exact ⟨_, fun s => by show execWalkComplete th s = _; unfold execWalkComplete; rfl⟩
  | cableDetect x0 present => exact ⟨_, fun s => by show execCableDetect x0 present s = _; unfold execCableDetect; rfl⟩
  | cableSupplyOverload x0 => exact ⟨_, fun s => by show execCableSupplyOverload x0 s = _; unfold execCableSupplyOverload; rfl⟩

end Sys2Proof.Machine
end

