-- ==== Sys2Proof/Laws/Memory.lean ====
section
/-!
SUPPORT. Contents of objects (04 R91, R123; 13 R355): what is read after a write, and that every operation keeps the canonical form.
-/
namespace Sys2Proof.Machine

/-! ## Lists of cells -/

theorem cellGet_put (l : List Host.Cell) (a x : Nat) (b : Byte) : cellGet (cellPut l a b) x = if x = a then some b else cellGet l x := by
  induction l with
  | nil => simp [cellPut, cellGet]
  | cons e r ih =>
    obtain ⟨k, v⟩ := e
    unfold cellPut
    split
    · simp [cellGet]
    · split
      · subst_vars; by_cases h : x = k <;> simp [cellGet, h]
      · by_cases h : x = k
        · subst h; simp [cellGet]; omega
        · simp [cellGet, h, ih]

/-- Every key lies above `k`. -/
def cellsAbove (k : Nat) : List Host.Cell → Prop
  | [] => True
  | (a, _) :: _ => k < a

theorem cellSorted_cons (a : Nat) (v : Byte) (r : List Host.Cell) :
    cellSorted ((a, v) :: r) = true ↔ cellsAbove a r ∧ cellSorted r = true := by
  cases r with
  | nil => simp [cellSorted, cellsAbove]
  | cons e r => obtain ⟨b, w⟩ := e; simp [cellSorted, cellsAbove]

theorem cellsAbove_mono {j k : Nat} {l : List Host.Cell} (h : cellsAbove k l) (e : j ≤ k) : cellsAbove j l := by
  cases l with
  | nil => trivial
  | cons x r => exact Nat.lt_of_le_of_lt e h

theorem cellGet_above {k x : Nat} {l : List Host.Cell} (h : cellsAbove k l) (s : cellSorted l = true) (e : x ≤ k) : cellGet l x = none := by
  induction l generalizing k with
  | nil => rfl
  | cons y r ih =>
    obtain ⟨a, v⟩ := y
    have h' : k < a := h
    have s' := (cellSorted_cons a v r).1 s
    have : x ≠ a := by omega
    simp only [cellGet, if_neg this]
    exact ih s'.1 s'.2 (by omega)

theorem cellGet_del (l : List Host.Cell) (a x : Nat) (s : cellSorted l = true) :
    cellGet (cellDel l a) x = if x = a then none else cellGet l x := by
  induction l with
  | nil => simp [cellDel, cellGet]
  | cons e r ih =>
    obtain ⟨k, v⟩ := e
    have s' := (cellSorted_cons k v r).1 s
    unfold cellDel
    split
    · subst_vars
      by_cases h : x = k
      · subst h; simpa using cellGet_above s'.1 s'.2 (Nat.le_refl x)
      · simp [cellGet, h]
    · by_cases h : x = k
      · subst h; simp [cellGet]; omega
      · simp [cellGet, h, ih s'.2]

theorem cellsAbove_put {k a : Nat} {l : List Host.Cell} (b : Byte) (h : cellsAbove k l) (e : k < a) : cellsAbove k (cellPut l a b) := by
  cases l with
  | nil => exact e
  | cons x r =>
    obtain ⟨c, v⟩ := x
    unfold cellPut
    split
    · exact e
    · split <;> first | exact e | exact h

theorem cellSorted_put (l : List Host.Cell) (a : Nat) (b : Byte) (s : cellSorted l = true) : cellSorted (cellPut l a b) = true := by
  induction l with
  | nil => simp [cellPut, cellSorted]
  | cons e r ih =>
    obtain ⟨k, v⟩ := e
    have s' := (cellSorted_cons k v r).1 s
    unfold cellPut
    split
    · rw [cellSorted_cons]; exact ⟨by assumption, s⟩
    · split
      · subst_vars; exact (cellSorted_cons _ b r).2 s'
      · exact (cellSorted_cons k v _).2 ⟨cellsAbove_put b s'.1 (by omega), ih s'.2⟩

theorem cellsAbove_tail {k a : Nat} {v : Byte} {r : List Host.Cell} (h : cellsAbove k ((a, v) :: r)) (s : cellSorted ((a, v) :: r) = true) :
    cellsAbove k r := by
  have h' : k < a := h
  exact cellsAbove_mono ((cellSorted_cons a v r).1 s).1 (by omega)

theorem cellsAbove_del {k a : Nat} {l : List Host.Cell} (h : cellsAbove k l) (s : cellSorted l = true) : cellsAbove k (cellDel l a) := by
  cases l with
  | nil => trivial
  | cons x r =>
    obtain ⟨c, v⟩ := x
    unfold cellDel
    split
    · exact cellsAbove_tail h s
    · exact h

theorem cellSorted_del (l : List Host.Cell) (a : Nat) (s : cellSorted l = true) : cellSorted (cellDel l a) = true := by
  induction l with
  | nil => rfl
  | cons e r ih =>
    obtain ⟨k, v⟩ := e
    have s' := (cellSorted_cons k v r).1 s
    unfold cellDel
    split
    · exact s'.2
    · exact (cellSorted_cons k v _).2 ⟨cellsAbove_del s'.1 s'.2, ih s'.2⟩

theorem cellsAbove_drop {k : Nat} {l : List Host.Cell} (p : Host.Cell → Bool) (h : cellsAbove k l) (s : cellSorted l = true) :
    cellsAbove k (l.filter p) := by
  induction l with
  | nil => trivial
  | cons x r ih =>
    obtain ⟨c, v⟩ := x
    rw [List.filter_cons]
    split
    · exact h
    · exact ih (cellsAbove_tail h s) ((cellSorted_cons c v r).1 s).2

theorem cellSorted_filter (l : List Host.Cell) (p : Host.Cell → Bool) (s : cellSorted l = true) : cellSorted (l.filter p) = true := by
  induction l with
  | nil => rfl
  | cons x r ih =>
    obtain ⟨c, v⟩ := x
    have s' := (cellSorted_cons c v r).1 s
    rw [List.filter_cons]
    split
    · exact (cellSorted_cons c v _).2 ⟨cellsAbove_drop p s'.1 s'.2, ih s'.2⟩
    · exact ih s'.2

theorem mem_cellPut {l : List Host.Cell} {a : Nat} {b : Byte} {c : Host.Cell} (h : c ∈ cellPut l a b) : c = (a, b) ∨ c ∈ l := by
  induction l with
  | nil => simpa [cellPut] using h
  | cons e r ih =>
    obtain ⟨k, v⟩ := e
    unfold cellPut at h
    split at h
    · simpa using h
    · split at h
      · simp only [List.mem_cons] at h ⊢; exact h.imp_right .inr
      · simp only [List.mem_cons] at h ⊢
        rcases h with h | h
        · exact .inr (.inl h)
        · exact (ih h).imp_right .inr

theorem mem_cellDel {l : List Host.Cell} {a : Nat} {c : Host.Cell} (h : c ∈ cellDel l a) : c ∈ l := by
  induction l with
  | nil => exact h
  | cons e r ih =>
    obtain ⟨k, v⟩ := e
    unfold cellDel at h
    split at h
    · exact List.mem_cons_of_mem _ h
    · simp only [List.mem_cons] at h ⊢; exact h.imp_right ih

/-! ## One object -/

theorem wf_iff (m : ObjMem) : m.wf = true ↔ cellSorted m.cells = true ∧ ∀ c ∈ m.cells, m.unlisted c.1 ≠ some c.2 := by
  simp [ObjMem.wf]

theorem wf_of_empty (m : ObjMem) (h : m.cells = []) : m.wf = true := by simp [wf_iff, h, cellSorted]

@[simp] theorem unlisted_write (m : ObjMem) (a x : Nat) (b : Byte) : (m.write a b).unlisted x = m.unlisted x := rfl

/-- A byte written keeps the canonical form. -/
theorem wf_write (m : ObjMem) (a : Nat) (b : Byte) (h : m.wf = true) : (m.write a b).wf = true := by
  rw [wf_iff] at h ⊢
  simp only [unlisted_write]
  simp only [ObjMem.write]
  split
  · exact ⟨cellSorted_del _ _ h.1, fun c hc => h.2 c (mem_cellDel hc)⟩
  · refine ⟨cellSorted_put _ _ _ h.1, fun c hc => ?_⟩
    rcases mem_cellPut hc with rfl | hc
    · assumption
    · exact h.2 c hc

/-- A range that becomes undefined keeps it. -/
theorem wf_forget (m : ObjMem) (lo len e : Nat) (h : m.wf = true) : (m.forget lo len e).wf = true := by
  rw [wf_iff] at h ⊢
  refine ⟨cellSorted_filter _ _ h.1, fun c hc => ?_⟩
  simp only [ObjMem.forget, cellDrop, List.mem_filter] at hc
  have u : (m.forget lo len e).unlisted c.1 = if Rng.has { lo, len, epoch := e } c.1 then none else m.unlisted c.1 := by
    have f : (m.forget lo len e).undef.any (fun r => r.has c.1) =
        (Rng.has { lo, len, epoch := e } c.1 || m.undef.any (fun r => r.has c.1)) := rfl
    have z : (m.forget lo len e).zero = m.zero := rfl
    simp only [ObjMem.unlisted, f, z]
    cases Rng.has { lo, len, epoch := e } c.1
    · simp
    · simp
  rw [u]
  split
  · exact fun x => nomatch x
  · exact h.2 c hc.1

theorem wf_foldl_write (ws : List (Nat × Byte)) (m : ObjMem) (h : m.wf = true) : (ws.foldl (fun m x => m.write x.1 x.2) m).wf = true := by
  induction ws generalizing m with
  | nil => exact h
  | cons x r ih => exact ih _ (wf_write m _ _ h)

/-- A list of stores keeps it, whatever words are uncorrectable. -/
theorem wf_store (m : ObjMem) (tier : Nat) (ws : List (Nat × Byte)) (h : m.wf = true) : (m.store tier ws).1.wf = true := by
  unfold ObjMem.store
  split
  · exact wf_foldl_write ws m h
  · exact wf_foldl_write _ _ (by rw [wf_iff] at h ⊢; exact h)

/-- A byte reads as it was last written, and every other byte as before (of bytes no LDA in flight will write). -/
theorem read_write (m : ObjMem) (a x : Nat) (b : Byte) (h : m.wf = true) (f : m.flight.all (fun r => !r.has x) = true) :
    (m.write a b).read x = if x = a then b else m.read x := by
  rw [wf_iff] at h
  have nf : ∀ l : List InFlight, l.all (fun r => !r.has x) = true →
      (l.map (fun r => if r.has a then { r with spoiled := true } else r)).find? (fun r => r.has x) = none ∧ l.find? (fun r => r.has x) = none := by
    intro l hl
    refine ⟨?_, ?_⟩
    · simp only [List.find?_eq_none, List.mem_map]
      rintro y ⟨r, hr, rfl⟩
      have := List.all_eq_true.1 hl r hr
      have e : ∀ q, (if r.has a then { r with spoiled := true } else r : InFlight) = q → q.has x = r.has x := by
        rintro _ rfl; split <;> rfl
      rw [e _ rfl]; simpa using this
    · simp only [List.find?_eq_none]
      intro r hr
      simpa using List.all_eq_true.1 hl r hr
  have e1 := (nf m.flight f).1
  have e2 := (nf m.flight f).2
  have u : ∀ y, (m.write a b).unknown y = m.unknown y := fun y => rfl
  unfold ObjMem.read
  rw [e2, show (m.write a b).flight = m.flight.map (fun r => if r.has a then { r with spoiled := true } else r) from rfl, e1]
  simp only [unlisted_write, u]
  by_cases hu : m.unlisted a = some b
  · simp only [ObjMem.write, if_pos hu, cellGet_del _ _ _ h.1]
    by_cases hx : x = a
    · subst hx; simp [hu]
    · simp [hx]
  · simp only [ObjMem.write, if_neg hu, cellGet_put]
    by_cases hx : x = a <;> simp [hx]

/-! ## All objects -/

theorem mem_tput {α : Type} {t : Tbl α} {n : Nat} {v : α} {e : Nat × α} (h : e ∈ tput t n v) : e = (n, v) ∨ e ∈ t := by
  induction t with
  | nil => simpa [tput] using h
  | cons x r ih =>
    obtain ⟨k, w⟩ := x
    unfold tput at h
    split at h
    · simpa using h
    · split at h
      · simp only [List.mem_cons] at h ⊢; exact h.imp_right .inr
      · simp only [List.mem_cons] at h ⊢
        rcases h with h | h
        · exact .inr (.inl h)
        · exact (ih h).imp_right .inr

theorem wf_tget {t : Tbl ObjMem} (h : Memory.wf t = true) {k : Nat} {m : ObjMem} (e : tget t k = some m) : m.wf = true := by
  induction t with
  | nil => cases e
  | cons x r ih =>
    obtain ⟨a, v⟩ := x
    simp only [Memory.wf, List.all_cons, Bool.and_eq_true] at h
    unfold tget at e
    split at e
    · cases e; exact h.1
    · exact ih h.2 e

/-- Every object of a memory in canonical form is in canonical form. -/
theorem wf_objMem {h : Hw} (w : Memory.wf h.mem = true) (k : Nat) : (objMem h k).wf = true := by
  unfold objMem tgetD
  cases e : tget h.mem k with
  | none => rfl
  | some m => exact wf_tget w e

/-- Changing one object by an operation that keeps the form keeps it for all. -/
theorem wf_modMem {h : Hw} {k : Nat} {f : ObjMem → ObjMem} (w : Memory.wf h.mem = true) (e : (f (objMem h k)).wf = true) :
    Memory.wf (modMem h k f).mem = true := by
  simp only [Memory.wf, List.all_eq_true] at w ⊢
  intro x hx
  rcases mem_tput hx with rfl | hx
  · exact e
  · exact w x hx

theorem reset_wf : Memory.wf State.reset.hw.mem = true := rfl

end Sys2Proof.Machine
end

