-- ==== Sys2Proof/Laws/Isa.lean ====
section
/-!
SUPPORT. Instructions: what the shared frame of their meanings does, said once for each way an instruction can end.
-/
namespace Sys2Proof.Machine

section
variable (th : Thr) (h : Hw)

@[simp] theorem thread_unlatch (u : Thr) : thread (unlatch th h) u = thread h u := thread_modGal h th.g _ rfl u
@[simp] theorem ctx_unlatch (c : Nat) : ctx (unlatch th h) c = ctx h c := rfl
@[simp] theorem part_unlatch (p : Nat) : part (unlatch th h) p = part h p := rfl
@[simp] theorem wing_unlatch (w : Nat) : wing (unlatch th h) w = wing h w := rfl
@[simp] theorem objMem_unlatch (k : Nat) : objMem (unlatch th h) k = objMem h k := rfl
@[simp] theorem thrCtx_unlatch (u : Thr) : thrCtx (unlatch th h) u = thrCtx h u := rfl
@[simp] theorem logicalOf_unlatch (p g : Nat) : logicalOf (unlatch th h) p g = logicalOf h p g := rfl
@[simp] theorem partGals_unlatch (p : Nat) : partGals (unlatch th h) p = partGals h p := rfl
@[simp] theorem gal_unlatch_self : gal (unlatch th h) th.g = { gal h th.g with latch := none } := by simp [unlatch]
theorem gal_unlatch_ne {g : Nat} (e : g ≠ th.g) : gal (unlatch th h) g = gal h g := gal_modGal_ne h _ e
@[simp] theorem unlatch_ctx : (unlatch th h).ctx = h.ctx := rfl
@[simp] theorem unlatch_mem : (unlatch th h).mem = h.mem := rfl

@[simp] theorem isHolder_unlatch : isHolder (unlatch th h) th = isHolder h th := by unfold isHolder; rw [gal_unlatch_self]
@[simp] theorem groupIllegal_unlatch (o : IsaOp) : groupIllegal (unlatch th h) th o = groupIllegal h th o := by
  unfold groupIllegal; rw [isHolder_unlatch]
end

/-- An instruction that is carried out: its own rule decides how it ends. -/
theorem runIsa_carried {o : IsaOp} {th : Thr} {f : Fields} {c : Nat} {h : Hw} {body : Nat → Hw → IRes} (k : Carried o th f c h) :
    runIsa o th f body h = finish th (unlatch th h) (body c (unlatch th h)) := by
  obtain ⟨-, ⟨l, -⟩, g, p, x⟩ := k
  have i : issued h th o f = true := by simp [issued, l]
  have g' := groupIllegal_unlatch th h o
  simp only [unlatch] at g' ⊢
  simp only [runIsa, i, Bool.not_true, Bool.false_eq_true, if_false, g', g]
  have t := thread_unlatch th h th
  have y := thrCtx_unlatch th h th
  simp only [unlatch] at t y
  simp only [t, p, y, x, Bool.not_true, Bool.false_eq_true, if_false]

/-- One whose guard does not hold only takes its issue cycle (05 R125). -/
theorem runIsa_skipped {o : IsaOp} {th : Thr} {f : Fields} {h : Hw} {body : Nat → Hw → IRes} (i : issued h th o f = true)
    (g : groupIllegal h th o = false) (p : guardPass (thread h th) f = false) :
    runIsa o th f body h = finish th (unlatch th h) (.next (unlatch th h) 1) := by
  have g' := groupIllegal_unlatch th h o
  have t := thread_unlatch th h th
  simp only [unlatch] at g' t ⊢
  simp only [runIsa, i, Bool.not_true, Bool.false_eq_true, if_false, g', g, t, p, Bool.not_false, if_true]

/-- One that the thread's lease does not permit takes GROUP_ILLEGAL whatever its guard (05 R125). -/
theorem runIsa_illegal {o : IsaOp} {th : Thr} {f : Fields} {h : Hw} {body : Nat → Hw → IRes} (i : issued h th o f = true)
    (g : groupIllegal h th o = true) : runIsa o th f body h = takeFault th cGroupIllegal (thread h th).pc (unlatch th h) := by
  have g' := groupIllegal_unlatch th h o
  have t := thread_unlatch th h th
  simp only [unlatch] at g' t ⊢
  simp only [runIsa, i, Bool.not_true, Bool.false_eq_true, if_false, g', g, if_true, finish, t]

/-- The thread whose word is not the command's issues nothing (log 3). -/
theorem runIsa_idle {o : IsaOp} {th : Thr} {f : Fields} {h : Hw} {body : Nat → Hw → IRes} (i : issued h th o f = false) :
    runIsa o th f body h = h := by simp [runIsa, i]

/-- A change of the thread alone, with the latch emptied, changes nothing else. -/
theorem onlyThread_modThr (th : Thr) (h : Hw) (k : Thread → Thread) : OnlyThread th h (modThr (unlatch th h) th k) := by
  refine ⟨rfl, fun g e => ?_, ?_, fun u e => ?_⟩
  · rw [gal_modThr, if_neg e]; exact gal_unlatch_ne th h e
  · rw [gal_modThr, if_pos rfl]; simp
  · rw [thread_modThr_ne _ _ e]; simp

theorem modThr_modThr (th : Thr) (h : Hw) (j k : Thread → Thread) : thread (modThr (modThr h th j) th k) th = k (j (thread h th)) := by simp

theorem onlyThread_modThr2 (th : Thr) (h : Hw) (j k : Thread → Thread) : OnlyThread th h (modThr (modThr (unlatch th h) th j) th k) := by
  refine ⟨rfl, fun g e => ?_, ?_, fun u e => ?_⟩
  · rw [gal_modThr, if_neg e, gal_modThr, if_neg e]; exact gal_unlatch_ne th h e
  · rw [gal_modThr, if_pos rfl, gal_modThr, if_pos rfl]; simp
  · rw [thread_modThr_ne _ _ e, thread_modThr_ne _ _ e]; simp

/-- An instruction that changes its thread by `k` and goes on. -/
theorem leaves_next {o : IsaOp} {th : Thr} {f : Fields} {c d : Nat} {s : State} {body : Nat → Hw → IRes} {k : Thread → Thread}
    (e : Carried o th f c s.hw) (b : body c (unlatch th s.hw) = .next (modThr (unlatch th s.hw) th k) d)
    (kp : (k (thread s.hw th)).pc = (thread s.hw th).pc) :
    Leaves (act (okThr th) (runIsa o th f body) s) s th ((k (thread s.hw th)).stepped (gal s.hw th.g).cycle d) := by
  have ok : okThr th = true := by simpa [okThr] using e.1
  refine ⟨_, act_next ok, rfl, ?_, ?_⟩
  · simp only [runIsa_carried e, b, finish, thread_modThr_self, thread_unlatch, gal_unlatch_self, Thread.stepped, kp]
  · simp only [runIsa_carried e, b, finish]; exact onlyThread_modThr2 ..

/-- An instruction that changes nothing of its own and goes on. -/
theorem leaves_same {o : IsaOp} {th : Thr} {f : Fields} {c d : Nat} {s : State} {body : Nat → Hw → IRes}
    (e : Carried o th f c s.hw) (b : body c (unlatch th s.hw) = .next (unlatch th s.hw) d) :
    Leaves (act (okThr th) (runIsa o th f body) s) s th ((thread s.hw th).stepped (gal s.hw th.g).cycle d) := by
  have ok : okThr th = true := by simpa [okThr] using e.1
  refine ⟨_, act_next ok, rfl, ?_, ?_⟩
  · simp only [runIsa_carried e, b, finish, thread_modThr_self, thread_unlatch, gal_unlatch_self, Thread.stepped]
  · simp only [runIsa_carried e, b, finish]; exact onlyThread_modThr ..

/-- An instruction that changes nothing of its own and waits. -/
theorem leaves_block {o : IsaOp} {th : Thr} {f : Fields} {c : Nat} {s : State} {body : Nat → Hw → IRes} {w : Wait}
    (e : Carried o th f c s.hw) (b : body c (unlatch th s.hw) = .block (unlatch th s.hw) w) :
    Leaves (act (okThr th) (runIsa o th f body) s) s th ((thread s.hw th).waits (gal s.hw th.g).cycle w) := by
  have ok : okThr th = true := by simpa [okThr] using e.1
  refine ⟨_, act_next ok, rfl, ?_, ?_⟩
  · simp only [runIsa_carried e, b, finish, thread_modThr_self, thread_unlatch, gal_unlatch_self, Thread.waits]
  · simp only [runIsa_carried e, b, finish]; exact onlyThread_modThr ..

/-- A branch that changes nothing of its thread but where it is. -/
theorem leaves_goto {o : IsaOp} {th : Thr} {f : Fields} {c code pc : Nat} {s : State} {body : Nat → Hw → IRes}
    (e : Carried o th f c s.hw) (b : body c (unlatch th s.hw) = .goto (unlatch th s.hw) code pc) :
    Leaves (act (okThr th) (runIsa o th f body) s) s th ((thread s.hw th).branched (gal s.hw th.g).cycle code pc) := by
  have ok : okThr th = true := by simpa [okThr] using e.1
  refine ⟨_, act_next ok, rfl, ?_, ?_⟩
  · simp only [runIsa_carried e, b, finish, thread_modThr_self, thread_unlatch, gal_unlatch_self, Thread.branched]
  · simp only [runIsa_carried e, b, finish]; exact onlyThread_modThr ..

/-- A branch that changes its thread by `k` first (CALL and RET, the return stack). -/
theorem leaves_goto2 {o : IsaOp} {th : Thr} {f : Fields} {c code pc : Nat} {s : State} {body : Nat → Hw → IRes} {k : Thread → Thread}
    (e : Carried o th f c s.hw) (b : body c (unlatch th s.hw) = .goto (modThr (unlatch th s.hw) th k) code pc)
    (kp : (k (thread s.hw th)).pc = (thread s.hw th).pc) :
    Leaves (act (okThr th) (runIsa o th f body) s) s th ((k (thread s.hw th)).branched (gal s.hw th.g).cycle code pc) := by
  have ok : okThr th = true := by simpa [okThr] using e.1
  refine ⟨_, act_next ok, rfl, ?_, ?_⟩
  · simp only [runIsa_carried e, b, finish, thread_modThr_self, thread_unlatch, gal_unlatch_self, Thread.branched, kp]
  · simp only [runIsa_carried e, b, finish]; exact onlyThread_modThr2 ..

/-- A command on units that exist: the state it makes is what its function makes of the hardware. -/
theorem becomes_of {ok : Bool} {f : Hw → Hw} {s : State} {h1 : Hw} (h : ok = true) (e : f s.hw = h1) : Becomes (act ok f s) s h1 := by
  unfold Becomes; rw [act_next h, e]

/-- An entry that is carried out: the state it makes is what its own rule makes of the hardware. -/
theorem becomes_carry {q slot : Nat} {mine : Cmd → Bool} {body : Cmd → Hw → Hw} {c : Cmd} {s : State} {h1 : Hw} (d : Due s.hw q slot mine c)
    (e : body c (begun c s.hw) = h1) : Becomes (act true (carry q slot mine body) s) s h1 := by
  obtain ⟨f, m, r, n⟩ := d
  refine becomes_of rfl ?_
  unfold carry
  simp only [f, m, r, n, Bool.not_true, Bool.or_false, Bool.false_eq_true, if_false]
  exact e

/-- An entry that one of the checks common to all commands answers. -/
theorem becomes_common {q slot st : Nat} {mine : Cmd → Bool} {body : Cmd → Hw → Hw} {c : Cmd} {s : State} (f : findCmd s.hw q slot = some c)
    (m : mine c = true) (r : carriesOut s.hw c = true) (n : commonStatus s.hw c = some st) :
    Becomes (act true (carry q slot mine body) s) s (endCmd c.id st s.hw) := by
  refine becomes_of rfl ?_
  unfold carry
  simp only [f, m, r, n, Bool.not_true, Bool.or_false, Bool.false_eq_true, if_false]

/-- An instruction that ends: its effect, and its thread at the next word. -/
theorem goes_of {o : IsaOp} {th : Thr} {f : Fields} {c d : Nat} {s : State} {h1 : Hw} {body : Nat → Hw → IRes}
    (e : Carried o th f c s.hw) (b : body c (unlatch th s.hw) = .next h1 d) : Goes (act (okThr th) (runIsa o th f body) s) s th d h1 := by
  have ok : okThr th = true := by simpa [okThr] using e.1
  unfold Goes
  rw [act_next ok, runIsa_carried e, b]
  simp only [finish, thread_unlatch, gal_unlatch_self]

/-- An instruction that waits: its effect so far, and its thread BLOCKED. -/
theorem blocks_of {o : IsaOp} {th : Thr} {f : Fields} {c : Nat} {s : State} {h1 : Hw} {w : Wait} {body : Nat → Hw → IRes}
    (e : Carried o th f c s.hw) (b : body c (unlatch th s.hw) = .block h1 w) : Blocks (act (okThr th) (runIsa o th f body) s) s th w h1 := by
  have ok : okThr th = true := by simpa [okThr] using e.1
  unfold Blocks
  rw [act_next ok, runIsa_carried e, b]
  simp only [finish, thread_unlatch, gal_unlatch_self]

/-- An instruction without room: nothing but its thread changes. -/
theorem reissues_of {o : IsaOp} {th : Thr} {f : Fields} {c : Nat} {s : State} {w : Wait} {body : Nat → Hw → IRes}
    (e : Carried o th f c s.hw) (b : body c (unlatch th s.hw) = .again (unlatch th s.hw) w) :
    Reissues (act (okThr th) (runIsa o th f body) s) s th w := by
  have ok : okThr th = true := by simpa [okThr] using e.1
  unfold Reissues
  rw [act_next ok, runIsa_carried e, b]
  simp only [finish]

/-! ## Faults (04 R87, R117) -/

/-- A fold of steps that each keep what `π` reads keeps it. -/
theorem foldl_keeps {α β : Type} (π : Hw → β) (l : List α) (k : Hw → α → Hw) (hk : ∀ h x, π (k h x) = π h) (h : Hw) :
    π (l.foldl k h) = π h := by
  induction l generalizing h with
  | nil => rfl
  | cons x r ih => rw [List.foldl_cons, ih, hk]

theorem forgetDrain_ctx (c g : Nat) (op : ArrOp) (h : Hw) : (forgetDrain c g op h).ctx = h.ctx := by
  have fk : ∀ (l : List Nat) (k : Nat) (j : Nat → ObjMem → ObjMem) (h : Hw), (l.foldl (fun h n => modMem h k (j n)) h).ctx = h.ctx :=
    fun l k j h => foldl_keeps (·.ctx) l (fun h n => modMem h k (j n)) (fun _ _ => rfl) h
  unfold forgetDrain
  simp only [freshEpoch]
  repeat' split
  all_goals simp [fk]

theorem leaveConvoys_ctx (g : Nat) (h : Hw) : (leaveConvoys g h).ctx = h.ctx := rfl

theorem abandonGroup_ctx (c g : Nat) (h : Hw) : (abandonGroup c g h).ctx = h.ctx := by
  unfold abandonGroup
  split
  · rfl
  · simp only [leaveConvoys_ctx, modGal_ctx, modThr_ctx, freshEpoch]
    split
    · exact forgetDrain_ctx ..
    · rfl

theorem dropLoads_ctx (c : Nat) (h : Hw) : (dropLoads c h).ctx = h.ctx := by
  unfold dropLoads
  exact foldl_keeps (·.ctx) _ _ (fun h g => modGal_ctx h g _) h

theorem abandonAll_ctx (c : Nat) (h : Hw) : (abandonAll c h).ctx = h.ctx := by
  unfold abandonAll
  rw [dropLoads_ctx]
  refine foldl_keeps (·.ctx) _ _ (fun h g => ?_) h
  split
  · split
    · exact abandonGroup_ctx ..
    · rfl
  · rfl

/-- A context that stops keeps every other context, and its first fault record. -/
theorem stopContext_ctx (c : Nat) (r : FaultRec) (h : Hw) :
    (stopContext c r h).ctx = if (ctx h c).stopped then h.ctx else tmod h.ctx c {} (fun x => { x with stopped := true, fault := some r }) := by
  unfold stopContext
  split
  · rfl
  · rw [abandonAll_ctx]; rfl

theorem ctx_stopContext (c : Nat) (r : FaultRec) (h : Hw) : ctx (stopContext c r h) c =
    if (ctx h c).stopped then ctx h c else { ctx h c with stopped := true, fault := some r } := by
  have := stopContext_ctx c r h
  unfold ctx at this ⊢
  rw [this]
  split <;> simp

/-- An instruction that takes a program fault: its context stops with the record of 04 R117. -/
theorem faults_of {o : IsaOp} {th : Thr} {f : Fields} {c cause : Nat} {s : State} {body : Nat → Hw → IRes}
    (e : Carried o th f c s.hw) (b : body c (unlatch th s.hw) = .fault cause) :
    Faults (act (okThr th) (runIsa o th f body) s) s th c cause (thread s.hw th).pc := by
  have ok : okThr th = true := by simpa [okThr] using e.1
  have r : runIsa o th f body s.hw = stopContext c { cause, gallery := logicalOf s.hw (c / 4) th.g, thread := th.t - (ctx s.hw c).first
                                                     pc := (thread s.hw th).pc } (unlatch th s.hw) := by
    rw [runIsa_carried e, b]
    have x := thrCtx_unlatch th s.hw th
    rw [e.2.2.2.2] at x
    simp only [finish, takeFault, x, ctx_unlatch, logicalOf_unlatch, thread_unlatch]
  have q := ctx_stopContext c { cause, gallery := logicalOf s.hw (c / 4) th.g, thread := th.t - (ctx s.hw c).first
                                pc := (thread s.hw th).pc } (unlatch th s.hw)
  rw [ctx_unlatch] at q
  refine ⟨_, act_next ok, rfl, ?_, fun n => ?_⟩
  · show (ctx (runIsa o th f body s.hw) c).stopped = true
    rw [r, q]
    cases n : (ctx s.hw c).stopped <;> simp [n]
  · show (ctx (runIsa o th f body s.hw) c).fault = _
    rw [r, q]
    simp [n]

end Sys2Proof.Machine
end

