-- ==== Sys2Proof/Tests/Slice0.lean ====
section
/-!
SUPPORT. Tests: each check of well-formedness refuses an ill-formed command; for each statement with hypotheses, a state and operands that meet
them.
-/
namespace Sys2Proof.Tests
open Sys2Proof Sys2Proof.Machine

/-! Each check of well-formedness: the first number it refuses beside the last it takes. -/
theorem test_thr_bad : Thr.wf { g := 96, t := 0 } = false ∧ Thr.wf { g := 0, t := 64 } = false ∧ Thr.wf { g := 95, t := 63 } = true := by decide
theorem test_gallery_bad : (Instr.issueSelect 96).wf = false ∧ (Instr.issueSelect 95).wf = true := by decide
theorem test_wing_bad : (Instr.burstGrant 12).wf = false ∧ (Instr.burstGrant 11).wf = true := by decide
theorem test_partition_bad : (Instr.schedulingPoint 8).wf = false ∧ (Instr.schedulingPoint 7).wf = true := by decide
theorem test_context_bad : (Instr.contextTeardown 32).wf = false ∧ (Instr.contextTeardown 31).wf = true := by decide
theorem test_barrier_bad : (Instr.barrierTimeout 0 16).wf = false ∧ (Instr.barrierComplete 0 0 0 96).wf = false ∧ (Instr.barrierTimeout 31 15).wf = true := by decide
theorem test_lend_bad : (Instr.lendStart 0 256).wf = false ∧ (Instr.lendLimitExpiry 0 0 64).wf = false ∧ (Instr.lendStart 7 255).wf = true := by decide
theorem test_account_bad : (Instr.ledgerArbitration 3).wf = false ∧ (Instr.ledgerArbitration 2).wf = true := by decide
theorem test_requester_bad : (Instr.grainRequest (.flight 64) 0).wf = false ∧ (Instr.grainRequest (.landing 16) 0).wf = false ∧
    (Instr.grainRequest (.dieErase 512) 0).wf = false ∧ (Instr.grainRequest (.dieErase 511) 0).wf = true := by decide
theorem test_pll_bad : (Instr.pllLock 19).wf = false ∧ (Instr.pllLock 18).wf = true := by decide
theorem test_domain_bad : (Instr.wakeTrigger 13).wf = false ∧ (Instr.domainWakeDone 12).wf = true := by decide
theorem test_queue_bad : (Instr.completionPost 256).wf = false ∧ (Instr.completionPost 255).wf = true := by decide
theorem test_landing_bad : (Instr.readBufferExpiry 16).wf = false ∧ (Instr.readBufferExpiry 15).wf = true := by decide
theorem test_channel_bad : (Instr.channelGrant 64).wf = false ∧ (Instr.channelGrant 63).wf = true := by decide
theorem test_plane_bad : (Instr.flashReadDone 511 4 []).wf = false ∧ (Instr.flashReadDone 512 3 []).wf = false ∧ (Instr.flashReadDone 511 3 []).wf = true := by decide
theorem test_block_bad : (Instr.memberSubstitution 0 7451).wf = false ∧ (Instr.memberSubstitution 0 7450).wf = true := by decide
theorem test_group_bad : (Instr.calibrationIdleCheck 0 36).wf = false ∧ (Instr.calibrationIdleCheck 0 35).wf = true := by decide
theorem test_dieset_bad : (Instr.reclaimStart 16).wf = false ∧ (Instr.reclaimStart 15).wf = true := by decide
theorem test_superblock_bad : (Instr.lzDestage 118832).wf = false ∧ (Instr.lzDestage 118831).wf = true := by decide
theorem test_word_bad : (Instr.criticalWordWrite 5 0).wf = false ∧ (Instr.criticalWordWrite 0 4).wf = false ∧ (Instr.criticalWordWrite 4 3).wf = true := by decide
theorem test_patrol_bad : (Instr.patrolScrub 4 0 0 0 0).wf = false ∧ (Instr.patrolScrub 0 512 0 0 0).wf = false ∧ (Instr.patrolScrub 1 0 2097152 0 0).wf = false ∧
    (Instr.patrolScrub 2 0 1536 0 0).wf = false ∧ (Instr.patrolScrub 3 4 0 0 0).wf = false ∧ (Instr.patrolScrub 3 0 0 64 0).wf = false ∧
    (Instr.patrolScrub 3 0 0 0 3).wf = false ∧ (Instr.patrolScrub 3 3 131071 63 2).wf = true := by decide +kernel
theorem test_remap_bad : (Instr.sramRowRemap 0 0).wf = false ∧ (Instr.sramRowRemap 3 0).wf = false ∧ (Instr.sramRowRemap 2 0).wf = true := by decide
theorem test_flight_bad : (Instr.flightLost 64).wf = false ∧ (Instr.flightLost 63).wf = true := by decide
theorem test_seat_bad : (∀ x, (Instr.linkState 32 x).wf = false) ∧ ∀ x, (Instr.linkState 31 x).wf = true := ⟨fun _ => rfl, fun _ => rfl⟩
theorem test_sensor_bad : (Instr.sensorSample 48 0).wf = false ∧ (Instr.sensorSample 47 0).wf = true := by decide
theorem test_tap_bad : (Instr.tapBypass 17).wf = false ∧ (Instr.tapBypass 16).wf = true := by decide
/-- What is ill-formed stops. -/
theorem test_ill_formed_stops (s : State) : exec (.issueSelect 96) s = .fault .noSuchUnit := rfl

/-- An object of 4 KiB with every right but X. -/
def objAt (handle tier : Nat) : Obj :=
  { handle, tier, r := true, w := true, x := false, zero := true, inp := false, outp := false, size := 4096, bindId := 0, bindOff := 0 }
/-- A module with one partition of wing 0, in which context 0 runs with two threads on each gallery. -/
def one (G : Gallery) : Hw :=
  { part := [(0, { inEff := { valid := true, wings := 1 }, running := some 0 })]
    ctx := [(0, { st := .running, threads := 2, sems := 4, poolPages := 4, poolFree := [2], objs := [objAt 1 0, objAt 2 1, objAt 3 2] })]
    gal := [(0, G)] }
def th0 : Thr := { g := 0, t := 0 }
/-- That module with thread 0 at an instruction that the sequencer of gallery 0 has issued. -/
def at0 (o : IsaOp) (f : Fields) (T : Thread) : Hw := one { latch := some (0, some (encodeWord o f)), thr := [(0, { T with st := .ready })] }
/-- A thread whose s[1] addresses the object of a handle. -/
def ptr (handle : Nat) : Thread := { s := [(1, mkAddr handle 0)] }
/-- A body with D = 2 and A = 1. -/
def da : BitVec 44 := 0x10400000000
def fld (mod : BitVec 4) (body : BitVec 44) : Fields := { gd := 0, gn := false, mod, body }
def sat (h : Hw) : State := { pending := [], hw := h }

/-- An entry of a queue's slot 0. -/
def cmdOf (q : Nat) (e : BitVec 512) : Cmd := { id := 1, q, slot := 0, entry := e }
/-- A ready module with that entry accepted. -/
def hosted (c : Cmd) (h : Hw) : Hw := { h with wdn := { h.wdn with power := true, ready := true }, host := { h.host with cmds := [c] } }
/-- The 64 bytes of an entry from its fields: offset, bytes, value. -/
def ent (l : List (Nat × Nat × Nat)) : BitVec 512 := BitVec.ofNat 512 (bytesOf l)

theorem witness_MemoryStaysCanonical : Memory.wf State.reset.hw.mem = true ∧ (step State.reset = .next State.reset) ∧
    Memory.wf [(1, { zero := true, cells := [(3, 7), (9, 1)] })] = true := by
  refine ⟨rfl, rfl, by decide⟩

theorem witness_GuardSkips :
    let f : Fields := { fld 0 0 with gn := true }
    let h := at0 .sadd f {}
    (Instr.sadd th0 f).isa? = some (.sadd, th0, f) ∧ th0.wf = true ∧ (gal h 0).latch = some (0, some (encodeWord .sadd f)) ∧
      (thread h th0).st = .ready ∧ thrCtx h th0 = some 0 ∧ groupIllegal h th0 .sadd = false ∧ ((thread h th0).preg 0).getLsbD 0 ^^ f.gn = false := by decide
theorem witness_GuardSkips_illegal :
    let h := at0 .tload (fld 0 0) {}
    (gal h 0).latch = some (0, some (encodeWord .tload (fld 0 0))) ∧ (thread h th0).st = .ready ∧ thrCtx h th0 = some 0 ∧ groupIllegal h th0 .tload = true := by decide

theorem witness_ScalarArithmetic :
    Carried .smov th0 (fld 0 0) 0 (at0 .smov (fld 0 0) {}) ∧ (fld 0 0).b = 0 ∧ (fld 0 0).low29 = 0 ∧
    Carried .smov th0 (fld 1 0x3FFFFFFFF) 0 (at0 .smov (fld 1 0x3FFFFFFFF) {}) ∧ (fld 1 0x3FFFFFFFF).a = 0 ∧
    Carried .smov th0 (fld 2 1) 0 (at0 .smov (fld 2 1) {}) ∧ (fld 2 1).imm34.extractLsb' 30 4 = 0 ∧
    Carried .scmp th0 (fld 11 5) 0 (at0 .scmp (fld 11 5) {}) ∧ (fld 11 5).m 0 = true ∧ (fld 11 5).mod.toNat / 2 = 5 ∧
    Carried .scmp th0 (fld 0 0) 0 (at0 .scmp (fld 0 0) {}) := by and_intros <;> decide
theorem witness_ScalarArithmetic_ops : ∀ o ∈ [IsaOp.sadd, .ssub, .smul, .sand, .sor, .sxor, .sshl, .sshr, .ssra, .smin, .smax],
    Carried o th0 (fld 0 0) 0 (at0 o (fld 0 0) {}) ∧ Carried o th0 (fld 1 0x200000000) 0 (at0 o (fld 1 0x200000000) {}) := by decide

theorem witness_BranchesAndCalls :
    let top : Thread := { stack := [mkAddr 5 16] }
    Carried .br th0 (fld 0 1) 0 (at0 .br (fld 0 1) {}) ∧ (fld 0 1).body.toInt = 1 ∧ (fld 0 (-1)).body.toInt = -1 ∧
    Carried .br th0 (fld 0 (-1)) 0 (at0 .br (fld 0 (-1)) {}) ∧ Carried .br th0 (fld 1 0) 0 (at0 .br (fld 1 0) {}) ∧
    Carried .call th0 (fld 0 1) 0 (at0 .call (fld 0 1) {}) ∧
    Carried .call th0 (fld 0 1) 0 (at0 .call (fld 0 1) { stack := List.replicate 16 0 }) ∧
    Carried .ret th0 (fld 0 0) 0 (at0 .ret (fld 0 0) top) ∧ Carried .ret th0 (fld 0 0) 0 (at0 .ret (fld 0 0) {}) ∧
    Carried .brc th0 (fld 0 1) 0 (at0 .brc (fld 0 1) {}) ∧ condOf 0 ((thread (at0 .brc (fld 0 1) {}) th0).sreg 0) 0 = some true ∧
    Carried .brc th0 (fld 7 0) 0 (at0 .brc (fld 7 0) {}) ∧ (fld 7 0).d = 0 ∧ (fld 7 0).a = 0 ∧
    Carried .yield th0 (fld 0 0) 0 (at0 .yield (fld 0 0) {}) := by and_intros <;> decide

theorem witness_Loads : ∀ m ∈ [(0 : BitVec 4), 5, 11], ∀ h ∈ [1, 2],
    let f := fld m (da + 0x80000000)
    let s := at0 .ld f (ptr h)
    Carried .ld th0 f 0 s ∧ (memForm f.mod).isSome = true ∧ f.rm = 0 ∧ f.d < 16 ∧ f.psm ≠ 0 ∧
      addOff ((thread s th0).sreg f.a) f.off29 = some (mkAddr h 0) ∧
      checkAccess (ctx s 0) (mkAddr h 0) 4 .r [0, 1, 2] 4 = .ok (objAt h (h - 1)) 0 ∧ (objMem s (objKey 0 (objAt h (h - 1)) 0)).isBad 0 0 4 = false := by
  decide
theorem witness_Loads_bad :
    let s := { at0 .ld (fld 2 da) (ptr 1) with mem := [(objKey 0 (objAt 1 0) 0, { bad := [0] })] }
    Carried .ld th0 (fld 2 da) 0 s ∧ (objMem s (objKey 0 (objAt 1 0) 0)).isBad 0 0 4 = true ∧ (fld 2 da).psm = 0 := by decide
theorem witness_Loads_arrival :
    let s := one { thr := [(0, { st := .blocked (.load (mkAddr 2 0) 2 2 1) })] }
    (thread s th0).st = .blocked (.load (mkAddr 2 0) 2 2 1) ∧ thrCtx s th0 = some 0 ∧
      s.wmc.chans.any (fun e => e.2.queue.any (fun r => r.thr == some th0)) = false ∧
      (thread (one { thr := [(0, { st := .blocked (.csr 1 2) })] }) th0).st = .blocked (.csr 1 2) := by decide

theorem witness_Stores : ∀ h ∈ [1, 2, 3],
    let f := fld 2 da
    let s := at0 .st f (ptr h)
    Carried .st th0 f 0 s ∧ memForm f.mod = some (4, 4) ∧ f.rm = 0 ∧ f.m 3 = false ∧ f.m 2 = false ∧ f.psm = 0 ∧
      addOff ((thread s th0).sreg f.a) f.off29 = some (mkAddr h 0) ∧
      checkAccess (ctx s 0) (mkAddr h 0) 4 .w [0, 1, 2, 4] 4 = .ok (objAt h (h - 1)) 0 ∧
      (objMem s (objKey 0 (objAt h (h - 1)) 0)).wf = true ∧ (objMem s (objKey 0 (objAt h (h - 1)) 0)).bad = [] := by decide

theorem witness_AddsAndChannels :
    let s := at0 .madd (fld 0 da) (ptr 2)
    Carried .madd th0 (fld 0 da) 0 s ∧ (addOperands th0 (fld 0 da) 0 [1, 2] s).isOk = true ∧ (gal s 0).post.length < 64 ∧
      let q : Post := { id := 3, thr := 0, kind := .madd 0 (mkAddr 2 0) false [(0, 5)] }
      let w := one { post := [q] }
      (gal w 0).post.find? (fun p => p.id = 3 && !p.arrived) = some q ∧
      (ctx w 0).objs.find? (fun o => o.handle = addrHandle (mkAddr 2 0)) = some (objAt 2 1) ∧
      let d := one { post := [{ q with arrived := true }], thr := [(0, { st := .blocked (.fence 2 none) })] }
      (gal d 0).post.find? (fun p => p.id = 3 && p.arrived) = some { q with arrived := true } ∧
        (thread d th0).st = .blocked (.fence 2 none) := by and_intros <;> decide
theorem witness_AddsAndChannels_dram :
    let r : DramReq := { cls := 3, write := false, since := 0, thr := none, key := 5, word := 1, row := 0 }
    let h : Hw := { wmc := { chans := [(0, { queue := [r] })] }, wdn := { aon := 300 } }
    (chan h 0).state = 0 ∧ nextReq (chan h 0) = some r ∧
      (chan h 0).queue.find? (fun r => decide (200 ≤ now h - r.since) && r.cls != 0) = some r := by decide

theorem witness_SemaphoresAndBarriers :
    let s := at0 .sema (fld 0 da) {}
    Carried .sema th0 (fld 0 da) 0 s ∧ ((thread s th0).sreg 1).toNat = 0 ∧ 0 < (ctx s 0).sems ∧ (semOf s 0 0).owner = none ∧
      let u := { s with part := [(0, { part s 0 with sems := [(0, { owner := some (0, 1), queue := [] })] })] }
      Carried .sema th0 (fld 0 da) 0 u ∧ (semOf u 0 0).owner = some (0, 1) ∧
      let v := { at0 .semr (fld 0 da) {} with part := [(0, { part s 0 with sems := [(0, { owner := some (0, 0), queue := [(0, 1, 0)] })] })]
                                              gal := [(0, { latch := some (0, some (encodeWord .semr (fld 0 da)))
                                                            thr := [(0, { st := .ready }), (1, { st := .blocked (.sem 0 3) })] })] }
      Carried .semr th0 (fld 0 da) 0 v ∧ (semOf v 0 0).queue = [(0, 1, 0)] ∧ (thread v { g := 0, t := 1 }).st = .blocked (.sem 0 3) ∧
      Carried .fence th0 (fld 0 0) 0 (at0 .fence (fld 0 0) {}) ∧ hasPosts (at0 .fence (fld 0 0) {}) th0 = false ∧
      Carried .bar th0 (fld 1 3) 0 (at0 .bar (fld 1 3) {}) ∧ (fld 1 3).a = 0 ∧ (fld 1 3).imm34.toNat = 3 ∧
      Carried .halt th0 (fld 0 0) 0 (at0 .halt (fld 0 0) {}) ∧ scansEnded (at0 .halt (fld 0 0) {}) th0 = true := by and_intros <;> decide
theorem witness_SemaphoresAndBarriers_complete :
    let h := one { thr := [(0, { st := .blocked (.barrier 0 3 2 0) })] }
    liveThreads h 0 = [th0] ∧ arrivedAt h 0 3 th0 = true := by decide

theorem witness_Messages :
    let G : Gallery := { thr := [(0, { st := .ready, s := [(1, mkAddr 1 0), (2, 1)], inbox := [{ len := 8, data := 7, remote := false, sg := 0, st := 1, srcModule := 0 }] }), (1, { st := .ready })] }
    let s := one { G with latch := some (0, some (encodeWord .send (fld 0 (da + 8)))) }
    let r := one { G with latch := some (0, some (encodeWord .recv (fld 0 (da + 8)))) }
    Carried .send th0 (fld 0 (da + 8)) 0 s ∧ (fld 0 (da + 8)).low29.toNat = 8 ∧ sendRsvOk ((thread s th0).sreg 2).toNat = true ∧
      checkAccess (ctx s 0) ((thread s th0).sreg 1) 8 .r [0] 8 = .ok (objAt 1 0) 0 ∧ (partGals s 0)[0]? = some 0 ∧
      (objMem s (objKey 0 (objAt 1 0) 0)).isBad 0 0 8 = false ∧ (thread s { g := 0, t := 1 }).inbox.length < 4 ∧
      Carried .recv th0 (fld 0 (da + 8)) 0 r ∧ checkAccess (ctx r 0) ((thread r th0).sreg 1) 8 .w [0] 8 = .ok (objAt 1 0) 0 := by and_intros <;> decide
theorem witness_Messages_delivery :
    let m : Msg := { len := 8, data := 7, remote := false, sg := 0, st := 0, srcModule := 0 }
    let h := one { thr := [(0, { st := .blocked (.inboxFull 5) }), (1, { st := .ready })], post := [{ id := 5, thr := 0, kind := .send 0 1 m }] }
    (gal h 0).post.find? (fun p => p.id = 5 && !p.arrived) = some { id := 5, thr := 0, kind := .send 0 1 m } ∧
      (thread (arrivePost 0 5 0 (deliver { g := 0, t := 1 } m h)) th0).st = .blocked (.inboxFull 5) := by decide

theorem witness_PagePool :
    Carried .pgalloc th0 (fld 0 0) 0 (at0 .pgalloc (fld 0 0) {}) ∧ (ctx (at0 .pgalloc (fld 0 0) {}) 0).poolFree = 2 :: [] ∧
      Carried .pgfree th0 (fld 0 da) 0 (at0 .pgfree (fld 0 da) { s := [(1, 3)] }) ∧ (fld 0 da).low29 = 0 ∧
      (ctx (at0 .pgfree (fld 0 da) {}) 0).poolPages = 4 ∧ 3 ∉ (ctx (at0 .pgfree (fld 0 da) {}) 0).poolFree ∧
      Carried .stepend th0 (fld 0 0) 0 (at0 .stepend (fld 0 0) {}) ∧ Carried .geom th0 (fld 0 0x14) 0 (at0 .geom (fld 0 0x14) {}) ∧
      (fld 0 0x14).imm34.toNat = 0x14 ∧ (fld 0 0x14).a = 0 ∧ Carried .geom th0 (fld 1 da) 0 (at0 .geom (fld 1 da) { s := [(1, 0x1FF)] }) ∧
      (fld 1 da).imm34 = 0 := by and_intros <;> decide

theorem witness_AsynchronousLoads :
    let T : Thread := { s := [(1, mkAddr 1 0), (2, mkAddr 2 0)] }
    let f := fld 0 0x104400000ff
    let s := at0 .lda f T
    Carried .lda th0 f 0 s ∧ f.mod = 0 ∧ f.low29.toNat < 2 ^ 14 ∧ 1024 = 4 * f.low29.toNat + 4 ∧
      checkAccess (ctx s 0) ((thread s th0).sreg f.a) 1024 .w [0] 4 = .ok (objAt 1 0) 0 ∧
      checkAccess (ctx s 0) ((thread s th0).sreg f.b) 1024 .r [0, 1, 2, 3, 4] 4 = .ok (objAt 2 1) 0 ∧ galLdas s 0 = 0 ∧
      let l : Lda := { seq := 7, src := mkAddr 2 0, dst := mkAddr 1 0, size := 1024 }
      let w := at0 .waita (fld 0 da) { s := [(1, BitVec.ofNat 64 (2 ^ 17 + 7))], lda := [l] }
      Carried .waita th0 (fld 0 da) 0 w ∧ (fld 0 da).b = 0 ∧ (fld 0 da).low29 = 0 ∧
      (thread w th0).lda.find? (fun l => BitVec.ofNat 64 (2 ^ 17 + l.seq) == (thread w th0).sreg (fld 0 da).a) = some l ∧
      (thread w th0).lda.find? (fun l => l.seq = 7 && l.done.isNone) = some l ∧ thrCtx w th0 = some 0 ∧
      (ctx w 0).objs.find? (fun o => o.handle = addrHandle l.src) = some (objAt 2 1) ∧
      Carried .pref th0 (fld 0 0) 0 (at0 .pref (fld 0 0) {}) ∧ (fld 0 0).d = 0 ∧ (fld 0 0).psm = 0 ∧ (fld 0 0).rm = 0 := by and_intros <;> decide

theorem witness_RemoteStoresAndAdds :
    let o : Obj := { objAt 4 4 with bindId := 3, bindOff := 64 }
    let rem := fun (h : Hw) => { h with ctx := [(0, { ctx h 0 with objs := [o] })] }
    let s := rem (at0 .st (fld 2 da) (ptr 4))
    Carried .st th0 (fld 2 da) 0 s ∧ memForm 2 = some (4, 4) ∧ addOff ((thread s th0).sreg 1) (fld 2 da).off29 = some (mkAddr 4 0) ∧
      checkAccess (ctx s 0) (mkAddr 4 0) 4 .w [0, 1, 2, 4] 4 = .ok o 0 ∧ (fld 2 da).m 3 = false ∧ (fld 2 da).m 2 = false ∧ (fld 2 da).psm = 0 ∧
      let r := rem (at0 .radd (fld 2 da) (ptr 4))
      Carried .radd th0 (fld 2 da) 0 r ∧ (addOperands th0 (fld 2 da) 0 [4] r).isOk = true := by and_intros <;> decide

theorem witness_DistanceTables_head :
    let v := 4096 * 256 ^ 0 + 16 * 256 ^ 16 + 8 * 256 ^ 18 + 4 * 256 ^ 19 + 0xFFFFFFFF * 256 ^ 24
    [fldOf v 0 8, fldOf v 8 8, fldOf v 16 2, fldOf v 18 1, fldOf v 19 1, fldOf v 20 1, fldOf v 21 1, fldOf v 22 1, fldOf v 24 4] =
      [4096, 0, 16, 8, 4, 0, 0, 0, 0xFFFFFFFF] ∧ fldOf v 23 1 = 0 ∧ fldOf v 28 36 = 0 := by decide
theorem witness_DistanceTables :
    let le := fun (a v n : Nat) => (List.range n).filterMap (fun i => if v / 256 ^ i % 256 = 0 then none else some (a + i, BitVec.ofNat 8 (v / 256 ^ i)))
    let T : Thread := { s := [(1, mkAddr 1 1024), (2, mkAddr 1 0), (3, mkAddr 1 2048)] }
    let f := fld 0 0x10443000000
    let head := (mkAddr 2 0).toNat + 16 * 256 ^ 16 + 8 * 256 ^ 18 + 4 * 256 ^ 19 + 0xFFFFFFFF * 256 ^ 24
    let s := { at0 .ptab f T with mem := [(objKey 0 (objAt 1 0) 0, { zero := true, cells := le 0 head 64 })] }
    Carried .ptab th0 f 0 s ∧ [f.e, f.psx, f.fn, f.rx, f.f1, f.f2] = [0, 0, 0, 0, 0, 0] ∧ [f.d, f.a, f.b, f.c] = [2, 1, 2, 3] ∧
      checkAccess (ctx s 0) (mkAddr 1 0) 64 .r [0, 1, 2] 1 = .ok (objAt 1 0) 0 ∧ (readAt s 0 0 (mkAddr 1 0) 64).1 = head ∧
      (checkAccess (ctx s 0) (mkAddr 1 1024) 64 .r [0, 1, 2] 1).cause? = none ∧ (checkAccess (ctx s 0) (mkAddr 2 0) 512 .r [1, 2] 1).cause? = none ∧
      (checkAccess (ctx s 0) (mkAddr 1 2048) 144 .w [0, 1, 2] 1).cause? = none := by and_intros <;> decide
set_option maxRecDepth 8000 in
theorem witness_DistanceTables_walk :
    let le := fun (a v n : Nat) => (List.range n).filterMap (fun i => if v / 256 ^ i % 256 = 0 then none else some (a + i, BitVec.ofNat 8 (v / 256 ^ i)))
    let T : Thread := { s := [(1, mkAddr 1 1024), (2, mkAddr 1 0), (3, mkAddr 1 2048)] }
    let f := fld 0 0x10443000000
    let req := (mkAddr 3 0).toNat + 4 * 256 ^ 8 + 2 * 256 ^ 10
    let desc := 0x58564341 + 0x0100 * 256 ^ 4 + 8 * 256 ^ 8 + 1 * 256 ^ 12 + 4 * 256 ^ 20 + 2 * 256 ^ 22 + 176 * 256 ^ 24 + 64 * 256 ^ 32
    let mem : Tbl ObjMem := [(objKey 0 (objAt 1 0) 0, { zero := true, cells := le 0 req 32 }), (objKey 0 (objAt 3 2) 0, { zero := true, cells := le 0 desc 64 })]
    let s := { at0 .gwalk f T with mem := mem }
    Carried .gwalk th0 f 0 s ∧ checkAccess (ctx s 0) (mkAddr 1 0) 32 .r [0, 1, 2] 1 = .ok (objAt 1 0) 0 ∧ (readAt s 0 0 (mkAddr 1 0) 32).1 = req ∧
      [fldOf req 8 2, fldOf req 10 2, fldOf req 12 1] = [4, 2, 0] ∧ BitVec.ofNat 64 (fldOf req 0 8) = mkAddr 3 0 ∧
      (stairOf (readAt s 0 0 (mkAddr 3 0) 64).1).map (fun d => (d.dim, d.slots, d.nodeBytes, d.off)) = some (8, 1, 176, 64) ∧
      (checkAccess (ctx s 0) (mkAddr 3 64) 176 .r [2] 1).cause? = none ∧ (checkAccess (ctx s 0) (mkAddr 1 1024) 32 .r [0, 1, 2] 1).cause? = none ∧
      (checkAccess (ctx s 0) (mkAddr 1 2048) 32 .w [0, 1, 2] 1).cause? = none := by and_intros <;> decide

/-- A holder's thread: t[1] describes two lines of 32 INT8 elements at the start of object 1. -/
def tileT : Thread := { t := [(1, BitVec.ofNat 256 ((mkAddr 1 0).toNat + 2 ^ 128 * 32 + 2 ^ 160 * 2 + 2 ^ 176 * 32))] }
def grp (o : IsaOp) (f : Fields) (T : Thread) : Hw :=
  one { latch := some (0, some (encodeWord o f)), thr := [(0, { T with st := .ready })]
        group := some { holder := 0, fw := 0, fs := 0, code := 0, pc := 0, s := [], p := [], t := [], stack := [], active := 0, rec0 := none, rec1 := none } }
/-- A body with A = 1. -/
def a1 : BitVec 44 := 0x400000000
theorem witness_TileInstructions :
    let s := grp .tload (fld 0 a1) tileT
    let d := grp .tdrain (fld 0 a1) tileT
    let w := grp .tstream (fld 0 a1) tileT
    Carried .tdesc th0 (fld 6 da) 0 (at0 .tdesc (fld 6 da) {}) ∧ (fld 6 da).mod.toNat = 4 + 2 ∧
      Carried .topen th0 (fld 0 0x99) 0 (at0 .topen (fld 0 0x99) {}) ∧ fmtOf (fld 0 0x99).f1 = some .bf16 ∧ pairOk .bf16 .bf16 = true ∧
      Carried .tload th0 (fld 0 a1) 0 s ∧ (tileOperand ((thread s th0).treg 1) false (ctx s 0) .r [0] (fun t _ => t.fmt == (groupFmts s 0).2 &&
        decide (t.major ≤ cols s 0) && decide (t.minor ≤ 256))).isOk = true ∧
      Carried .tswap th0 (fld 0 0) 0 (grp .tswap (fld 0 0) {}) ∧ Carried .tstream th0 (fld 0 a1) 0 w ∧ Carried .tdrain th0 (fld 0 a1) 0 d ∧
      (tileOperand ((thread d th0).treg 1) false (ctx d 0) .w [0, 1, 2] (fun t _ => decide (t.minor ≤ cols d 0) && decide (0 + t.major ≤ 2048))).isOk = true := by
  and_intros <;> decide

def leased (G : Gallery) : Hw :=
  { one { G with group := some { holder := 0, fw := 0, fs := 0, code := 0, pc := 0, s := [], p := [], t := [], stack := [], active := 0, rec0 := none, rec1 := none } } with
    wdn := { (one {}).wdn with vcore := { ceiling := 9999, held := [{ who := .gallery 0, amt := 9999, level := 2, cls := 0, since := 0, order := 0 }] } } }
theorem witness_StationarySets :
    let w := one { thr := [(0, { st := .blocked (.lease 0 0) })], leaseWait := [0] }
    w.gal.length = 1 ∧ (gal w 0).leaseWait.find? (fun t => (thrCtx w { g := 0, t }).any (mayOpen w)) = some 0 ∧
      let op : ArrOp := { kind := .loadStall, desc := BitVec.ofNat 256 ((mkAddr 1 0).toNat + 2 ^ 128 * 32 + 2 ^ 160 * 2 + 2 ^ 176 * 32) }
      let l := leased { thr := [(0, { st := .ready })], queue := [op], cycle := 9 }
      galRuns l 0 = true ∧ groupCtx l 0 = some 0 ∧ (gal l 0).queue[0]? = some op ∧
      let d := leased { thr := [(0, { st := .ready })], loader := some { op, ctx := 0, thr := 0, set := 0, since := 0, extra := 0, stall := true }, cycle := 9 }
      loadCycles (tileOf op.desc) ≤ 10 ∧ (loadSet d 0 0 { desc := op.desc, zps := op.zps } 0).isSome = true ∧
      galRuns (leased { queue := [{ kind := .drain, desc := 0 }] }) 0 = true ∧
      groupCtx (leased { thr := [(0, { st := .ready })], queue := [{ kind := .drain, desc := 0 }] }) 0 = some 0 := by and_intros <;> decide

theorem witness_RowsThroughTheArray :
    let d := BitVec.ofNat 256 ((mkAddr 2 0).toNat + 2 ^ 128 * 32 + 2 ^ 160 * 2 + 2 ^ 176 * 32)
    let v : Convoy := { desc := d, fs := 0, ctx := 0, transposed := false, next := 0, order := 1, members := [{ g := 0, upto := 2, todo := [], missed := none }] }
    let h := { one {} with wing := [(0, { convoys := [v] })] }
    (wing h 0).sleep = 0 ∧ v.members.any (fun m => m.missed.isNone && hasRoom h .int8 (burstSlots (wing h 0).burst) m) = true ∧
      let r := leased { thr := [(0, { st := .ready })], queue := [{ kind := .stream, desc := d, started := true }], fifo := [{ row := 0, elems := [], scales := [], bad := false }] }
      galRuns r 0 = true ∧ groupCtx r 0 = some 0 ∧ tierOf (ctx r 0) (tileOf d).base = 1 ∧ (gal r 0).fifo.take 1 ≠ [] ∧
      let p : PipeRow := { accRow := 0, sums := 0, add := false, nan := false, entered := 0 }
      let a := leased { thr := [(0, { st := .ready })], pipe := [p], cycle := 10 }
      galRuns a 0 = true ∧ groupCtx a 0 = some 0 ∧ (gal a 0).pipe.length = 1 ∧ p.entered + pipeLen .int8 ≤ (gal a 0).cycle := by and_intros <;> decide

theorem witness_VectorInstructions :
    let add := fld 2 da
    let red := fld 2 (da + 0xA000)
    let cmp := fld 2 (da + 0x8000)
    Carried .vop th0 add 0 (at0 .vop add {}) ∧ vopUnary add.fn = false ∧ [add.rx, add.c, add.e, add.f1, add.f2, add.fn] = [0, 0, 0, 0, 0, 0] ∧
      (vopLane 0 true 0 0 0 0).isSome = true ∧ Carried .vop th0 red 0 (at0 .vop red {}) ∧ red.fn = 0x28 ∧ vopUnary red.fn = true ∧ red.b = 0 ∧ red.m 0 = false ∧
      Carried .vop th0 cmp 0 (at0 .vop cmp {}) ∧ cmp.fn = 0x20 ∧ cmp.d < 8 ∧ Carried .vquant th0 (fld 0 da) 0 (at0 .vquant (fld 0 da) {}) ∧
      fmtOf 0 = some .int8 ∧ Carried .vquant th0 (fld 4 da) 0 (at0 .vquant (fld 4 da) {}) ∧ (fmtOf 4).isSome = true ∧
      Carried .vrot th0 (fld 3 da) 0 (at0 .vrot (fld 3 da) {}) := by and_intros <;> decide
theorem witness_VectorInstructions_hist :
    let f := fld 0 (da + 0x20000)
    let s := { at0 .vhist f (ptr 1) with mem := [(objKey 0 (objAt 1 0) 0, { zero := true })] }
    Carried .vhist th0 f 0 s ∧ f.b = 0 ∧ f.psx = 2 ∧ checkAccess (ctx s 0) ((thread s th0).sreg f.a) 320 .r [0] 4 = .ok (objAt 1 0) 0 ∧
      checkAccess (ctx s 0) ((thread s th0).sreg f.a) 320 .w [0] 4 = .ok (objAt 1 0) 0 ∧
      (objMem s (objKey 0 (objAt 1 0) 0)).isBad 0 0 1344 = false ∧ (objMem s (objKey 0 (objAt 1 0) 0)).readLE 0 2 = 0 ∧ (objMem s (objKey 0 (objAt 1 0) 0)).readLE 36 28 = 0 := by and_intros <;> decide

theorem witness_ScaleStage :
    let s := { at0 .vscale (fld 4 da) {} with boot := {} }
    Carried .vscale th0 (fld 4 da) 0 s ∧ [(fld 4 da).c, (fld 4 da).e, (fld 4 da).psx, (fld 4 da).fn, (fld 4 da).rx, (fld 4 da).f1, (fld 4 da).f2] = [0, 0, 0, 0, 0, 0, 0] ∧
      0 < cols s 0 ∧ (vsuOf (gal s 0) 0).waiting = false ∧
      let d := leased { thr := [(0, { st := .blocked (.drain 0) })], cycle := 99
                        queue := [{ kind := .drain, started := true, desc := BitVec.ofNat 256 ((mkAddr 1 0).toNat + 2 ^ 128 * 32 + 2 ^ 160 * 2 + 2 ^ 176 * 32) }] }
      galRuns d 0 = true ∧ groupCtx d 0 = some 0 ∧ (gal d 0).queue.any (fun o => decide (o.since + drainCycles (tileOf o.desc) .int8 false ≤ 99)) = true := by
  and_intros <;> decide

theorem witness_Selection :
    let T : Thread := { s := [(1, mkAddr 1 0), (2, BitVec.ofNat 64 (2 ^ 32 * 2 + 4)), (3, mkAddr 2 0), (4, 2)] }
    let f := fld 0 0x10443200000
    let k := fld 0 0x10443000000
    let s := at0 .selt f T
    Carried .selt th0 f 0 s ∧ [f.e, f.rx, f.psx, f.fn, f.f1, f.f2] = [4, 0, 0, 0, 0, 0] ∧
      checkAccess (ctx s 0) (mkAddr 1 0) 64 .r [0, 1, 2] 8 = .ok (objAt 1 0) 0 ∧ checkAccess (ctx s 0) (mkAddr 2 0) 32 .w [0, 1, 2] 8 = .ok (objAt 2 1) 0 ∧
      overlap (mkAddr 1 0) 64 (mkAddr 2 0) 32 = false ∧ Carried .topk th0 k 0 (at0 .topk k T) ∧ Carried .merge th0 k 0 (at0 .merge k T) ∧
      (objMem s (objKey 0 (objAt 1 0) 0)).isBad 0 0 64 = false := by and_intros <;> decide
theorem witness_Selection_merge :
    let T : Thread := { s := [(1, mkAddr 1 0), (2, BitVec.ofNat 64 (2 ^ 32 * 2 + 2)), (3, mkAddr 2 0)] }
    let k := fld 0 0x10443000000
    let le := fun (a v n : Nat) => (List.range n).filterMap (fun i => if v / 256 ^ i % 256 = 0 then none else some (a + i, BitVec.ofNat 8 (v / 256 ^ i)))
    let cells : List Host.Cell := le 0 (mkAddr 1 128).toNat 8 ++ le 16 (mkAddr 1 128).toNat 8
    let s := { at0 .merge k T with mem := [(objKey 0 (objAt 1 0) 0, { zero := true, cells := cells })] }
    let m := objMem s (objKey 0 (objAt 1 0) 0)
    ∀ i < 2, m.readLE (16 * i + 12) 4 = 0 ∧ (checkAccess (ctx s 0) (BitVec.ofNat 64 (m.readLE (16 * i) 8)) (16 * m.readLE (16 * i + 8) 4) .r [0, 1, 2] 8).cause? = none ∧
      overlap (BitVec.ofNat 64 (m.readLE (16 * i) 8)) (16 * m.readLE (16 * i + 8) 4) (mkAddr 2 0) 32 = false := by decide
theorem witness_Selection_engine :
    let j : SelJob := { kind := .selt, thr := 0, ctx := 0, flag := false, param := 0, output := mkAddr 1 0, cap := 0, d := 2, lists := [], before := [0] }
    let h := leased { sel := [{ j with paused := true }] }
    let k := leased { sel := [j] }
    (gal h 0).sel.find? (fun j => j.paused && mayRun h j.ctx 0) = some { j with paused := true } ∧ galRuns k 0 = true ∧
      (gal k 0).sel.find? (fun j => !j.paused && mayRun k j.ctx 0) = some j ∧ selBytes k 0 0 j.ranges = j.before := by decide

def scn (sc : Scan) (h : Hw) : Hw := { h with probe := { scans := [sc] } }
def sc0 : Scan := { id := 5, ctx := 0, th := th0, seq := 3, auto := false, kind := 0, hdr := 0, qs := [{}] }
theorem witness_ScanIssue :
    let f := fld 0 da
    let s := { at0 .pscan f (ptr 1) with mem := [(objKey 0 (objAt 1 0) 0, { zero := true, cells := [(0, 2)] })] }
    Carried .pscan th0 f 0 s ∧ checkAccess (ctx s 0) ((thread s th0).sreg f.a) 64 .r [0, 1, 2] 1 = .ok (objAt 1 0) 0 ∧
      fldOf (readAt s 0 0 ((thread s th0).sreg f.a) 64).1 0 1 = 2 ∧
      let p := scn sc0 (at0 .pcollect f { s := [(1, BitVec.ofNat 64 (2 ^ 16 + 3))] })
      Carried .pcollect th0 f 0 p ∧ p.probe.scans.find? (fun x => x.th == th0 && BitVec.ofNat 64 (2 ^ 16 + x.seq) == (thread p th0).sreg f.a) = some sc0 ∧
      sc0.written = sc0.reported ∧ nextScan p = some sc0 ∧ lpuContexts p < 64 ∧ lpuSlots p + scanSlots sc0 ≤ 256 ∧
      scanOf (scn { sc0 with started := true } {}) 5 = some { sc0 with started := true } := by and_intros <;> decide

theorem witness_Survivors :
    let p := { sc0 with pages := [(2, 0, 0)], arrived := [(0, none)], started := true }
    let V : Volume := { ty := 2, blocks := 8 }
    let h := { scn p {} with mdm := { ({} : Hw).mdm with map := { ({} : Hw).mdm.map with vols := [(0, V)] } } }
    scanOf h 5 = some p ∧ p.pages[0]? = some (2, 0, 0) ∧ (p.arrived.find? (fun a => a.1 = 0)).map (fun a => a.2) = some none ∧ (volume h 0).isSome = true := by
  and_intros <;> decide

def codeObj (T : Thread) : Hw :=
  let h := one { thr := [(0, { T with st := .ready })], last := 63 }
  { h with
    ctx := [(0, { ctx h 0 with objs := [{ objAt 1 1 with x := true }] })]
    mem := [(objKey 0 { objAt 1 1 with x := true } 0, { zero := true })]
    wdn := { h.wdn with vcore := { h.wdn.vcore with held := [{ who := .gallery 0, amt := 61, level := 2, cls := 0, since := 0, order := 0 }] } } }
theorem witness_IssueOfInstructions :
    let h := codeObj { code := 1 }
    let h1 := modGal h 0 (fun L => { L with cycle := L.cycle + 1 })
    (wing h 0).sleep = 0 ∧ (gal h 0).stalled = false ∧ (gal h 0).latch = none ∧ galPowered h 0 = true ∧ streamWaits h 0 = false ∧
      galPart h1 0 = some 0 ∧
      modPart h1 0 (fun P => { P with switch := P.switch.map (fun w => w) }) = h1 ∧ canIssue h1 0 ((63 + 1 + 0) % 64) = true ∧ thrCtx h1 th0 = some 0 ∧
      (fetchWord h1 0 th0).toOption = some 0 ∧ galPowered {} 0 = false ∧
      (fetchWord (codeObj { code := 9 }) 0 th0).toOption = none := by and_intros <;> decide

theorem witness_FaultsAtTheFetch :
    let h := one { latch := some (0, none), latchFault := 5, thr := [(0, {})] }
    let x := one { latch := some (0, some 0xF000000000000000), thr := [(0, {})] }
    thrCtx h th0 = some 0 ∧ (gal h 0).latch = some (0, none) ∧ thrCtx x th0 = some 0 ∧ (decodeWord 0xF000000000000000).isNone = true ∧
      (decodeWord (encodeWord .yield (fld 0 0))).isSome = true := by and_intros <;> decide

def dbg0 : Hw :=
  { at0 .csrr (fld 3 0) {} with part := [(0, { inEff := { valid := true, wings := 1 }, running := some 0, ovl := { ty := 8 } })] }
theorem witness_RegistersOfTheProgram :
    let at_ := fun (o : IsaOp) (m : BitVec 4) (off : BitVec 44) => (Carried o th0 (fld m off) 0 (at0 o (fld m off) {}) ∧ (fld m off).low29.toNat < 4096 ∧
      (fld m off).psm = 0 ∧ (fld m off).rm = 0 ∧ (fld m off).a = 0 : Prop)
    at_ .csrr 0 4 ∧ at_ .csrr 0 2 ∧ at_ .csrr 1 4 ∧ (partGals (at0 .csrr (fld 1 4) {}) 0)[0]? = some 0 ∧
      (partGals (at0 .csrr (fld 1 0) { s := [(0, 8)] }) 0)[((thread (at0 .csrr (fld 1 0) { s := [(0, 8)] }) th0).sreg 0).toNat]? = none ∧
      at_ .csrr 2 0 ∧ at_ .csrr 3 0 ∧ debugOverlay (at0 .csrr (fld 3 0) {}) 0 = false ∧
      Carried .csrr th0 (fld 3 0) 0 dbg0 ∧ debugOverlay dbg0 0 = true ∧
      at_ .csrw 0 0 ∧ at_ .csrw 0 2 ∧ at_ .csrw 1 0 ∧ at_ .csrw 0 0x40 ∧ at_ .csrw 0 0x900 ∧ at_ .csrw 0 0x920 ∧ at_ .csrw 0 0x93C ∧ at_ .csrw 0 4 := by
  and_intros <;> decide

def ledger (x : Account) : Hw := { wdn := { aon := 200000, vcore := x, pllArith := true } }
def grant (g amt cls : Nat) : Grant := { who := .gallery g, amt, level := 2, cls, since := 0, order := g }
def waits (g amt cls : Nat) : Waiting := { who := .gallery g, amt, level := 2, cls, since := 0 }
theorem witness_GrainRequests :
    let h := ledger { ceiling := 3000, held := [grant 0 2950 0], waiting := [waits 1 61 3] }
    let W := h.wdn
    okReq (.gallery 0) = true ∧ reqCost W.opCur 0 (.gallery 0) ≤ W.vcore.heldBy (.gallery 0) ∧ W.vcore.heldBy (.gallery 2) < reqCost W.opCur 1 (.gallery 2) ∧
      ordered W.vcore.waits = [waits 1 61 3] ∧ notWithheld W (waits 1 61 3).who = true ∧ 100000 ≤ now h - 0 ∧ fits W 0 W.vcore (waits 1 61 3) = false ∧ ordered (acct W 1).waits = [] ∧
      fits W 0 {ceiling := 3000} (waits 1 61 3) = true ∧
      (ordered W.vcore.waits).find? (fun q => q.level = 2 && decide (5000 ≤ now h - q.since) && !fits W 0 W.vcore q) = some (waits 1 61 3) ∧
      revokeNext W.vcore 3 = some (grant 0 2950 0) ∧ grant 0 2950 0 ∈ W.vcore.held ∧
      W.vcore.sum + 61 + 3 ≤ (effective W 0).1 + W.vcore.heldBy (.gallery 0) ∧
      revokeNext { W.vcore with held := [grant 0 2950 3] } 3 = none := by and_intros <;> decide

theorem witness_Arbitration :
    let q : Waiting := { who := .flight 3, amt := 9, level := 1, cls := 0, since := 0 }
    let h : Hw := { wdn := { aon := 200000, vserdes := { ceiling := 1280, waiting := [q] } } }
    let f : Hw := ledger { ceiling := 3000, held := [grant 0 2950 0], waiting := [waits 1 61 3] }
    (acct h.wdn 1).sum ≤ (effective h.wdn 1).1 ∧ ordered (acct h.wdn 1).waits = [q] ∧ fits h.wdn 1 (acct h.wdn 1) q = true ∧
      notWithheld h.wdn q.who = true ∧ (acct h.wdn 1).risen ≤ 160 ∧
      (acct f.wdn 0).sum ≤ (effective f.wdn 0).1 ∧ ordered (acct f.wdn 0).waits = [waits 1 61 3] ∧ fits f.wdn 0 (acct f.wdn 0) (waits 1 61 3) = false ∧
      notWithheld f.wdn (waits 1 61 3).who = true ∧ 100000 ≤ now f - 0 := by and_intros <;> decide

theorem witness_OperatingPointsAndPower :
    let W : Warden := { opReq := some 1, opLowSince := some 0, aon := 100000000, opCur := 1, cap := some 350, capSamples := [3500], opFloor := 2 }
    let h : Hw := { wdn := W }
    W.opReq = some 1 ∧ W.opLowSince = some 0 ∧ 10000000 ≤ now h - 0 ∧ W.opCur < min 2 W.opFloor ∧ 100000000 ≤ now h - W.opLastWait ∧ W.cap = some 350 ∧
      ((3500 :: W.capSamples).take 10).foldl (· + ·) 0 ≤ 350 * 10 * ((3500 :: W.capSamples).take 10).length ∧
      350 * 10 * ((3501 :: W.capSamples).take 10).length < ((3501 :: W.capSamples).take 10).foldl (· + ·) 0 ∧ 3000 < (effective W 0).1 := by
  and_intros <;> decide

theorem witness_HeatLimits :
    let js := fun (t : Int) => junctions { sensors := [(0, t)] }
    85 ≤ ({} : Warden).thermLimit ∧ (∃ t ∈ js 1601, (16 * 100 : Int) < t) ∧ (∃ t ∈ js 1600, (16 * 100 : Int) ≤ t) ∧ (∀ t ∈ js 1520, t ≤ (16 * 100 : Int) - 80) ∧
      (∃ t ∈ js 1521, (16 * 100 : Int) - 80 < t) ∧ (∀ t ∈ js 1521, t < (16 * 100 : Int)) ∧ 3000 < (effective {} 0).1 ∧ (effective { thermCap := 3000 } 0).1 ≤ 3000 ∧ (∃ t ∈ js 1840, (16 * 115 : Int) ≤ t) ∧ (∀ t ∈ js 1679, t < (16 * 105 : Int)) := by
  and_intros <;> decide

theorem witness_WingsToSleep :
    let x : Hw := { wdn := { aon := 100000 }, wing := [(0, { sleep := 1 })] }
    (wing {} 0).sleep = 0 ∧ wingRunnable {} 0 = false ∧ (∀ i, i < 8 → galBusy {} (8 * 0 + i) = false) ∧
      (wing x 0).sleep = 1 ∧ (wing x 0).waking = false ∧ (wing x 0).since + 100 * x.wdn.s2idle ≤ now x ∧ (∀ i, i < 8 → (gal x (8 * 0 + i)).group = none) := by
  and_intros <;> decide

theorem witness_ModuleSleepAndWaking :
    let deep : Hw := {
      wdn := { aon := 2000000000, ready := true, modState := 0 }
      wing := (List.range 12).map (fun w => (w, { sleep := 2 }))
      mdm := { recovering := false } }
    let s3 : Hw := { wdn := { aon := 2000000000, modState := 3 } }
    let run := { one { thr := [(0, { st := .ready })] } with wing := [(0, { sleep := 1 })], wdn := { aon := 5000 } }
    deep.wdn.s3en = true ∧ assigned deep = false ∧ wingsDeep deep = true ∧ mdmBusy deep = false ∧
      s3.wdn.modSince + 100000000 * s3.wdn.s4idle ≤ now s3 ∧ s3.wdn.s4en = true ∧ s3.host.link.state ≠ 3 ∧
      (wing run 0).sleep ≠ 0 ∧ wingRunnable run 0 = true ∧ (0 : Nat) + 4000 ≤ now run ∧ (0 : Nat) + 500000 ≤ now s3 := by and_intros <;> decide

def jobs (run : Option Nat) (sw : Option Switch) : Hw :=
  { part := [(0, { inEff := { valid := true, wings := 1 }, running := run, schedDue := true, switch := sw })]
    ctx := [(0, { st := if run = none then .loaded else .running, cls := 1, threads := 2 }), (1, { st := .queued, cls := 2 }), (2, { st := .queued, cls := 2, submit := some { cmd := 7, restartLimit := 0, order := 9, progHandle := 0, progOff := 0 } })]
    gal := [(0, { group := some { holder := 0, fw := 0, fs := 0, code := 0, pc := 0, s := [], p := [], t := [], stack := [], active := 0, rec0 := none, rec1 := none } })] }
def isMine (h : Hw) (p c : Nat) : Prop := 4 * p ≤ c ∧ c < 4 * p + 4 ∧ ((ctx h c).st = .queued ∨ (ctx h c).st = .preempted) ∧ (ctx h c).stopped = false
theorem witness_WhatRunsNext :
    let h := jobs none none
    let x := jobs (some 0) (some { incoming := 1, limit := 10000, counted := [(0, 10000)] })
    isMine h 0 1 ∧ isMine h 0 2 ∧ ¬isMine h 0 0 ∧ ¬isMine h 0 3 ∧ (ctx h 2).cls = (ctx h 1).cls ∧ submitOrder h 1 < submitOrder h 2 ∧
      (part h 0).schedDue = true ∧ (part h 0).resetting = none ∧ (part h 0).running = none ∧ (ctx (jobs (some 0) none) 0).cls < (ctx (jobs (some 0) none) 1).cls ∧
      (jobs (some 0) none).jst.preemptEn = true ∧
      galPart x 0 = some 0 ∧ thrCtx x th0 = some 0 ∧ openGroups x 0 ≠ [] ∧ openGroups { x with gal := [] } 0 = [] := by
  unfold isMine; and_intros <;> decide

def lendable : Hw :=
  { part := [(0, {
      inEff := { valid := true, wings := 1 }
      running := some 1
      sems := [(0, { owner := some (0, 0), queue := [(0, 2, 3)] })]
      lends := [] })]
    ctx := [(0, { st := .preempted, threads := 2 }), (1, { st := .running, first := 2, threads := 2, stopped := false })] }
theorem witness_LendsAndTeardown :
    let h := lendable
    (semOf h 0 0).owner = some (0, 0) ∧ thrCtx h th0 = some 0 ∧ (ctx h 0).st = .preempted ∧
      (semOf h 0 0).queue.find? (fun w => match thrCtx h { g := w.1, t := w.2.1 } with
        | some d => mayRun h d w.1 && d != 0
        | none => false) = some (0, 2, 3) ∧ h.jst.lendEn = true := by and_intros <;> decide

def man0 : Nat := bytesOf [(0, 4, ascii "ACVM" 4), (4, 2, 0x100), (6, 2, 1), (8, 1, 1), (10, 1, 1), (12, 2, 8), (24, 8, 4096),
  (64, 2, 1), (66, 1, 1), (67, 1, 5), (72, 8, 64), (96, 2, 1), (99, 1, 1)]
def room0 (st : CtxSt) : Hw :=
  { part := [(0, { inEff := { valid := true, wings := 1, atrium := 4096 }})]
    ctx := [(0, { st })] }
theorem witness_JobCommands :
    let l := { cmdOf 1 (ent [(0, 1, 0x40), (16, 4, 112)]) with chunks := [(0, man0)] }
    let u := cmdOf 1 (ent [(0, 1, 0x41)])
    let x := cmdOf 1 (ent [(0, 1, 0x42), (26, 1, 1)])
    let t := cmdOf 1 (ent [(0, 1, 0x43), (16, 4, 64)])
    Due (hosted l (room0 .free)) 1 0 (hasOp 0x40) l ∧ l.zeros [(4, 4), (25, 39)] = true ∧ l.part < 8 ∧ 64 ≤ l.dataLen ∧ isResetting (room0 .free) 0 = false ∧
      (dataOf l 112).isSome = true ∧ (manifestOf ((dataOf l 112).getD 0) 112).isSome = true ∧
      (admission (hosted l (room0 .free)) 0 ((manifestOf man0 112).getD {}) false).toOption.isSome = true ∧
      Due (hosted u (room0 .loaded)) 1 0 (hasOp 0x41) u ∧ u.zeros [(4, 4), (16, 4), (27, 1), (30, 2), (40, 24)] = true ∧ progressOk (room0 .loaded) 0 0 0 = true ∧
      Due (hosted x (room0 .running)) 1 0 (hasOp 0x42) x ∧ x.zeros [(4, 4), (16, 4), (27, 37)] = true ∧ x.fld 26 1 < 2 ∧
      Due (hosted t (room0 .running)) 1 0 (hasOp 0x43) t ∧ t.zeros [(4, 4), (26, 38)] = true ∧ 64 ≤ t.dataLen := by and_intros <;> decide +kernel

theorem witness_PartitionCommands :
    let d : Nat := bytesOf [(0, 2, 1), (2, 1, 0xFF), (3, 1, 1), (8, 8, 2097152), (16, 8, 4096)]
    let c := { cmdOf 0 (ent [(0, 1, 3), (16, 4, 128), (24, 1, 0x20), (25, 1, 0)]) with chunks := [(0, d)] }
    let r := cmdOf 0 (ent [(0, 1, 3), (24, 1, 0x21), (25, 1, 7)])
    Due (hosted c {}) 0 0 (setsFeature 0x20) c ∧ c.zeros [(4, 4), (26, 38)] = true ∧ c.fld 25 1 < 8 ∧ c.dataLen = 128 ∧ (partDescOf d).isSome = true ∧
      dataOf c 128 = some d ∧ partOk (hosted c {}) 0 ((partDescOf d).getD {}) = true ∧ (hosted c {}).jst.newPart = none ∧
      partOk (hosted c {}) 0 { (partDescOf d).getD {} with overlay := 7 } = false ∧
      Due (hosted r {}) 0 0 (setsFeature 0x21) r ∧ r.zeros [(4, 4), (16, 4), (26, 38)] = true ∧ r.fld 25 1 = 7 ∧
      (part (one { partFault := true }) 0).resetting = none ∧ 0 ∉ (one { partFault := true }).boot.partDue ∧ 0 ∈ partGals (one { partFault := true }) 0 := by
  and_intros <;> decide +kernel

def flown (x : Flight) (w : List Packet) : Hw :=
  { ffu := { id := 0, flights := [(1, x)], wait := w }, wdn := { aon := 20000, vserdes := { ceiling := 1280, held := [{ who := .flight 1, amt := 9, level := 1, cls := 0, since := 0, order := 0 }] } } }
theorem witness_LifeOfAFlight :
    let x := flown { cable := true } []
    let u := flown { cable := true, state := 2, replay := [(0, { dest := 1, src := 0, ty := 1 })], replayRun := 8, retrainFails := 3 } []
    let l := flown { cable := true, state := 3 } []
    (flight x 1).cable = true ∧ (flight x 1).disable = false ∧ (flight x 1).state ≠ 2 ∧ 9 ≤ x.wdn.vserdes.heldBy (.flight 1) ∧ (15 : Nat) % 16 = 15 ∧
      (7 : Nat) % 16 ≠ 15 ∧ (7 : Nat) % 4 = 3 ∧ (5 : Nat) % 4 ≠ 3 ∧ (5 : Nat) / 4 % 4 ≠ 3 ∧ x.ffu.id ≠ 0x3FFF ∧ (2 : Nat) = (0 + 1 + 1) % 32 ∧ (3 : Nat) ≠ (0 + 1 + 1) % 32 ∧
      (flight u 1).replay ≠ [] ∧ (flight u 1).state = 2 ∧ 8 ≤ (flight u 1).replayRun ∧ 3 ≤ (flight u 1).retrainFails ∧ (flight l 1).state = 3 ∧
      ({} : Hw).wdn.vserdes.heldBy (.flight 1) < 9 := by and_intros <;> decide

theorem witness_TrafficOfAFlight :
    let p : Packet := { dest := 0, src := 1, ty := 1, age := 3 }
    let q : Packet := { dest := 9, src := 1, ty := 1, age := 4 }
    let z : Packet := { dest := 2, src := 1, ty := 1 }
    let x := flown { state := 2, mute := false } [p, q, z]
    (flight x 1).state = 2 ∧ assigned x = true ∧ (flight x 1).mute = false ∧ (flight x 1).loop = 0 ∧ hopOf x q = none ∧ (hopOf x p).map (fun r => r.1) = some 64 ∧
      (hopOf x z).map (fun r => r.1) = some 1 ∧ canSend (flight x 1) z = true ∧ knownType 1 = true ∧ knownType 6 = false ∧
      q ∉ [p] ∧ min 0xFFFF (p.age + (now x - p.since) / 10) < min 0xFFFF (q.age + (now x - q.since) / 10) ∧ 10000 ≤ now x - x.ffu.linkSent ∧
      assigned ({} : Hw) = false := by
  and_intros <;> decide

def served (ty len body : Nat) : Hw :=
  let h := one { thr := [(0, { st := .ready })] }
  { h with
    ffu := { id := 0, remoteEn := true, wait := [{ dest := 0, src := 1, ty, len, body, inFlight := 65 }] }
    mem := [(objKey 0 (objAt 3 2) 0, { zero := true })] }
theorem witness_RemoteService :
    let a := 3 * 2 ^ 48
    let ok := fun (ty n : Nat) (need : Right) =>
      ((takeDelivered ty (served ty (n + 32) (a + n * 256 ^ 8))).map (fun r => (ownerCheck r.2 r.1 (BitVec.ofNat 64 r.1.body) n need).toOption.isSome) = some true : Prop)
    ok 1 8 .r ∧ ok 2 8 .w ∧ ok 0x10 4 .w ∧ takeDelivered 1 {} = none ∧ (objMem (served 1 0 0) (objKey 0 (objAt 3 2) 0)).isBad 2 0 8 = false ∧
      ((takeDelivered 1 (served 1 0 (8 * 256 ^ 8))).map (fun r => (ownerCheck r.2 r.1 (BitVec.ofNat 64 r.1.body) 8 .r).toOption.isNone) = some true) ∧
      (takeDelivered 3 (served 3 12 0)).isSome = true ∧ mailThread (served 3 12 0) 0 0 = some th0 ∧ (thread (served 3 12 0) th0).inbox.length < 4 ∧
      (ctx (served 3 12 0) 0).st ≠ .free ∧ (served 3 12 0).ffu.remoteEn = true ∧ (ctx (served 3 12 0) 0).mailStore.length < 64 := by
  and_intros <;> decide +kernel

def asked (k : ReqKind) (ty body : Nat) (src : Nat) : Hw :=
  let h := one {}
  { h with
    wdn := { h.wdn with aon := 1000000000 }
    ctx := [(0, { ctx h 0 with arrived := [(2, 0)] })]
    ffu := {
      id := 0
      flights := [(0, { state := 2, mute := false })]
      reqs := [{ tag := 7, ctx := 0, kind := k, pkt := { dest := 1, src := 0, ty := 1, tag := 7 }, resend := some 5, since := 0 }]
      roots := [(2, { cur := [0], curSince := some 0 })]
      wait := [{ dest := 0, src := src, ty, tag := 7, inFlight := 65, body }] } }
theorem witness_RequestsAndFabricBarriers :
    let has := fun (ty : Nat) => ((takeDelivered ty (asked (.load th0 0) ty 0 0)).map (fun r => (reqOf r.2 r.1.tag).isSome) = some true : Prop)
    let h := asked (.load th0 0) 4 0 0
    has 0x81 ∧ has 0x82 ∧ has 0x83 ∧ has 0x84 ∧ (reqOf h 7).isSome = true ∧ assigned h = true ∧ ((routes h { dest := 1, src := 0, ty := 1 }) ≠ []) ∧
      pickRoute { h with ffu := { h.ffu with reqs := [] } } 0 { dest := 1, src := 0, ty := 1 } = none ∧
      (pickRoute { h with ctx := [(0, { credits := 1 })] } 0 { dest := 1, src := 0, ty := 1 }).isSome = true ∧
      0 + 100000 * min 1000 (max 1 h.ffu.reqMs) ≤ now h ∧ (ctx h 0).st ≠ .free ∧ rootOf h 0 = h.ffu.id ∧ 0 ∈ membersOf h 0 ∧ epochOf h 0 0 = 0 ∧
      (takeDelivered 4 h).isSome = true ∧ (takeDelivered 5 (asked (.load th0 0) 5 0 0)).isSome = true ∧ tget (ctx h 0).arrived 2 = some 0 ∧
      100000000 * min 3600 (max 1 5) ≤ now h ∧ (rootRec h 0 2).curSince = some 0 ∧ (rootRec h 0 2).cur ≠ [] := by and_intros <;> decide +kernel

def pulse (st : FSt) : FOp := { id := 4, die := 1, cls := 3, kind := .program, win := true, blk := 0, page := 0, cws := [], owner := .scrub, since := 0, st }
def readOp : FOp := { id := 5, die := 1, cls := 0, kind := .read, win := true, blk := 4, page := 0, cws := [], owner := .scrub, since := 0 }
def dies0 (ops : List FOp) (L : Landing) (B : Blk) : Hw :=
  { wdn := { aon := 70000000000000 }, flash := { ops, landings := [(0, L)], dies := [(1, { blks := [(1, B)] })] } }
theorem witness_LandingsAndDieSchedulers :
    let r := dies0 [pulse (.running 69999999999990), readOp] { dn := { replay := [(0, 0, 0)], replayRun := 8 } } { st := 1, inProg := some 3, pages := [(0, { data := 0 })] }
    let z := dies0 [pulse (.suspended 0)] {} {}
    (landing r 0).lost = false ∧ (lndDir (landing r 0) false).replay = [(0, 0, 0)] ∧ 8 ≤ (landing r 0).dn.replayRun ∧ (0 : Nat) = (lndDir (landing r 0) true).rxNext ∧
      100 ≤ now r - 0 ∧ (landing r 0).suspendEn = true ∧
      r.flash.ops.find? (fun o => o.die = 1 && opPhys r o % 4 = 0 && o.kind != .read && o.isRunning) = some (pulse (.running 69999999999990)) ∧
      readOp ∈ r.flash.ops ∧ readOp.waits = true ∧ opPhys r readOp % 4 = 0 ∧ 0 + (now r - 69999999999990) + 20000 ≤ opTime (pulse .queued) ∧
      z.flash.ops.find? (fun o => o.die = 1 && opPhys z o % 4 = 0 && o.isSuspended) = some (pulse (.suspended 0)) ∧
      (landing r 0).booted = false ∧ (landing r 0).calEn = true ∧ 60480000000000 ≤ now r - (calSet r 1 0).weekFrom ∧ (calSet r 1 0).weekCw < calWindow (landing r 0) ∧
      calGroup (blk r 1 1) (now r) = 2 := by and_intros <;> decide +kernel

def flash0 (ops : List FOp) : Hw :=
  { dies0 ops { booted := true } {} with mdm := { map := { sbs := [(7434, { st := 2, zone := false, inSvc := BitVec.ofNat 32 (2 ^ 32 - 1) })] } } }
theorem witness_ReadsProgramsAndErases :
    let r := { readOp with st := .running 5 }
    let t := { readOp with st := .tier2 3, fails := [0], owner := .raw 9 }
    let e := { pulse (.running 5) with kind := .erase }
    channelNext (flash0 [readOp]) 0 = some readOp ∧ channelNext (flash0 []) 0 = none ∧ readOp.front = false ∧ (fchan (flash0 [readOp]) 0).sinceB < 3 ∧
      (flash0 [r]).flash.ops.find? (fun o => o.die = 1 && o.kind = .read && opPhys (flash0 [r]) o % 4 = 0 && o.isRunning) = some r ∧
      flashOp (flash0 [t]) 5 = some t ∧ (flash0 [e]).flash.ops.find? (fun o => o.die = 1 && o.kind = .erase && o.isRunning) = some e ∧
      (flash0 [pulse (.running 5)]).flash.ops.find? (fun o => o.die = 1 && o.kind = .program && opPhys (flash0 [pulse (.running 5)]) o % 4 = 0 && o.isRunning) =
        some (pulse (.running 5)) ∧ dieOut (flash0 []) 1 = false ∧ (landing (flash0 []) 0).lost = false ∧
      progCheck {} 0 false = none ∧ progCheck {} 1 false = some 0xA9 := by and_intros <;> decide +kernel
def zone3 : Hw :=
  let o := { readOp with st := .tier3, fails := [0], blk := 7 }
  { dies0 [o] { booted := true } {} with mdm := { map := { sbs := [(7434, { st := 2, zone := false, members := [(0, 7)], inSvc := BitVec.ofNat 32 (2 ^ 32 - 1) })] } } }
theorem witness_Reconstruct :
    let o := { readOp with st := .tier3, fails := [0], blk := 7 }
    logicalBlk (die zone3 1) (opPhys zone3 o) = some 7 ∧ (memberOf zone3.mdm.map 1 7).map (fun k => k.1) = some 7434 ∧
      setDie (dieSet 1).1 (dieSet 1).2 = 1 := by and_intros <;> decide +kernel

/-- A journal page that a write of 8 units filled. -/
def jpage : JPage := { seq := 3, since := 0, programming := true, recs := [{ chg := .map 0 0 8 (.located true 9 0 0) none false, whom := .units 1 0 8 }] }
def mdm1 (M : Mdm) : Hw := { mdm := M }
theorem witness_JournalAndMap :
    let p : LzPage := { id := 5, sb := 9, page := 0, data := 0, recs := jpage.recs, copies := [1, 1] }
    let q : LzPage := { p with copies := [1, 2] }
    let r : LzPage := { q with recs := [{ chg := .fold 0 0 }] }
    let Z : Sblk := { st := 1, zone := true, inSvc := BitVec.ofNat 32 (2 ^ 32 - 1) }
    let z := mdm1 { lzPages := [r], map := { sbs := [(9, Z), (10, Z)] }, lz := { open0 := some 10 } }
    let k : Ckpt := { map := {}, seq := 3, gen := 1, done := true }
    p.recs.all (inWindow (mdm1 {})) = true ∧ p.recs.all (inWindow (mdm1 { writes := [{ cmd := 1, trim := false, vol := 0, lba := 0, n := 900 }] })) = true ∧
      [{ chg := .fold 0 0, whom := .units 1 300 8 : JRec }].all (inWindow (mdm1 { writes := [{ cmd := 1, trim := false, vol := 0, lba := 0, n := 900 }] })) = false ∧
      [p].find? (fun p => p.id = 5 && p.copies.all (fun c => c == 1)) = some p ∧ [q].find? (fun p => p.id = 5 && p.copies.contains 2 && !p.copies.contains 0) = some q ∧
      (writing (mdm1 {}) 1).isSome = false ∧ (takeLz true z).isSome = true ∧
      [jpage].find? (fun P => P.seq = 3) = some jpage ∧ max 64 (min 4096 ({} : Mdm).jmib) * 32 > 1 ∧
      (max 60 ({} : Mdm).interval * 100000000 ≤ now { wdn := { aon := BitVec.ofNat 64 (2 ^ 62) } } - ({} : Mdm).ckptAt) ∧
      k.gen = ({ gen := 0, ckptB := some k } : Mdm).gen + 1 := by and_intros <;> decide +kernel

/-- A 4-bit superblock of die set 0 with all members in service. -/
def full4 : Sblk := { st := 2, zone := false, inSvc := BitVec.ofNat 32 (2 ^ 32 - 1) }
/-- A copy of superblock 3 into superblock 4, with these pages pending. -/
def copying (d : Dest) (h : Hw) : Hw :=
  { h with mdm := { map := { sbs := [(3, full4), (4, full4)] }, reclaims := [{ id := 1, victim := 3, dests := [d] }], start := 7426 } }
theorem witness_CopiesAndErases :
    let d0 : Dest := { sb := 4, pend := [(0, .void)] }
    let d1 : Dest := { d0 with row := some 0, done := List.range 32 }
    let d2 : Dest := { d0 with row := some 0, failed := [0] }
    let lost : Hw := { (copying d2 {}) with flash := { dies := [(0, { lost := true })] } }
    let reads : Hw := dies0 [{ readOp with die := 0, blk := 27, win := true }] {} {}
    let all := fun (M : MapSt) => M.sbs.filter (fun e => e.1 / 7427 = 0 && e.2.st != 3 && decide (e.1 ≠ 3))
    destOf (copying d1 {}) 1 4 = some d1 ∧ (inSvc full4).all (fun p => d1.done.contains p) = true ∧ freeCount (copying d0 {}).mdm.map 0 < 7426 ∧
      (all (copying d0 {}).mdm.map).filter (fun e => !e.2.zone && e.2.st = 2) = [(4, full4)] ∧
      validUnits (copying d0 {}).mdm.map 3 = 0 ∧ pendingFrom (copying d0 {}) 3 = false ∧
      (dieOut (copying d2 {}) 0 = false ∧ looseBlock (copying d2 {}) 0 = some 24) ∧ dieOut lost 0 = true ∧
      (reads.flash.ops.any (fun o => o.kind = .read && o.win && (inSvc full4).any (fun p => memberAt (copying d0 {}).mdm.map 3 p = (o.die, o.blk)))) = true ∧
      dieDead (copying d0 {}) 0 = false ∧ owned (copying d0 {}) 0 = false ∧ leftIn (copying d0 {}) { id := 1, victim := 3 } = [] := by and_intros <;> decide +kernel

def die0 (D : Die) (S : Tbl Sblk) : Hw := { flash := { dies := [(0, D)] }, mdm := { map := { sbs := S } } }
theorem witness_BlocksAndNails :
    let S : Tbl Sblk := [(3, full4)]
    let N := ({ vol := 0, span := 2, ents := (List.range 16).map (fun i => (i, MapEnt.located true 9 (i / 8) (i % 8))) } : Nail)
    let nail : Hw := { mdm := { map := { nails := [(0, N)], vols := [(0, { ty := 0, blocks := 99, spans := [(2, .nailed 0)] })], sbs := [(7, { full4 with zone := true, st := 1 })] }
                                foldS := 0, budget := 0, lz := { open0 := some 7 } } }
    let p := fun (D : Die) => if D.gap = 0 then 7451 else D.gap - 1
    memberOf (die0 { moving := some 27 } S).mdm.map 0 27 = some (3, 0) ∧ looseBlock (die0 { moving := some 27 } S) 0 = some 24 ∧
      dieOut (die0 { moving := some 27 } S) 0 = false ∧ dieDead (die0 { rebuild := true } S) 0 = false ∧ owned (die0 { rebuild := true } S) 0 = false ∧
      (dieSet 0 = (0, 0) ∧ full4.inSvc.getLsbD 0 = true) ∧ (logicalBlk ({ due := 1 } : Die) (p { due := 1 })).isSome = true ∧
      blockUsed (die0 { moving := some 30 } S).mdm.map 0 30 = false ∧ (blk (die0 {} S) 0 ({} : Die).gap).st = 0 ∧
      spanEnt nail.mdm.map 0 2 = .nailed 0 ∧ spanIdle nail 0 2 = true ∧ (chunkOf N).isSome = true ∧ min 2000 nail.mdm.budget * 1000000000 < nailBytes nail.mdm.map ∧
      (takeLz true nail).isSome = true := by and_intros <;> decide +kernel

theorem witness_RetirementSanitizeAndHours :
    let dead : Tbl Landing := (List.range 16).map (fun l => (l, { lost := true }))
    let w : Writing := { cmd := 1, trim := false, vol := 0, lba := 0, n := 900 }
    spare { flash := { landings := dead }, mdm := { writes := [w] } } ≤ 0 ∧ w.trim = false ∧ 0 < spare {} ∧
      (sanDies {}).length = 512 ∧ (sanDies {}).all (fun x => (5 :: List.range 5).contains x) = false ∧ (sanDies {}).all (fun x => (5 :: List.range 512).contains x) = true ∧
      dieDead {} 5 = false ∧ (({} : Mdm).hourMark + 1) * 360000000000 ≤ now { wdn := { aon := BitVec.ofNat 64 (2 ^ 62) } } ∧ ({} : Mdm).hours = 0 := by
  and_intros <;> decide +kernel

/-- A module whose queue 1 has expert enablement and where die 0 is in raw ownership. -/
def rawHost (c : Cmd) : Hw := { hosted c {} with
  host := { cmds := [c], queues := [(1, { configured := true, expert := true })] }, flash := { landings := [(0, { own := 1 })] } }
/-- RAW_FLASH with an OP, of 16 bytes. -/
def rawOf (op len dlen : Nat) : Cmd := cmdOf 1 (ent [(0, 1, 0x24), (16, 4, dlen), (24, 1, op), (40, 4, len)])
theorem witness_RawCommands :
    let due := fun (op len dlen : Nat) => Due (rawHost (rawOf op len dlen)) 1 0 (isRaw op) (rawOf op len dlen)
    let st := fun (op len dlen : Nat) (data owns : Bool) => rawStatus (begun (rawOf op len dlen) (rawHost (rawOf op len dlen))) (rawOf op len dlen) data owns true
    due 1 16 16 ∧ due 4 32768 32768 ∧ due 5 0 0 ∧ due 11 16 16 ∧ st 1 16 16 true false = none ∧ st 4 32768 32768 true true = none ∧ st 5 0 0 false true = none ∧
      st 11 16 16 true false = none ∧ dieDead (rawHost (rawOf 5 0 0)) 0 = false ∧ (rawOf 1 16 16).die = 0 ∧ rawBlkOk (rawOf 1 16 16) = true ∧
      rawPgOk (rawHost (rawOf 1 16 16)) (rawOf 1 16 16) = true ∧ rawRange (rawOf 1 16 16) 4096 = true ∧ (rawOf 4 32768 32768).rawLen = 32768 ∧
      0 < blkPages (rawMode (rawHost (rawOf 4 32768 32768)) (rawOf 4 32768 32768)) := by and_intros <;> decide +kernel

def adm (l : List (Nat × Nat × Nat)) : Cmd := cmdOf 0 (ent l)
theorem witness_AdminCommands :
    let d := fun (c : Cmd) (f : Cmd → Bool) => Due (hosted c {}) 0 0 f c
    d (adm [(0, 1, 1)]) (hasOp 1) ∧ (adm [(0, 1, 1)]).zeros [(4, 4), (24, 40)] = true ∧ d (adm [(0, 1, 2), (24, 1, 4)]) (hasOp 2) ∧ d (adm [(0, 1, 4), (24, 1, 0x50)]) (hasOp 4) ∧
      featOk (adm [(0, 1, 4), (24, 1, 0x50)]) 0 false = true ∧ (adm [(0, 1, 4), (24, 1, 1)]).zeros [(4, 4), (26, 6), (36, 28)] = true ∧
      (let c := adm [(0, 1, 3), (24, 1, 1), (33, 1, 5), (34, 2, 16), (36, 2, 4)]
       d c (fun c => setsFeature 1 c && c.fld 32 1 != 1) ∧ featOk c 16 true = true ∧ isPow2In (c.fld 34 2) 16 4096 = true ∧ c.fld 36 2 = 4) ∧
      (let c := adm [(0, 1, 3), (24, 1, 1), (32, 1, 1), (33, 1, 5)]
       d c (fun c => setsFeature 1 c && c.fld 32 1 == 1) ∧ (queueOf { host := { queues := [(5, { configured := true })] } } 5).configured = true) ∧
      d (adm [(0, 1, 3), (24, 1, 2)]) (setsFeature 2) ∧ d (adm [(0, 1, 3), (24, 1, 3), (32, 4, 9)]) (setsFeature 3) ∧
      d (adm [(0, 1, 3), (24, 1, 0x10), (32, 2, 350)]) (setsFeature 0x10) ∧ featOk (adm [(0, 1, 3), (24, 1, 0x10), (32, 2, 350)]) 2 false = true ∧
      d (adm [(0, 1, 3), (24, 1, 0x11)]) (setsFeature 0x11) ∧ d (adm [(0, 1, 3), (24, 1, 0x31), (32, 1, 63)]) (setsFeature 0x31) ∧
      d (adm [(0, 1, 3), (24, 1, 0x50), (32, 2, 0x3FFF)]) (setsFeature 0x50) ∧ d (adm [(0, 1, 8)]) (fun c => c.opcode == 8 && c.fld 24 1 != 1) ∧
      d (adm [(0, 1, 8), (24, 1, 1)]) (fun c => c.opcode == 8 && c.fld 24 1 == 1) := by and_intros <;> decide +kernel

def vol1 : Volume := { ty := 0, blocks := 99 }
/-- A module with volume 0 of 99 units, and this entry accepted. -/
def stored (c : Cmd) : Hw := { hosted c {} with mdm := { recovering := false, map := { vols := [(0, vol1)] } } }
def io (l : List (Nat × Nat × Nat)) : Cmd := cmdOf 1 (ent l)
theorem witness_DataCommands :
    let d := fun (c : Cmd) (f : Cmd → Bool) => Due (stored c) 1 0 f c
    let rd := io [(0, 1, 0x20), (16, 4, 4096), (32, 4, 1)]
    let wr := io [(0, 1, 0x21), (16, 4, 4096), (32, 4, 1)]
    let tr := io [(0, 1, 0x22), (24, 8, 98), (32, 4, 1)]
    let B : Obj := { objAt 2 1 with inp := true, outp := true }
    let at_ := fun (c : Cmd) => ({ hosted c {} with ctx := [(0, { st := .loaded, objs := [B] })] } : Hw)
    let ord := io [(0, 1, 0x20), (6, 2, 2), (16, 4, 64), (36, 1, 1)]
    let owr := { io [(0, 1, 0x21), (6, 2, 2), (16, 4, 64), (36, 1, 1)] with chunks := [(0, 5)] }
    d rd isRead ∧ unitStatus (stored rd) rd 4096 true = none ∧ mustWait (stored rd) rd false = false ∧
      d wr isWrite ∧ unitStatus (stored wr) wr 4096 true = none ∧ mustWait (stored wr) wr true = false ∧ writing (stored wr) 1 = none ∧
      d tr isTrim ∧ unitStatus (stored tr) tr (2 ^ 32 - 1) false = none ∧ mustWait (stored tr) tr true = false ∧
      d (io [(0, 1, 0x23)]) (hasOp 0x23) ∧ (io [(0, 1, 0x23)]).zeros [(4, 4), (16, 4), (24, 40)] = true ∧
      Due (at_ ord) 1 0 isObjRead ord ∧ (objOf (at_ ord) ord false).toOption = some (0, B) ∧ objWaits (at_ ord) ord = false ∧
      Due (at_ owr) 1 0 isObjWrite owr ∧ (objOf (at_ owr) owr true).toOption = some (0, B) ∧ objWaits (at_ owr) owr = false ∧ (dataOf owr 64).isSome = true := by
  and_intros <;> decide +kernel

theorem witness_AbortAndVolumes :
    let ab := cmdOf 0 (ent [(0, 1, 0x0B), (24, 1, 1), (26, 2, 7)])
    let t : Cmd := { io [(0, 1, 0x20), (2, 2, 7)] with id := 2 }
    let two := hosted ab { host := { cmds := [ab, t] } }
    let mk := cmdOf 0 (ent [(0, 1, 3), (24, 1, 0x30), (32, 4, 5), (40, 8, 16)])
    let rm := cmdOf 0 (ent [(0, 1, 3), (24, 1, 0x30), (32, 4, 0), (36, 1, 1)])
    Due two 0 0 (hasOp 0x0B) ab ∧ ab.zeros [(4, 4), (16, 4), (25, 1), (28, 36)] = true ∧ [ab, t].find? (fun x => x.q = 1 && x.cid = 7 && !x.badCid && x.comp.isNone && x.id != 1) = some t ∧
      (abortStop t two).isSome = true ∧
      Due (stored mk) 0 0 (fun c => setsFeature 0x30 c && c.fld 36 1 != 1) mk ∧ (volumeOf mk).isSome = true ∧ volume (stored mk) 5 = none ∧ volumePending (stored mk) = false ∧
      Due (stored rm) 0 0 (fun c => setsFeature 0x30 c && c.fld 36 1 == 1) rm ∧ rm.zeros [(4, 4), (16, 4), (25, 7), (38, 2), (53, 3)] = true ∧ (volume (stored rm) 0).isSome = true := by
  and_intros <;> decide +kernel

theorem witness_FirmwareOverlaysAndBoot :
    let d := fun (c : Cmd) (f : Cmd → Bool) => Due (hosted c {}) 0 0 f c
    let dl := { adm [(0, 1, 5), (16, 4, 4096)] with chunks := [(0, 7)] }
    let cm := adm [(0, 1, 6), (24, 1, 1)]
    let sel := adm [(0, 1, 3), (24, 1, 0x40), (32, 1, 2), (33, 1, 0xFF)]
    d dl (hasOp 5) ∧ dl.zeros [(4, 4), (28, 36)] = true ∧ dl.dataLen = 4096 ∧ (dataOf dl 4096).isSome = true ∧ committed (hosted dl {}) (inactive (hosted dl {})) = false ∧
      d cm (hasOp 6) ∧ cm.zeros [(4, 4), (16, 4), (26, 38)] = true ∧
      (let c := adm [(0, 1, 3), (24, 1, 0x40)]; d c (fun c => setsFeature 0x40 c && c.fld 32 1 != 1 && c.fld 32 1 != 2) ∧ ovFields c = true) ∧
      (let c := adm [(0, 1, 3), (24, 1, 0x40), (32, 1, 1)]; d c (overlayOp 1) ∧ ovFields c = true) ∧ d sel (overlayOp 2) ∧ ovFields sel = true ∧ sel.fld 33 1 = 0xFF ∧
      (let c := adm [(0, 1, 7), (16, 4, 724)]; d c (hasOp 7) ∧ c.zeros [(4, 4), (57, 7)] = true ∧ c.dataLen = 724) ∧
      ({ wdn := { power := true }, boot := { stage := 8 } } : Hw).boot.stage = 8 := by and_intros <;> decide +kernel
/-- A slot as shipped, with a first page whose image length is 0. -/
def shipped1 (m : List Nat) : Hw := { boot := { slotB := { shipped := true, data := [(0, 0)], map := m } } }
theorem witness_Commit : imageFault (shipped1 [0]) 1 = 0 ∧ commitStatus (shipped1 [0]) 1 0 = none ∧ commitStatus (shipped1 []) 1 0 = some stFwInvalid := by
  have a : imageFault (shipped1 [0]) 1 = 0 ∧ imageFault (shipped1 []) 1 = 0 := by
    constructor <;> (unfold imageFault secVersion; simp [authentic, fwSlot, shipped1]; omega)
  have b : covered (shipped1 [0]) 1 = true ∧ covered (shipped1 []) 1 = false := by decide +kernel
  refine ⟨a.1, ?_, ?_⟩ <;> unfold commitStatus
  · rw [a.1]; simp [b.1]
  · rw [a.2]; simp [b.2]

theorem witness_WordsAndTheirRepair :
    let h : Hw := { mdm := { crit := [(0, { copies := [some 1, some 1, some 2] }), (1, { copies := [some 1, some 2, some 3] }), (4, { copies := [some 1, some 1, some 1], writing := some 5 })] } }
    majority (critNow h 0) = some 1 ∧ majority (critNow h 1) = none ∧ (critNow h 4).writing = some 5 ∧
      otpGood {} 0 = true ∧ ({ boot := { antiTarget := 3 } } : Hw).boot.anti < 3 ∧ (dieOut {} 5 = false ∧ (chan {} 5).state ≠ 3) ∧
      (tget (blk { flash := { dies := [(5, { blks := [(1, { pages := [(0, { data := 0 })] })] })] } } 5 1).pages 0).isSome = true ∧
      [(1, 7)].contains (1, 7) = true ∧ (sramUnit 1 7).2 = 16 ∧ (sramUnit 2 7).2 = 64 ∧
      0 < now { wdn := { aon := BitVec.ofNat 64 (2 ^ 62) } } / 8640000000000 := by and_intros <;> decide +kernel

def linked (l : HostLink) : Hw := { wdn := { power := true }, host := { link := l, queues := [(1, { configured := true, depth := 16, limit := 16 })] } }
theorem witness_TheHostLink :
    let u : HostLink := { state := 2, trained := 8, width := 8, coeffs := true, reads := [{ rtag := 0, cmd := 1, chunk := 0, addr := 0, len := 64, sent := true }] }
    let m : HMsg := { cls := 2, msgId := 0, flits := 1, last := some 0, body := .echo 0 0 }
    let c : Cmd := { cmdOf 1 0 with comp := some { status := 0 } }
    linkUp u = true ∧ linkUp { u with state := 4 } = true ∧ widest 255 = 8 ∧ widest 3 = 2 ∧ widest 1 = 0 ∧ (({} : HostLink).state < 2 ∧ ({} : HostLink).retryAt = none) ∧
      (linked u).wdn.power = true ∧ [m].any (fun m => m.last.isSome) = true ∧ (queueOf (linked u) 1).configured = true ∧ ringRoom (queueOf (linked u) 1) ≠ 0 ∧
      u.reads.find? (fun r => r.rtag = 0 && r.sent) = u.reads.head? ∧ (formUnlisted 1 { linked u with host := { (linked u).host with cmds := [c] } }).host.cmds = [c] ∧
      outstanding (linked u) 0 < ringRoom (queueOf (linked u) 0) := by and_intros <;> decide +kernel

theorem witness_ResetsAndPower :
    let h : Hw := { wdn := { power := true, aon := BitVec.ofNat 64 (2 ^ 62) }, boot := { trial := true, trialFrom := some 5, resetDue := some 2 } }
    h.wdn.power = true ∧ 5 + 3000000000 ≤ now h ∧ (emstop h.wdn = false ∧ emstop { h.wdn with emstopPin := true } = true) ∧ ({} : Hw).wdn.power = false ∧ (4600 ≤ 4600) := by
  and_intros <;> decide +kernel

theorem witness_SensorsAndManagementPort :
    let W : Warden := { power := true, aon := BitVec.ofNat 64 (2 ^ 62), sensors := [(40, 1400), (46, 700), (47, 1000)], hotSince := some 0, coolantHot := false }
    0 + 1000000000 ≤ now { wdn := W } ∧ W.power = true ∧ (∃ a, tget W.sensors 46 = some a ∧ 16 * 40 < a) ∧
      ((W.sensors.filter (fun e => decide (40 ≤ e.1) && decide (e.1 ≤ 43))).map (fun e => e.2) = [1400]) ∧ (BitVec.ofNat 8 0xA5).toNat = 0xA5 := by
  refine ⟨by decide +kernel, rfl, ⟨700, rfl, by decide⟩, by decide +kernel, by decide +kernel⟩

/-- A REG_READ (or REG_WRITE of a value) on queue 1, which has expert enablement. -/
def regCmd (w a v : Nat) : Cmd := cmdOf 0 (ent [(0, 1, 9 + w), (24, 4, a), (28, 4, v)])
def regHost (c : Cmd) : Hw := let h := hosted c {}
  { h with host := { h.host with queues := [(0, { configured := true, expert := true })] } }
theorem witness_RegisterReads :
    let d := fun (a : Nat) (row : RegRow) => Due (regHost (regCmd 0 a 0)) 0 0 (fun c => isRegRead c && readRow c.reg == row) (regCmd 0 a 0)
    d 0x320 .reg ∧ d 0x100 .aonLo ∧ d 0x10008 .rc ∧ (queueOf (regHost (regCmd 0 0 0)) 0).expert = true ∧ (regCmd 0 0x320 0).zeros [(4, 4), (16, 4), (28, 36)] = true ∧
      csrReserved 0x320 = false ∧ csrReserved 0x10008 = false ∧ csrGranted (regHost (regCmd 0 0 0)) 0x320 = true ∧ csrGranted { wing := [(0, { sleep := 2 })] } 0x100000 = false ∧
      csrAsleep { wing := [(0, { sleep := 0 })] } 0x100000 = false := by and_intros <;> decide +kernel
theorem witness_RegisterWrites :
    let d := fun (a v : Nat) (row : RegRow) => Due (regHost (regCmd 1 a v)) 0 0 (fun c => isRegWrite c && writeRow (regHost (regCmd 1 a v)) c.reg c.regVal == row) (regCmd 1 a v)
    d 0x310 0 .reg ∧ d 0x320 4 .opPoint ∧ d 0x100040 1 .perfClr ∧ d 0x100010 1 .bypass ∧ d 0x100408 2 .retire ∧ d 0x100408 4 .restore ∧ d 0x90008 64 .chanRetire ∧
      d 0x9000C 128 .wmcLoop ∧ d 0x10000 2 .hluRetrain ∧ d 0x20004 4 .flDisable ∧ d 0x20004 1 .flLoop ∧ d 0x200014 1 .lndLink ∧ d 0x200014 4 .lndPad ∧ d 0x200400 1 .rawOwn ∧
      d 0xA0100 (2 ^ 31) .chkWrite ∧ d 0xA0100 (2 ^ 30) .chkRead ∧ (regCmd 1 0x320 4).zeros [(4, 4), (16, 4), (32, 32)] = true ∧ 49 ≤ (chansUp {}).length := by
  and_intros <;> decide +kernel

def tapped (gate : Bool) : Hw := { wdn := { power := true }, dbg := { trst := false, gate } }
theorem witness_TestAccessPort :
    ((tapped true).wdn.power = true ∧ (tapped true).dbg.trst = false ∧ (tapped true).dbg.gate = true) ∧ (tapped false).dbg.lockUntil ≤ now (tapped false) ∧
      csrOk 0x100 = true ∧ csrOk 0x102 = false ∧ csrGranted (tapped true) 0x100 = true ∧ dieDead (tapped true) 0 = false ∧
      debugOverlay { part := [(0, { inEff := { valid := true, wings := 1 }, ovl := { ty := 8 } })] } 0 = true := by and_intros <;> decide +kernel
theorem witness_SerialUnlocks : (∃ v : BitVec 128, v.toNat = serialNo (tapped false)) ∧ (∃ v : BitVec 128, v.toNat ≠ serialNo (tapped false)) := by
  have e : serialNo (tapped false) = Config.serial.toNat := rfl
  refine ⟨⟨Config.serial, e.symm⟩, ?_⟩
  by_cases h : Config.serial = 0
  · exact ⟨1, by rw [e, h]; decide⟩
  · exact ⟨0, fun x => h (BitVec.eq_of_toNat_eq (x.trans e).symm)⟩

end Sys2Proof.Tests
end

section
/-!
The scope of the module (00 R5): a command stops exactly when a unit that it numbers is none of the module's.
-/
namespace Sys2Proof.Machine

/-- Settles O4: every command is an action that runs exactly when its units exist (`exec_act`). -/
theorem stopsOnlyOffUnits : Obligations.StopsOnlyOffUnits := by
  intro c s
  obtain ⟨f, e⟩ := exec_act c
  rw [e s]
  split
  · next w => exact ⟨_, act_next w⟩
  · next w => exact act_fault (Bool.eq_false_iff.2 w)

end Sys2Proof.Machine
end

section
/-!
Admin commands (18 R468, R472 to R475; 15 R426): what each answers and sets, and the fields it refuses.
-/
namespace Sys2Proof.Machine

/-! ## Entries whose rule checks their fields first (18 R486) -/

section
variable {c : Cmd} {ok : Bool} {f : Hw → Hw} {h : Hw}

theorem needFields_of (e : ok = true) : needFields c ok f h = f h := if_pos e
theorem needFields_not (e : ok ≠ true) : needFields c ok f h = endCmd c.id stInvalidField h := if_neg e
end

section
variable {q slot : Nat} {mine : Cmd → Bool} {body : Cmd → Hw → Hw} {c : Cmd} {s : State} {P : Prop} {f : Hw → Hw}

/-- An entry whose rule here checks its fields first: INVALID_FIELD when they are out of range, else what the rest of the rule does. -/
theorem becomes_checked {ok : Bool} (d : Due s.hw q slot mine c) (e : body c (begun c s.hw) = needFields c ok f (begun c s.hw)) (p : ok = true ↔ P) :
    (¬P → Becomes (act true (carry q slot mine body) s) s (endCmd c.id stInvalidField (begun c s.hw))) ∧
      (P → Becomes (act true (carry q slot mine body) s) s (f (begun c s.hw))) :=
  ⟨fun n => becomes_carry d (e.trans (needFields_not (mt p.1 n))), fun y => becomes_carry d (e.trans (needFields_of (p.2 y)))⟩

/-- An entry whose rule checks its fields first on every state. -/
theorem becomes_needFields {ok : Hw → Bool} {h1 : Hw} (d : Due s.hw q slot mine c) (e : ∀ h, body c h = needFields c (ok h) f h := by intro; rfl)
    (p : ok (begun c s.hw) = true ↔ P) (g : f (begun c s.hw) = h1 := by rfl) :
    (¬P → Becomes (act true (carry q slot mine body) s) s (endCmd c.id stInvalidField (begun c s.hw))) ∧
      (P → Becomes (act true (carry q slot mine body) s) s h1) :=
  g ▸ becomes_checked d (e _) p
end

/-! ## GET_LOG (18 R474) -/

/-- The fields of a GET_LOG are in range: only the tally log takes a queue and a tag. -/
def LogFields (c : Cmd) : Prop :=
  c.zeros [(4, 4), (32, 32)] = true ∧ (c.fld 24 1 = 4 ∨ c.zeros [(25, 3)] = true) ∧ 1 ≤ c.fld 24 1 ∧ c.fld 24 1 ≤ 5

/-- A log's bytes from OFFSET on written to the host's buffer. -/
def giveLog (c : Cmd) (data : Nat) (h : Hw) : Hw := endCmd c.id stOk (hostWrite c.addr c.dataLen (data / 256 ^ c.fld 28 4) h)

section
variable {c : Cmd} {h : Hw}

theorem logFields_iff : (c.zeros [(4, 4), (32, 32)] && (c.fld 24 1 == 4 || c.zeros [(25, 3)]) && decide (1 ≤ c.fld 24 1) &&
    decide (c.fld 24 1 ≤ 5)) = true ↔ LogFields c := by
  simp [LogFields, and_assoc]

theorem getLog_invalid (n : ¬LogFields c) : getLog c h = endCmd c.id stInvalidField h := by
  unfold getLog; exact needFields_not (mt logFields_iff.1 n)

variable (k : LogFields c)
include k

theorem getLog_events (e : c.fld 24 1 = 1) : getLog c h = giveLog c (packed 32 (h.ev.log.map (fun e => e.logBytes))) h := by
  unfold getLog; rw [needFields_of (logFields_iff.2 k), e]; rfl
theorem getLog_health (e : c.fld 24 1 = 2) :
    getLog c h = giveLog c (healthLog (freeVal 512 h).2 (freeVal 512 h).1.toNat) (freeVal 512 h).2 := by
  unfold getLog; rw [needFields_of (logFields_iff.2 k), e]; rfl
theorem getLog_errors (e : c.fld 24 1 = 3) :
    getLog c h = giveLog c (packed 776 ((List.range 6).map (fun t => errLogBytes (tgetD h.diu.logs t {})))) h := by
  unfold getLog; rw [needFields_of (logFields_iff.2 k), e]; rfl
theorem getLog_firmware (e : c.fld 24 1 = 5) : getLog c h = giveLog c (firmwareLog h) h := by
  unfold getLog; rw [needFields_of (logFields_iff.2 k), e]; rfl
theorem getLog_tally {r : Tally} (e : c.fld 24 1 = 4)
    (x : h.host.tallies.reverse.find? (fun x => x.q = c.fld 25 1 && x.cid = c.fld 26 2) = some r) : getLog c h = giveLog c r.bytes h := by
  unfold getLog; rw [needFields_of (logFields_iff.2 k), e]; simp only [x]; rfl
theorem getLog_noTally (e : c.fld 24 1 = 4)
    (x : h.host.tallies.reverse.find? (fun x => x.q = c.fld 25 1 && x.cid = c.fld 26 2) = none) : getLog c h = endCmd c.id stNoRecord h := by
  unfold getLog; rw [needFields_of (logFields_iff.2 k), e]; simp only [x]
end

/-! ## GET_FEATURE (18 R472, R473) -/

/-- The features of up to 24 bytes, which RESULT returns: their numbers and values. -/
def smallFeatures (h : Hw) : List (Nat × Nat) :=
  [(0x03, h.ev.mask.toNat), (0x10, h.wdn.cap.getD 0), (0x11, sleepWord h.wdn), (0x50, h.ffu.id),
    (0x40, bytesOf ([(0, 1, h.boot.rec0.ovl), (1, 1, h.boot.modOverlay)] ++ (List.range 8).map (fun k => (2 + k, 1, ovType h k))))]

/-- The fields of a GET_FEATURE that writes a structure are in range, beside the feature's own condition. -/
def largeOk (c : Cmd) (ok : Bool) : Bool := c.zeros [(4, 4), (26, 6), (36, 28)] && ok

section
variable {c : Cmd} {h : Hw}

theorem getFeature_small {v : Nat} (m : (c.fld 24 1, v) ∈ smallFeatures h) :
    getFeature c h = needFields c (featOk c 0 false) (finishCmd c.id { status := stOk, result := v }) h := by
  simp only [smallFeatures, List.mem_cons, Prod.mk.injEq, List.not_mem_nil, or_false] at m
  unfold getFeature
  rcases m with ⟨e, rfl⟩ | ⟨e, rfl⟩ | ⟨e, rfl⟩ | ⟨e, rfl⟩ | ⟨e, rfl⟩ <;> (rw [e]; rfl)

theorem getFeature_queue (e : c.fld 24 1 = 0x01) (y : (queueOf h (c.fld 25 1)).configured = true) : let Q := queueOf h (c.fld 25 1)
    getFeature c h = needFields c (largeOk c (c.fld 32 4 == 0))
      (writeStruct c 32 (bytesOf [(1, 1, c.fld 25 1), (2, 2, Q.depth), (4, 2, Q.limit), (8, 8, Q.base)])) h := by
  unfold getFeature; rw [e]; simp only [y, if_true]; rfl
theorem getFeature_noQueue (e : c.fld 24 1 = 0x01) (y : (queueOf h (c.fld 25 1)).configured = false) : let x := (freeVal 80 h).1.toNat
    getFeature c h = needFields c (largeOk c (c.fld 32 4 == 0))
      (writeStruct c 32 (bytesOf [(1, 1, c.fld 25 1), (2, 2, x), (8, 8, x / 2 ^ 16)])) (freeVal 80 h).2 := by
  unfold getFeature; rw [e]; simp only [y, Bool.false_eq_true, if_false]; rfl
theorem getFeature_partition (e : c.fld 24 1 = 0x20) : getFeature c h = needFields c (largeOk c (c.fld 32 4 == 0 && decide (c.fld 25 1 < 8)))
    (writeStruct c 256 ((part h (c.fld 25 1)).stored.bytes + 256 ^ 128 * (part h (c.fld 25 1)).inEff.bytes)) h := by
  unfold getFeature; rw [e]; rfl
theorem getFeature_volume {V : Volume} (e : c.fld 24 1 = 0x30) (y : volume h (c.fld 32 4) = some V) :
    getFeature c h = needFields c (largeOk c (c.fld 25 1 == 0)) (writeStruct c 32 (V.bytes (c.fld 32 4))) h := by
  unfold getFeature; rw [e]; simp only [y]; rfl
theorem getFeature_noVolume (e : c.fld 24 1 = 0x30) (y : volume h (c.fld 32 4) = none) : getFeature c h = endCmd c.id stInvalidField h := by
  unfold getFeature; rw [e]; simp only [y]
theorem getFeature_unknown (e : c.fld 24 1 ∉ [0x01, 0x03, 0x10, 0x11, 0x20, 0x30, 0x40, 0x50]) : getFeature c h = endCmd c.id stInvalidField h := by
  unfold getFeature
  split <;> simp_all
end

/-! ## SANITIZE (15 R426) -/

/-- The hardware once a SANITIZE START has been taken: data and job commands are refused and jobs cancelled. -/
def sanitizing (c : Cmd) (h : Hw) : Hw :=
  cancelAll { modMdm (fun M => { M with san := { M.san with waiting := some c.id } }) h with host := { h.host with sanitize := true } }

/-- The command waits while a data or job command that had started has not ended or a job is resident; else its record is durable. -/
def sanitizeFinish (c : Cmd) (h : Hw) : Hw :=
  if h.host.cmds.any (fun x => (dataOp x.opcode || jobOp x.opcode) && x.started && x.comp.isNone)
    || (List.range 32).any (fun x => (ctx h x).st != .free && (ctx h x).st != .loaded) then h
  else endCmd c.id stOk (modMdm (fun M => { M with san := { state := 1, durable := true } }) h)

theorem sanitizeStart_durable {c : Cmd} {h : Hw} (y : h.mdm.san.durable = true) : sanitizeStart c h = endCmd c.id stSanitize h := if_pos y

/-- A SANITIZE START whose turn it is checks its fields, and completes once nothing that had started is left. -/
theorem sanitizeStart_turn {c : Cmd} {h : Hw} (n : h.mdm.san.durable = false) (w : h.mdm.san.waiting = none ∨ h.mdm.san.waiting = some c.id) :
    sanitizeStart c h = needFields c (c.zeros [(4, 4), (16, 4), (24, 40)]) (fun h => sanitizeFinish c (sanitizing c h)) h := by
  have turn : h.mdm.san.waiting.any (fun w => w != c.id) = false := by rcases w with w | w <;> simp [w]
  unfold sanitizeStart sanitizing sanitizeFinish
  rw [if_neg (by simp [n]), if_neg (by simp [turn])]

/-! ## The admin commands -/

/-- Settles O51: each command's rule, field by field. -/
theorem adminCommands : Obligations.AdminCommands := by
  intro q slot c s
  refine ⟨fun d => ?identify, fun d => ?getLog, fun d => ?getFeature, fun d => ?queueCreate, fun d => ?queueDelete, fun d => ?expert,
    fun d => ?eventMask, fun d => ?powerCap, fun d => ?sleepPolicy, fun d => ?errorLogClear, fun d => ?moduleId, fun d => ?sanitizeStart,
    fun d => ?sanitizeStatus⟩
  case identify => exact becomes_needFields d (p := by rfl)
  case getLog =>
    exact ⟨fun n => becomes_carry d (getLog_invalid n), fun k => ⟨fun e => becomes_carry d (getLog_events k e),
      fun e => becomes_carry d (getLog_health k e), fun e => becomes_carry d (getLog_errors k e),
      fun r e x => becomes_carry d (getLog_tally k e x), fun e x => becomes_carry d (getLog_noTally k e x),
      fun e => becomes_carry d (getLog_firmware k e)⟩⟩
  case getFeature =>
    refine ⟨fun i n m e => ?small, fun e y => ?queue, fun e y k => ?noQueue, fun e => ?partition, fun V e y => ?volume, fun e y => ?noVolume,
      fun e => ?unknown⟩
    case small => exact becomes_checked d (getFeature_small (e ▸ m)) Iff.rfl
    case queue => exact becomes_checked d (getFeature_queue e y) (by simp [largeOk])
    case noQueue => exact becomes_carry d ((getFeature_noQueue (h := begun c s.hw) e y).trans (needFields_of (by simpa [largeOk] using k)))
    case partition => exact becomes_checked d (getFeature_partition e) (by simp [largeOk])
    case volume => exact becomes_checked d (getFeature_volume e y) (by simp [largeOk])
    case noVolume => exact becomes_carry d (getFeature_noVolume e y)
    case unknown => exact becomes_carry d (getFeature_unknown e)
  case queueCreate => exact becomes_needFields d (p := by simp [and_assoc])
  case queueDelete => exact becomes_needFields d (p := by simp [and_assoc])
  case expert => exact becomes_needFields d (p := by rfl)
  case eventMask => exact becomes_needFields d (p := by rfl)
  case powerCap => exact becomes_needFields d (p := by simp)
  case sleepPolicy => exact becomes_needFields d (p := by rfl)
  case errorLogClear => exact becomes_needFields d (p := by simp)
  case moduleId => exact becomes_needFields d (p := by simp)
  case sanitizeStart =>
    refine ⟨fun y => becomes_carry d (sanitizeStart_durable y), fun n w => ?_⟩
    intro h1
    have b := becomes_checked d (sanitizeStart_turn (h := begun c s.hw) n w) Iff.rfl
    rw [show sanitizing c (begun c s.hw) = h1 from rfl] at b
    -- what `cancelAll` does is of no account from here on
    clear_value h1
    simp only [sanitizeFinish, Bool.or_eq_true] at b
    exact b
  case sanitizeStatus => exact becomes_needFields d (p := by rfl)

end Sys2Proof.Machine
end

section
/-!
REG_READ and REG_WRITE (01 R25, R26; 18 R475; 22 R556, R557): the checks that every access meets, the rows that name a register, and what the writes with
effects of their own do.
-/
namespace Sys2Proof.Machine

/-! ## What an access answers -/

/-- The reserved fields of a register command are 0 and its address is one that is carried out (R25). -/
def RegFields (write : Bool) (c : Cmd) : Prop :=
  c.zeros [(4, 4), (16, 4), if write then (32, 32) else (28, 36)] = true ∧ c.reg % 4 = 0 ∧ csrReserved c.reg = false

/-- The access itself, once the block's grains are held. -/
def regDone (write : Bool) (bad : Nat) (c : Cmd) (h : Hw) : Hw :=
  if write then endCmd c.id stOk (csrWrite false bad c.reg c.regVal h)
  else finishCmd c.id { status := stOk, result := (csrRead c.reg h).1 } (csrRead c.reg h).2

section
variable {write : Bool} {bad : Nat} {c : Cmd} {h : Hw}

theorem regFields_iff : (c.zeros [(4, 4), (16, 4), if write then (32, 32) else (28, 36)] && csrOk c.reg) = true ↔ RegFields write c := by
  simp [RegFields, csrOk]

theorem regBody_denied (e : (queueOf h c.q).expert = false) : regBody write bad c h = endCmd c.id stNotPermitted h := by
  simp [regBody, e]
theorem regBody_expert (e : (queueOf h c.q).expert = true) : regBody write bad c h =
    needFields c (c.zeros [(4, 4), (16, 4), if write then (32, 32) else (28, 36)] && csrOk c.reg) (csrAccess c.reg (regDone write bad c)) h := by
  simp only [regBody, e, Bool.not_true, Bool.false_eq_true, if_false]; rfl

theorem csrAccess_asks {a : Nat} {f : Hw → Hw} (g : csrGranted h a = false) : csrAccess a f h = grainRequest (.csrWake a) 0 h := by
  simp [csrAccess, g]
theorem csrAccess_acts {a : Nat} {f : Hw → Hw} (g : csrGranted h a = true) : csrAccess a f h = f (if csrAsleep h a = true then csrRelease a h else h) :=
  if_pos g
end

/-- The four answers of a register command: not permitted, a field out of range, waiting for grains, the access. -/
theorem becomes_regBody {q slot bad : Nat} {write : Bool} {mine : Cmd → Bool} {c : Cmd} {s : State} {o : Host.Outcome State Fault Refusal}
    (d : Due s.hw q slot mine c) (e : o = act true (carry q slot mine (regBody write bad)) s) : let H := begun c s.hw; let own := (queueOf H c.q).expert
    (own = false → Becomes o s (endCmd c.id stNotPermitted H)) ∧ (own = true → ¬RegFields write c → Becomes o s (endCmd c.id stInvalidField H)) ∧
      (own = true → RegFields write c → csrGranted H c.reg = false → Becomes o s (grainRequest (.csrWake c.reg) 0 H)) ∧
      (own = true → RegFields write c → csrGranted H c.reg = true →
        Becomes o s (regDone write bad c (if csrAsleep H c.reg = true then csrRelease c.reg H else H))) := by
  subst e
  exact ⟨fun y => becomes_carry d (regBody_denied y),
    fun y n => becomes_carry d ((regBody_expert y).trans (needFields_not (mt regFields_iff.1 n))),
    fun y k g => becomes_carry d ((regBody_expert y).trans ((needFields_of (regFields_iff.2 k)).trans (csrAccess_asks g))),
    fun y k g => becomes_carry d ((regBody_expert y).trans ((needFields_of (regFields_iff.2 k)).trans (csrAccess_acts g)))⟩

/-! ## The rows of the table -/

/-- The commands that read a register, and the row each is of. -/
def readRows : List ((Nat → Nat → Instr) × RegRow) := [(.regRead, .reg), (.wdnAontimeLoRead, .aonLo), (.rcRead, .rc)]

/-- The commands that write a register, and the row each is of. -/
def writeRows : List ((Nat → Nat → Instr) × RegRow) :=
  [(.regWrite, .reg), (.wdnOppointTarget, .opPoint), (.galPerfClr, .perfClr), (.galBypassWrite, .bypass), (.wingRetire, .retire),
    (.wingRestore, .restore), (.wmcChanRetireGo, .chanRetire), (.hluLinkCtlRetrain, .hluRetrain), (.ffuFlDisable, .flDisable),
    (fun q t => .ffuFlLoop (some (q, t)) 0, .flLoop), (.lndLoopLink, .lndLink), (fun q t => .lndLoopPad (some (q, t)) 0 false 0, .lndPad),
    (.lndRawOwnWrite, .rawOwn), (.diuChkWrite, .chkWrite), (.diuChkRead, .chkRead)]

/-- Every command that reads a register is the one read, of its own row. -/
theorem exec_readRows (q slot : Nat) (s : State) : ∀ r ∈ readRows, exec (r.1 q slot) s = act true (regRead r.2 q slot) s := by
  simp only [readRows, List.forall_mem_cons]
  exact ⟨rfl, rfl, rfl, List.forall_mem_nil _⟩

/-- Every command that writes a register is the one write, of its own row. -/
theorem exec_writeRows (q slot : Nat) (s : State) : ∀ r ∈ writeRows, exec (r.1 q slot) s = act true (regWrite r.2 0 q slot) s := by
  simp only [writeRows, List.forall_mem_cons]
  exact ⟨rfl, rfl, rfl, rfl, rfl, rfl, rfl, rfl, rfl, rfl, rfl, rfl, rfl, rfl, rfl, List.forall_mem_nil _⟩

/-! ## Registers with effects of their own -/

section
variable (v bad : Nat) (h : Hw)

/-- WDN_AONTIME_LO: the low half of the counter; the high half is latched (02 R35). -/
theorem csrRead_aonLo : csrRead 0x100 h =
    (h.wdn.aon.toNat % 2 ^ 32, { h with wdn := { h.wdn with aonHi := BitVec.ofNat 32 (h.wdn.aon.toNat / 2 ^ 32) } }) := rfl

/-- WDN_OPPOINT with AUTO clear: the target is asked for unless it is the point in force (02 R37). -/
theorem csrWrite_opPoint (n : v.testBit 8 = false) : let t := min 2 (v / 4 % 4); csrWrite false bad 0x320 v h =
    { h with wdn := { h.wdn with opAuto := false, opFloor := v / 16 % 4, opTarget := t, opReq := if t = h.wdn.opCur then none else some t } } := by
  show writeWarden 0x320 v h = _
  simp only [writeWarden, n]
  rfl

/-- HLU_LINK_CTL.RETRAIN on a trained link (17 R452). -/
theorem csrWrite_hluRetrain (y : v.testBit 1 = true) (k : h.host.link.coeffs = true) (t : 2 ≤ h.host.link.state) : csrWrite false bad 0x10000 v h =
    { h with host := { h.host with link := { h.host.link with listenEn := v.testBit 0, retrainReq := true, state := 5 } } } := by
  show writeHlu false 0 v h = _
  simp [writeHlu, modLink, y, k, t]

/-- WMC_CHAN_RETIRE.GO while at least 48 channels stay (13 R363). -/
theorem csrWrite_chanRetire (y : v.testBit 6 = true) (k : 49 ≤ (chansUp h).length) :
    csrWrite false bad 0x90008 v h = loseChan (v % 64) { h with wmc := { h.wmc with retireSel := v % 64 } } := by
  have sel : bitsOf v 0 6 = v % 64 := by simp [bitsOf]
  have up : chansUp (modWmc (fun W => { W with retireSel := v % 64 }) h) = chansUp h := rfl
  show writeWmc bad 8 v h = _
  simp only [writeWmc, sel, up, y, k, decide_true, Bool.and_self, if_true]
  rfl

/-- An address in a gallery's window reaches that gallery's registers (01 R24). -/
theorem csrWrite_gal {a g o : Nat} (e : a = 0x100000 + 0x1000 * g + o) (hg : g < 96) (ho : o < 0x1000) :
    csrWrite false bad a v h = writeGal g o v h := by
  have hi : (a - 0x100000) / 0x1000 = g := by omega
  have lo : a % 0x1000 = o := by omega
  unfold csrWrite
  iterate 9 rw [if_neg (by omega)]
  rw [if_pos (by omega), hi, lo]

/-- An address in a landing's window reaches that landing's registers. -/
theorem csrWrite_lnd {a l o : Nat} (e : a = 0x200000 + 0x10000 * l + o) (ho : o < 0x10000) : csrWrite false bad a v h = writeLnd l o v h := by
  have hi : (a - 0x200000) / 0x10000 = l := by omega
  have lo : a % 0x10000 = o := by omega
  unfold csrWrite
  iterate 11 rw [if_neg (by omega)]
  rw [hi, lo]

/-- FFU_FL_CTL of a flight. -/
theorem csrWrite_flight {f : Nat} (hf : f < 64) : csrWrite false bad (0x20004 + 0x400 * f) v h = flightCtl f v h := by
  have number : (0x20004 + 0x400 * f - 0x20000) / 0x400 = f := by omega
  unfold csrWrite writeFfu
  rw [if_neg (by omega), if_neg (by omega), if_pos (by omega), if_pos (by omega), if_pos (by omega), number]
end

theorem writeGal_perfClr {g v : Nat} {h : Hw} (y : v.testBit 0 = true) :
    writeGal g 0x40 v h = modGal h g (fun G => { G with perfRows := 0, perfBusy := 0, perfStream := 0, perfRevoke := 0 }) := by
  simp [writeGal, idx, writeProgram, y]
theorem writeGal_wing {g v : Nat} {h : Hw} :
    writeGal g 0x408 v h = modWing h (g / 8) (fun W => { W with restore := W.restore || v.testBit 2, retire := W.retire || v.testBit 1 }) := rfl
theorem writeLnd_rawOwn {l v : Nat} {h : Hw} : writeLnd l 0x400 v h = rawOwn l v h := rfl
theorem writeLnd_loop {l v : Nat} {h : Hw} : writeLnd l 0x14 v h = landingLoop l v h := rfl

/-! ## Loop-backs, channel settings and timeouts -/

section
variable {h : Hw}

theorem flightLoopEnter_idle {f : Nat} (e : (flight h f).loopAt = none) : flightLoopEnter f h = h := by
  simp [flightLoopEnter, e]
theorem flightLoopEnter_waits {f t : Nat} (e : (flight h f).loopAt = some t) (r : (flight h f).replay ≠ []) (l : now h < t + 10000) :
    flightLoopEnter f h = h := by
  simp [flightLoopEnter, e, r, l]
theorem flightLoopEnter_enters {f t : Nat} (e : (flight h f).loopAt = some t) (r : (flight h f).replay = [] ∨ t + 10000 ≤ now h) :
    flightLoopEnter f h = (flight h f).replay.foldl (fun h r => if pktClass r.2.ty = 0 ∨ pktClass r.2.ty = 2 then reply r.2 0x83 0 2 h else h)
      (modFlight f (fun y => { y with replay := [], used := [], loopAt := none }) h) := by
  have go : (!(flight h f).replay.isEmpty && decide (now h < t + 10000)) = false := by
    rcases r with r | r
    · simp [r]
    · simp [Nat.not_lt.2 r]
  unfold flightLoopEnter
  simp only [e, go, Bool.false_eq_true, if_false]

theorem padReport_off {k errs : Nat} {sync : Bool} (e : (landing h (k / 4)).loopPad.getLsbD (k % 4) = false) : padReport k sync errs h = h := by
  simp [padReport, e]
theorem padReport_on {k errs : Nat} {sync : Bool} (e : (landing h (k / 4)).loopPad.getLsbD (k % 4) = true) :
    padReport k sync errs h = modFchan k (fun x => { x with padSync := sync, padErrs := satAdd 8 x.padErrs errs }) h := by
  simp [padReport, e]

theorem chanApply_busy {k : Nat} (e : h.flash.ops.any (fun o => o.die / 8 = k && o.kind = .read && o.isRunning) = true) : chanApply k h = h :=
  if_pos e
theorem chanApply_idle {k : Nat} (e : h.flash.ops.any (fun o => o.die / 8 = k && o.kind = .read && o.isRunning) = false) :
    chanApply k h = modFchan k (fun x => { x with vccqAct := x.vccq, rateAct := x.rate, rlatAct := x.rlat, rpreAct := x.rpre }) h :=
  if_neg (by simp [e])

/-- The wait of an access for its grains, if it waits, has not lasted 10 ms. -/
def NotLate (h : Hw) (a : Nat) : Prop := ∀ t, csrSince h a = some t → now h < t + 1000000

theorem wakeTimeout_entry {q slot : Nat} {x : Cmd} (f : findCmd h q slot = some x) (r : (isRegRead x || isRegWrite x) = true) (b : x.started = true) :
    (NotLate h x.reg → wakeTimeout (some (q, slot)) h = h) ∧
      ∀ t, csrSince h x.reg = some t → t + 1000000 ≤ now h → wakeTimeout (some (q, slot)) h = endCmd x.id stBusy (csrRelease x.reg h) := by
  simp only [wakeTimeout, f, r, b, Bool.true_and]
  refine ⟨fun n => ?_, fun t e l => ?_⟩
  · cases e : csrSince h x.reg with
    | none => simp
    | some t => simp [Nat.not_le.2 (n t e)]
  · simp [e, l]

theorem setAcct_dbg (a : Nat) (x : Account) : (setAcct h a x).dbg = h.dbg := by
  unfold setAcct
  split
  · rfl
  · split <;> rfl
/-- Releasing an access's grains touches the ledger alone. -/
theorem csrRelease_dbg (a : Nat) : (csrRelease a h).dbg = h.dbg := setAcct_dbg ..

theorem wakeTimeout_debug {k t : Nat} (w : h.dbg.wake = some k) (e : csrSince h k = some t) :
    (now h < t + 1000000 → wakeTimeout none h = h) ∧ (t + 1000000 ≤ now h → wakeTimeout none h =
      { csrRelease k h with dbg := { (csrRelease k h).dbg with wake := none, data := 0, err := true } }) := by
  simp only [wakeTimeout, w, e, decide_eq_true_eq, csrRelease_dbg]
  exact ⟨fun l => if_neg (Nat.not_le.2 l), fun l => if_pos l⟩
end

/-- Settles O59: the rows share one read and one write (`becomes_regBody`); then each register with an effect of its own. -/
theorem registerAccesses : Obligations.RegisterAccesses := by
  intro q slot c s
  refine ⟨fun mk row m d => ?reads, fun mk row m d => ?writes, fun bad d => ?wmcLoop, csrRead_aonLo _, fun v => ?effects, fun f hf => ?flightLoop,
    fun k sync errs hk => ?padLoop, fun k hk => ?channel, fun x f r b => ?entryTimeout, fun k t w e => ?debugTimeout⟩
  case reads => exact becomes_regBody (write := false) d (exec_readRows q slot s _ m)
  case writes => exact becomes_regBody (write := true) d (exec_writeRows q slot s _ m)
  case wmcLoop => exact becomes_regBody (write := true) d rfl
  case effects =>
    exact ⟨csrWrite_opPoint v 0 _, csrWrite_hluRetrain v 0 _, csrWrite_chanRetire v 0 _,
      fun g hg y => (csrWrite_gal v 0 _ (o := 0x40) (by omega) hg (by decide)).trans (writeGal_perfClr y),
      fun g hg => (csrWrite_gal v 0 _ (o := 0x408) (by omega) hg (by decide)).trans writeGal_wing,
      fun l _ => ⟨(csrWrite_lnd v 0 _ (o := 0x400) (by omega) (by decide)).trans writeLnd_rawOwn,
        (csrWrite_lnd v 0 _ (o := 0x14) (by omega) (by decide)).trans writeLnd_loop⟩,
      fun f hf => csrWrite_flight v 0 _ hf⟩
  case flightLoop =>
    have ok : decide (f < 64) = true := decide_eq_true hf
    exact ⟨fun e => becomes_of ok (flightLoopEnter_idle e), fun t e r l => becomes_of ok (flightLoopEnter_waits e r l),
      fun t e r => becomes_of ok (flightLoopEnter_enters e r)⟩
  case padLoop =>
    have ok : decide (k < 64) = true := decide_eq_true hk
    exact ⟨fun e => becomes_of ok (padReport_off e), fun e => becomes_of ok (padReport_on e)⟩
  case channel =>
    have ok : decide (k < 64) = true := decide_eq_true hk
    exact ⟨fun e => becomes_of ok (chanApply_busy e), fun e => becomes_of ok (chanApply_idle e)⟩
  case entryTimeout =>
    obtain ⟨stays, ends⟩ := wakeTimeout_entry f r b
    refine ⟨fun t e => ⟨fun l => becomes_of rfl (stays fun u eu => ?_), fun l => becomes_of rfl (ends t e l)⟩,
      fun e => becomes_of rfl (stays fun u eu => ?_)⟩
    · exact Option.some.inj (e.symm.trans eu) ▸ l
    · exact nomatch e.symm.trans eu
  case debugTimeout =>
    obtain ⟨stays, ends⟩ := wakeTimeout_debug w e
    exact ⟨fun l => becomes_of rfl (stays l), fun l => becomes_of rfl (ends l)⟩

end Sys2Proof.Machine
end

section
/-!
Sleep of the whole module and waking (01 R20, R22; 02 R39 to R41; 07 R212; 17 R453, R454; 19 R500): S3_ENTRY, S4_ENTRY, WAKE_TRIGGER and
DOMAIN_WAKE_DONE, each as what it makes of the hardware once nothing holds it back.
-/
namespace Sys2Proof.Machine

/-! ## Entry to S3 and S4 (02 R39, R41) -/

/-- What S3_ENTRY asks for (02 R39): a ready module in S0 whose policy takes S3, every wing long in S2, and no work of any block. -/
structure QuietForS3 (h : Hw) : Prop where
  ready : h.wdn.ready = true
  active : h.wdn.modState = 0
  enabled : h.wdn.s3en = true
  network : h.ffu.awake = false ∨ assigned h = false
  wings : wingsDeep h = true
  commands : h.host.cmds = []
  scans : ∀ x ∈ h.probe.scans, x.ended = true
  media : mdmBusy h = false
  packets : h.ffu.wait = []
  replays : ∀ e ∈ h.ffu.flights, e.2.replay = []

/-- Each working-memory channel in state `a` goes to state `b`: 0 in use, 1 in self-refresh. -/
def moveChans (a b : Nat) (h : Hw) : Hw :=
  (List.range 64).foldl (fun h c => if (chan h c).state = a then modChan c (fun x => { x with state := b }) h else h) h

/-- A flight that is up and carries no traffic goes to low power and keeps 0.2 grains (19 R500). -/
def restFlights (h : Hw) : Hw :=
  (List.range 64).foldl (fun h f => if (flight h f).state = 2 && (flight h f).replay.isEmpty then
      modWdn (fun w => { w with vserdes := w.vserdes.lower (.flight f) 2 }) (stateChanged f (modFlight f (fun x => { x with state := 3 }) h))
    else h) h

section
variable {h : Hw}

theorem s3Entry_quiet (q : QuietForS3 h) : s3Entry h =
    toListen (dropGrants [.netBase, .hlu, .ffu, .probe] (modWdn (fun w => { w with
      modState := 3, modSince := now (moveChans 0 1 h), waking := false, pllNet := false, pllDram := false }) (moveChans 0 1 h))) := by
  obtain ⟨ready, active, enabled, network, wings, commands, scans, media, packets, replays⟩ := q
  have network : (h.ffu.awake && assigned h) = false := by rcases network with n | n <;> simp [n]
  have scans : h.probe.scans.any (fun x => !x.ended) = false := by simpa using scans
  have replays : h.ffu.flights.any (fun e => !e.2.replay.isEmpty) = false := by simpa using replays
  exact if_neg (by simp only [ready, active, enabled, network, wings, commands, scans, media, packets, replays]; decide)

theorem s4Entry_due (m : h.wdn.modState = 3) (w : h.wdn.waking = false) (e : h.wdn.s4en = true)
    (t : h.wdn.modSince + 100000000 * h.wdn.s4idle ≤ now h) : s4Entry h =
    dropGrants (.flashStanding :: (List.range 16).map .landing)
      (modWdn (fun W => { W with modState := 4, modSince := now (restFlights h), pllLanding := 0 }) (restFlights h)) :=
  if_neg (by simp [m, w, e, Nat.not_lt.2 t])
end

/-! ## Waking a wing (02 R39, R40; 07 R212) -/

/-- The stationary sets of the running context of each of the wing's galleries, reloaded. -/
def reloadWing (k : Nat) (h : Hw) : Hw :=
  (List.range 8).foldl (fun h i =>
    match galPart h (8 * k + i) with
    | none => h
    | some p => match (part h p).running with
      | some c => reloadSets (4 * p + c) (8 * k + i) h
      | none => h) h

/-- The wing runs from now on. -/
def wingAwake (k : Nat) (h : Hw) : Hw := modWing h k (fun V => { V with sleep := 0, since := now h, waking := false })

section
variable {h : Hw} {k : Nat} (hk : k < 12)
include hk

theorem wakeTrigger_wing (sleeps : (wing h k).sleep ≠ 0) (still : (wing h k).waking = false) (kept : (wing h k).retired = false)
    (active : h.wdn.modState = 0) (run : wingRunnable h k = true) :
    wakeTrigger k h = modWing h k (fun V => { V with waking := true, since := now h }) := by
  unfold wakeTrigger
  rw [if_pos hk, if_neg (by simp [sleeps, still, kept, active, run])]

theorem wakeDone_fromS1 (wakes : (wing h k).waking = true) (s1 : (wing h k).sleep = 1) (due : (wing h k).since + 20 ≤ now h) :
    wakeDone k h = wingAwake k h := by
  unfold wakeDone
  rw [if_pos hk, if_neg (by simp [wakes, s1, Nat.not_lt.2 due]), if_pos s1]
  rfl

theorem wakeDone_fromS2 (wakes : (wing h k).waking = true) (s2 : (wing h k).sleep = 2) (due : (wing h k).since + 4000 ≤ now h) :
    wakeDone k h = reloadWing k (wingAwake k h) := by
  unfold wakeDone
  rw [if_pos hk, if_neg (by simp [wakes, s2, Nat.not_lt.2 due]), if_neg (by simp [s2])]
  rfl
end

/-! ## Waking the module (02 R40, R41; 17 R454) -/

/-- The module waits for its wake latency from now on. -/
def modWaking (h : Hw) : Hw := { h with wdn := { h.wdn with waking := true, modSince := now h } }

section
variable {h : Hw}

theorem wakeTrigger_module (sleeps : h.wdn.modState ≠ 0) (still : h.wdn.waking = false) : wakeTrigger 12 h =
    if h.host.link.state = 3 then
      grainRequest .hostPhy 0 { modWaking h with host := { h.host with link := { h.host.link with state := 4 } } }
    else modWaking h := by
  unfold wakeTrigger
  rw [if_neg (by decide), if_neg (by simp [sleeps, still])]
  rfl

theorem wakeDone_module (wakes : h.wdn.waking = true) (due : h.wdn.modSince + (if h.wdn.modState = 3 then 60000 else 500000) ≤ now h) :
    wakeDone 12 h = modWdn (fun W => { W with modState := 0, modSince := now (moveChans 1 0 h), waking := false }) (moveChans 1 0 h) := by
  unfold wakeDone
  rw [if_neg (by decide), if_neg (by simp [wakes, Nat.not_lt.2 due])]
  rfl
end

/-- Settles O35: the entries to S3 and S4, then a trigger and the end of a wake, of a wing and of the module. -/
theorem moduleSleepAndWaking : Obligations.ModuleSleepAndWaking := by
  intro s
  refine ⟨fun ready active enabled network wings commands scans media packets replays => ?s3, fun inS3 still enabled due => ?s4, fun k hk => ?wing,
    fun sleeps still => ?moduleTrigger, fun wakes due => ?moduleAwake⟩
  -- each side is spelled out first: a check by unfolding would run the folds over the 64 channels and flights
  case s3 =>
    have quiet : QuietForS3 s.hw := ⟨ready, active, enabled, network, wings, commands, scans, media, packets, replays⟩
    exact becomes_of rfl (by simpa only [moveChans, modWdn] using s3Entry_quiet quiet)
  case s4 => exact becomes_of rfl (by simpa only [restFlights, modWdn] using s4Entry_due inS3 still enabled due)
  case wing =>
    have ok : decide (k < 13) = true := decide_eq_true (by omega)
    exact ⟨fun sleeps still kept active run => becomes_of ok (wakeTrigger_wing hk sleeps still kept active run),
      fun wakes s1 due => becomes_of ok (wakeDone_fromS1 hk wakes s1 due), fun wakes s2 due => becomes_of ok (wakeDone_fromS2 hk wakes s2 due)⟩
  case moduleTrigger =>
    have e := wakeTrigger_module sleeps still
    exact ⟨fun up => becomes_of rfl (e.trans (if_neg up)), fun listens => becomes_of rfl (e.trans (if_pos listens))⟩
  case moduleAwake => exact becomes_of rfl (by simpa only [moveChans, modWdn] using wakeDone_module wakes due)

end Sys2Proof.Machine
end

section
/-!
The rules of the grain ledger (02 R42 to R59): what an account holds after a grant is replaced or lowered, and what each change of the ledger
leaves of the module.
-/
namespace Sys2Proof.Machine

/-- A command on units that exist, by what it makes of the hardware. -/
theorem yields_of {ok : Bool} {f : Hw → Hw} {s : State} {P : Hw → Prop} (h : ok = true) (p : P (f s.hw)) : Yields (act ok f s) s P :=
  ⟨_, act_next h, rfl, p⟩

/-! ## What an account holds (R42, R43) -/

/-- What the grants of a list come to. -/
def total (l : List Grant) : Nat := (l.map Grant.amt).sum

theorem foldl_amt (l : List Grant) (n : Nat) : l.foldl (fun n g => n + g.amt) n = n + total l := by
  induction l generalizing n with
  | nil => rfl
  | cons g r ih => rw [List.foldl_cons, ih]; simp only [total, List.map_cons, List.sum_cons]; omega

theorem total_append (l m : List Grant) : total (l ++ m) = total l + total m := by simp [total]

theorem sum_eq_total (x : Account) : x.sum = total x.held := by simp [Account.sum, foldl_amt]
theorem heldBy_eq_total (x : Account) (r : Requester) : x.heldBy r = total (x.held.filter (fun g => g.who == r)) := by
  simp [Account.heldBy, foldl_amt]

/-- The grants of one block and those of all others. -/
theorem total_split (l : List Grant) (r : Requester) :
    total (l.filter (fun g => g.who == r)) + total (l.filter (fun g => g.who != r)) = total l := by
  induction l with
  | nil => rfl
  | cons g l ih =>
    by_cases e : g.who = r <;> simp [total, e] at ih ⊢ <;> omega

theorem filter_others (l : List Grant) {r q : Requester} (e : q ≠ r) :
    (l.filter (fun g => g.who != r)).filter (fun g => g.who == q) = l.filter (fun g => g.who == q) := by
  rw [List.filter_filter]
  refine List.filter_congr fun g _ => ?_
  by_cases k : g.who = q <;> simp [k, e]

theorem filter_own (l : List Grant) (r : Requester) : (l.filter (fun g => g.who != r)).filter (fun g => g.who == r) = [] := by
  rw [List.filter_filter]; simp

section
variable {x y : Account}

/-- A block's grants given up: what each block holds. -/
theorem heldBy_dropped {r : Requester} (e : y.held = x.held.filter (fun k => k.who != r)) (q : Requester) :
    y.heldBy q = if q = r then 0 else x.heldBy q := by
  rw [heldBy_eq_total, heldBy_eq_total, e]
  split
  · next o => subst o; rw [filter_own]; rfl
  · next o => rw [filter_others _ o]

/-- A block's grants replaced by one: what each block holds. -/
theorem heldBy_replaced {g : Grant} (e : y.held = x.held.filter (fun k => k.who != g.who) ++ [g]) (r : Requester) :
    y.heldBy r = if r = g.who then g.amt else x.heldBy r := by
  rw [heldBy_eq_total, heldBy_eq_total, e, List.filter_append]
  split
  · next o => subst o; rw [filter_own]; simp [total]
  · next o => rw [filter_others _ o, List.filter_cons_of_neg (by simpa using Ne.symm o), List.filter_nil, List.append_nil]

/-- A block's grants replaced by one: what all blocks hold. -/
theorem sum_replaced {g : Grant} (e : y.held = x.held.filter (fun k => k.who != g.who) ++ [g]) : y.sum + x.heldBy g.who = x.sum + g.amt := by
  have split := total_split x.held g.who
  have own : total [g] = g.amt := rfl
  rw [sum_eq_total, sum_eq_total, heldBy_eq_total, e, total_append, own]
  omega
end

theorem heldBy_none {x : Account} {r : Requester} (e : x.held.find? (fun g => g.who == r) = none) : x.heldBy r = 0 := by
  rw [heldBy_eq_total, List.filter_eq_nil_iff.2 (by simpa using e)]; rfl

/-- A block lowered to `keep` holds at most that, and every other block what it held (R45). -/
theorem heldBy_lower (x : Account) (r q : Requester) (keep : Nat) :
    (x.lower r keep).heldBy q = if q = r then min keep (x.heldBy r) else x.heldBy q := by
  cases find : x.held.find? (fun g => g.who == r) with
  | none =>
    rw [heldBy_none find, Nat.min_zero]
    exact heldBy_dropped (by simp only [Account.lower, find]) q
  | some g =>
    have who : g.who = r := by simpa using List.find?_some find
    by_cases zero : min keep (x.heldBy r) = 0
    · rw [zero]
      exact heldBy_dropped (by simp only [Account.lower, find, if_pos zero]) q
    · have kept : (x.lower r keep).held = x.held.filter (fun k => k.who != r) ++ [{ g with amt := min keep (x.heldBy r) }] := by
        simp only [Account.lower, find, if_neg zero]
      subst who
      exact heldBy_replaced (g := { g with amt := min keep (x.heldBy g.who) }) kept q

/-- Several blocks lowered to `keep`. -/
theorem heldBy_lowerAll (l : List Requester) (x : Account) (q : Requester) (keep : Nat) :
    (l.foldl (fun x r => x.lower r keep) x).heldBy q = if q ∈ l then min keep (x.heldBy q) else x.heldBy q := by
  induction l generalizing x with
  | nil => simp
  | cons r l ih =>
    rw [List.foldl_cons, ih, heldBy_lower]
    by_cases e : q = r
    · subst e; simp
    · simp [e]

/-! ## What a change of the ledger leaves of the module -/

section
variable (h : Hw) {a : Nat} (x : Account)

@[simp] theorem acct_setAcct_self (a : Nat) : acct (setAcct h a x).wdn a = x := by
  unfold acct setAcct
  split
  · rfl
  · split <;> rfl

theorem acct_setAcct_ne {b : Nat} (ha : a < 3) (hb : b < 3) (e : b ≠ a) : acct (setAcct h a x).wdn b = acct h.wdn b := by
  obtain ⟨rfl, rfl | rfl⟩ | ⟨rfl, rfl | rfl⟩ | ⟨rfl, rfl | rfl⟩ :
    a = 0 ∧ (b = 1 ∨ b = 2) ∨ a = 1 ∧ (b = 0 ∨ b = 2) ∨ a = 2 ∧ (b = 0 ∨ b = 1) := by omega
  all_goals rfl

theorem wing_setAcct (a w : Nat) : wing (setAcct h a x) w = wing h w := by
  unfold setAcct
  split
  · rfl
  · split <;> rfl
end

/-- From `h` to `k` nothing but the Warden, the galleries and the events has changed. -/
def WardenOnly (h k : Hw) : Prop := k = { h with wdn := k.wdn, gal := k.gal, ev := k.ev }

theorem WardenOnly.trans {h k l : Hw} (m : WardenOnly h k) (n : WardenOnly k l) : WardenOnly h l := by
  unfold WardenOnly at *
  exact n.trans (congrArg (fun x : Hw => { x with wdn := l.wdn, gal := l.gal, ev := l.ev }) m :)

/-- `h` with the accounts, the waits of R38, the galleries and the events of `k`. -/
def ledgerOf (h k : Hw) : Hw :=
  { h with
    wdn := { h.wdn with
      vcore := k.wdn.vcore, vserdes := k.wdn.vserdes, vflash := k.wdn.vflash, opLowSince := k.wdn.opLowSince, opLastWait := k.wdn.opLastWait }
    gal := k.gal, ev := k.ev }

/-- From `h` to `k` nothing but account `a`, the waits of R38, the galleries and the events has changed, and its ceiling stands. -/
structure Moves (a : Nat) (h k : Hw) : Prop where
  frame : k = ledgerOf h k
  others : ∀ b, b < 3 → b ≠ a → acct k.wdn b = acct h.wdn b
  ceiling : (acct k.wdn a).ceiling = (acct h.wdn a).ceiling

namespace Moves
variable {a : Nat} {h k l : Hw}

theorem refl (h : Hw) : Moves a h h := ⟨rfl, fun _ _ _ => rfl, rfl⟩

theorem trans (m : Moves a h k) (n : Moves a k l) : Moves a h l where
  frame := n.frame.trans (congrArg (fun x => ledgerOf x l) m.frame :)
  others b hb e := (n.others b hb e).trans (m.others b hb e)
  ceiling := n.ceiling.trans m.ceiling

theorem now_eq (m : Moves a h k) : now k = now h := by rw [m.frame]; rfl
theorem notWithheld_eq (m : Moves a h k) (r : Requester) : notWithheld k.wdn r = notWithheld h.wdn r := by rw [m.frame]; cases r <;> rfl
theorem effective_eq (m : Moves a h k) : effective k.wdn a = effective h.wdn a := by
  have cap : k.wdn.capLimit = h.wdn.capLimit := by rw [m.frame]; rfl
  have therm : k.wdn.thermCap = h.wdn.thermCap := by rw [m.frame]; rfl
  have trip : k.wdn.trip = h.wdn.trip := by rw [m.frame]; rfl
  unfold effective thermCeil; rw [m.ceiling, cap, therm, trip]
theorem wardenOnly (m : Moves a h k) : WardenOnly h k := by
  unfold WardenOnly
  exact (congrArg (fun x : Hw => { x with wdn := k.wdn }) m.frame :)
end Moves

theorem moves_setAcct {h : Hw} {a : Nat} {x : Account} (ha : a < 3) (c : x.ceiling = (acct h.wdn a).ceiling) : Moves a h (setAcct h a x) where
  frame := by
    obtain rfl | rfl | rfl : a = 0 ∨ a = 1 ∨ a = 2 := by omega
    all_goals rfl
  others b hb e := acct_setAcct_ne h x ha hb e
  ceiling := by rw [acct_setAcct_self, c]

theorem moves_modGal (a : Nat) (h : Hw) (g : Nat) (f : Gallery → Gallery) : Moves a h (modGal h g f) := ⟨rfl, fun _ _ _ => rfl, rfl⟩

/-! ## Events -/

theorem raiseEvent_frame (src code sev inst detail : Nat) (h : Hw) :
    raiseEvent src code sev inst detail h = { h with ev := (raiseEvent src code sev inst detail h).ev } := by
  unfold raiseEvent
  dsimp only
  split
  · rfl
  · split
    · rfl
    · split <;> rfl

theorem saturated_frame (w detail old new : Nat) (h : Hw) :
    saturated w detail old new h = { h with ev := (saturated w detail old new h).ev } := by
  unfold saturated
  split
  · exact raiseEvent_frame ..
  · rfl
@[simp] theorem saturated_wdn (w detail old new : Nat) (h : Hw) : (saturated w detail old new h).wdn = h.wdn := by rw [saturated_frame]
@[simp] theorem saturated_gal (w detail old new : Nat) (h : Hw) : (saturated w detail old new h).gal = h.gal := by rw [saturated_frame]

theorem moves_saturated (a w detail old new : Nat) (h : Hw) : Moves a h (saturated w detail old new h) := by
  rw [saturated_frame]; exact ⟨rfl, fun _ _ _ => rfl, rfl⟩

/-- A bit of WDN_LGR_EVT set touches that register and the events alone (R59). -/
theorem setLgrEvt_frame (b : Nat) (h : Hw) :
    setLgrEvt b h = { h with wdn := { h.wdn with evt := h.wdn.evt ||| BitVec.ofNat 5 (2 ^ b) }, ev := (setLgrEvt b h).ev } := by
  unfold setLgrEvt
  split
  · next on =>
    have e : h.wdn.evt ||| BitVec.ofNat 5 (2 ^ b) = h.wdn.evt := by
      refine BitVec.eq_of_getLsbD_eq fun i _ => ?_
      rw [BitVec.getLsbD_or, BitVec.getLsbD_ofNat, Nat.testBit_two_pow]
      by_cases k : b = i
      · subst k; simp [on]
      · simp [k]
    rw [e]
  · exact raiseEvent_frame ..

section
variable {b : Nat} {h : Hw}

theorem setLgrEvt_wdn (b : Nat) (h : Hw) : (setLgrEvt b h).wdn = { h.wdn with evt := h.wdn.evt ||| BitVec.ofNat 5 (2 ^ b) } := by
  rw [setLgrEvt_frame]
@[simp] theorem setLgrEvt_gal : (setLgrEvt b h).gal = h.gal := by rw [setLgrEvt_frame]
theorem setLgrEvt_wardenOnly : WardenOnly h (setLgrEvt b h) := by
  unfold WardenOnly
  rw [setLgrEvt_frame]
end

end Sys2Proof.Machine
end

section
/-!
LEDGER_ARBITRATION (02 R45 to R50): the parts of one arbitration, what each leaves of the module, and that grants held stay within the effective
ceiling.
-/
namespace Sys2Proof.Machine

/-! ## A grant made (R45, R51) -/

/-- The account once a waiting request has been granted. -/
def Account.granted (x : Account) (q : Waiting) : Account :=
  { x with
    held := x.held.filter (fun g => g.who != q.who) ++
      [{ who := q.who, amt := x.heldBy q.who + q.amt, level := q.level, cls := q.cls, since := q.since, order := x.nextOrder }]
    waiting := x.waiting.eraseIdx (x.waiting.findIdx (fun w => w == q))
    nextOrder := x.nextOrder + 1
    risen := x.risen + q.amt }

theorem heldBy_granted (x : Account) (q : Waiting) (r : Requester) :
    (x.granted q).heldBy r = if r = q.who then x.heldBy q.who + q.amt else x.heldBy r :=
  heldBy_replaced (g := { who := q.who, amt := x.heldBy q.who + q.amt, level := q.level, cls := q.cls, since := q.since, order := x.nextOrder }) rfl r

theorem sum_granted (x : Account) (q : Waiting) : (x.granted q).sum = x.sum + q.amt := by
  have e := sum_replaced (x := x) (y := x.granted q)
    (g := { who := q.who, amt := x.heldBy q.who + q.amt, level := q.level, cls := q.cls, since := q.since, order := x.nextOrder }) rfl
  dsimp only at e
  omega

section
variable {a : Nat} {q : Waiting} {h : Hw}

/-- A grant made changes the account and, when a stalled gallery resumes, that gallery. -/
theorem giveGrant_cases (a : Nat) (q : Waiting) (h : Hw) : giveGrant a q h = setAcct h a ((acct h.wdn a).granted q) ∨
    ∃ g f, giveGrant a q h = modGal (setAcct h a ((acct h.wdn a).granted q)) g f := by
  cases e : q.who
  case gallery g => exact .inr ⟨g, fun G => { G with stalled := false }, by simp only [giveGrant, Account.granted, e]⟩
  all_goals exact .inl (by simp only [giveGrant, Account.granted, e])

@[simp] theorem acct_giveGrant : acct (giveGrant a q h).wdn a = (acct h.wdn a).granted q := by
  obtain e | ⟨g, f, e⟩ := giveGrant_cases a q h <;> simp [e]

theorem moves_giveGrant (ha : a < 3) : Moves a h (giveGrant a q h) := by
  have m : Moves a h (setAcct h a ((acct h.wdn a).granted q)) := moves_setAcct ha rfl
  obtain e | ⟨g, f, e⟩ := giveGrant_cases a q h
  · rw [e]; exact m
  · rw [e]; exact m.trans (moves_modGal ..)
end

/-! ## The requests served in order (R45 to R48) -/

section
variable {a : Nat}

/-- What every grant of a request that fits keeps, serving the requests keeps. -/
theorem serve_keeps {P : Hw → Prop} (give : ∀ q h, P h → fits h.wdn a (acct h.wdn a) q = true → P (giveGrant a q h)) (head : Bool)
    (l : List Waiting) (h : Hw) (p : P h) : P (serve a head l h) := by
  induction l generalizing head h with
  | nil => exact p
  | cons q r ih =>
    unfold serve
    dsimp only
    split
    · exact ih head h p
    · split
      · next f =>
        split
        · exact p
        · exact ih head _ (give q h p f)
      · split
        · exact p
        · exact ih false h p

theorem moves_serve (ha : a < 3) (head : Bool) (l : List Waiting) (h : Hw) : Moves a h (serve a head l h) :=
  serve_keeps (P := Moves a h) (fun _ _ m _ => m.trans (moves_giveGrant ha)) head l h (.refl h)

/-- The grants held fit the effective ceiling. -/
def WithinCeiling (a : Nat) (h : Hw) : Prop := (acct h.wdn a).sum ≤ (effective h.wdn a).1

theorem giveGrant_withinCeiling {q : Waiting} {h : Hw} (ha : a < 3) (f : fits h.wdn a (acct h.wdn a) q = true) :
    WithinCeiling a (giveGrant a q h) := by
  unfold WithinCeiling
  rw [acct_giveGrant, sum_granted, (moves_giveGrant ha).effective_eq]
  have room : (acct h.wdn a).sum + q.amt ≤ (effective h.wdn a).1 := by
    simp only [fits, decide_eq_true_eq] at f
    omega
  exact room

theorem serve_withinCeiling (ha : a < 3) (head : Bool) (l : List Waiting) {h : Hw} (w : WithinCeiling a h) : WithinCeiling a (serve a head l h) :=
  serve_keeps (P := WithinCeiling a) (fun _ _ _ f => giveGrant_withinCeiling ha f) head l h w

/-- No block loses grains while requests are served. -/
theorem heldBy_le_serve (head : Bool) (l : List Waiting) (h : Hw) (r : Requester) :
    (acct h.wdn a).heldBy r ≤ (acct (serve a head l h).wdn a).heldBy r := by
  refine serve_keeps (P := fun k => (acct h.wdn a).heldBy r ≤ (acct k.wdn a).heldBy r) (fun q k m _ => ?_) head l h (Nat.le_refl _)
  rw [acct_giveGrant, heldBy_granted]
  split
  · next e => subst e; omega
  · exact m

variable {head : Bool} {q : Waiting} {r : List Waiting} {h : Hw} (free : notWithheld h.wdn q.who = true)
include free

/-- The first request is granted when it fits and the rise limit leaves room. -/
theorem serve_head (f : fits h.wdn a (acct h.wdn a) q = true)
    (room : ¬(riseLimit a ≠ 0 ∧ (acct h.wdn a).risen ≠ 0 ∧ riseLimit a < (acct h.wdn a).risen + q.amt)) :
    serve a head (q :: r) h = serve a head r (giveGrant a q h) := by
  simp only [serve, free, f, Bool.not_true, Bool.false_eq_true, if_false, if_true, if_neg room]

/-- A head that has waited 1 ms without fitting holds all others back (R47). -/
theorem serve_blocked (f : fits h.wdn a (acct h.wdn a) q = false) (old : 100000 ≤ now h - q.since) : serve a true (q :: r) h = h := by
  simp only [serve, free, f, old, Bool.not_true, Bool.false_eq_true, if_false, decide_true, Bool.and_self, if_true]
end

/-! ## Revocation (R50, R51, R54) -/

/-- The account once a grant has been revoked to the clock-gated cost; `cls` is the class of the request put back. -/
def Account.revoked (x : Account) (g : Grant) (cls : Nat) : Account :=
  { x with
    held := x.held.filter (fun y => y.who != g.who) ++ [{ g with amt := 3 }]
    waiting := x.waiting ++ [{ who := g.who, amt := x.heldBy g.who - 3, level := 2, cls, since := g.since }]
    revokes := satAdd 32 x.revokes 1 }

/-- The hardware once a grant has been revoked, before its gallery stalls. -/
def revokedHw (g : Grant) (h : Hw) : Hw :=
  saturated 32 0x20C h.wdn.vcore.revokes (satAdd 32 h.wdn.vcore.revokes 1) (setAcct h 0 (h.wdn.vcore.revoked g (reqClass h g.who)))

section
variable {g : Grant} {h : Hw}

theorem revokeOne_gallery {i : Nat} (e : g.who = .gallery i) : revokeOne g h = modGal (revokedHw g h) i (fun G => { G with stalled := true }) := by
  simp only [revokeOne, revokedHw, Account.revoked, e]

theorem revokeOne_cases (g : Grant) (h : Hw) : revokeOne g h = revokedHw g h ∨
    ∃ i, g.who = .gallery i ∧ revokeOne g h = modGal (revokedHw g h) i (fun G => { G with stalled := true }) := by
  cases e : g.who
  case gallery i => exact .inr ⟨i, rfl, revokeOne_gallery e⟩
  all_goals exact .inl (by simp only [revokeOne, revokedHw, Account.revoked, e])

theorem revokedHw_vcore : (revokedHw g h).wdn.vcore = h.wdn.vcore.revoked g (reqClass h g.who) := by
  unfold revokedHw; rw [saturated_wdn]; rfl

@[simp] theorem revokeOne_vcore : (revokeOne g h).wdn.vcore = h.wdn.vcore.revoked g (reqClass h g.who) := by
  obtain e | ⟨i, -, e⟩ := revokeOne_cases g h
  · rw [e, revokedHw_vcore]
  · rw [e, modGal_wdn, revokedHw_vcore]

theorem moves_revokeOne : Moves 0 h (revokeOne g h) := by
  have m : Moves 0 h (revokedHw g h) := (moves_setAcct (x := h.wdn.vcore.revoked g (reqClass h g.who)) (by decide) rfl).trans (moves_saturated ..)
  obtain e | ⟨i, -, e⟩ := revokeOne_cases g h
  · rw [e]; exact m
  · rw [e]; exact m.trans (moves_modGal ..)
end

section
variable {need below : Nat} {h : Hw}

theorem revokeUntil_fits (n : Nat) (f : h.wdn.vcore.sum + need ≤ (effective h.wdn 0).1) : revokeUntil need below n h = h := by
  cases n with
  | zero => rfl
  | succ n => exact if_pos f

theorem revokeUntil_none (n : Nat) (e : revokeNext h.wdn.vcore below = none) : revokeUntil need below n h = h := by
  cases n with
  | zero => rfl
  | succ n => unfold revokeUntil; simp only [e, ite_self]

theorem revokeUntil_some {g : Grant} (n : Nat) (f : ¬h.wdn.vcore.sum + need ≤ (effective h.wdn 0).1) (e : revokeNext h.wdn.vcore below = some g) :
    revokeUntil need below (n + 1) h = revokeUntil need below n (revokeOne g h) := by
  rw [revokeUntil, if_neg f]; simp only [e]

theorem moves_revokeUntil (n : Nat) : Moves 0 h (revokeUntil need below n h) := by
  induction n generalizing h with
  | zero => exact .refl h
  | succ n ih =>
    by_cases f : h.wdn.vcore.sum + need ≤ (effective h.wdn 0).1
    · rw [revokeUntil_fits _ f]; exact .refl h
    · cases e : revokeNext h.wdn.vcore below with
      | none => rw [revokeUntil_none _ e]; exact .refl h
      | some g => rw [revokeUntil_some n f e]; exact moves_revokeOne.trans ih
end

/-! ## One arbitration (R42, R45, R50) -/

/-- The rise window of the account moved on to the present microsecond. -/
def riseWindow (a : Nat) (h : Hw) : Hw :=
  let x := acct h.wdn a
  let us := (now h - x.riseFrom) / 100
  setAcct h a { x with risen := x.risen - us * riseLimit a, riseFrom := x.riseFrom + us * 100 }

/-- Grants above a lowered VCORE ceiling revoked. -/
def underCeiling (a : Nat) (h : Hw) : Hw := if a = 0 then revokeUntil 0 4 96 h else h

/-- The watch over the waiting galleries that R38 keeps, at time `t`. -/
def watchWaits (a t : Nat) (h : Hw) : Hw :=
  if a ≠ 0 then h else
  let ws := h.wdn.vcore.waits.filter (fun w => match w.who with | .gallery _ => true | _ => false)
  let left := ws.foldl (fun n w => n + w.amt) 0
  let would := ws.foldl (fun n w => n + w.amt + h.wdn.vcore.heldBy w.who) 0
  let low := decide (would < 4 * left)
  { h with wdn := { h.wdn with
      opLowSince := if low then some (h.wdn.opLowSince.getD t) else none
      opLastWait := if ws.isEmpty then h.wdn.opLastWait else t } }

/-- The waiting requests of the account served in the order of R46. -/
def serveAll (a : Nat) (h : Hw) : Hw := serve a true (ordered (acct h.wdn a).waits) h

theorem arbitrate_eq (a : Nat) (h : Hw) : arbitrate a h = watchWaits a (now h) (serveAll a (underCeiling a (riseWindow a h))) := rfl

section
variable {a : Nat} {h : Hw}

theorem moves_riseWindow (ha : a < 3) : Moves a h (riseWindow a h) := moves_setAcct ha rfl

theorem moves_underCeiling : Moves a h (underCeiling a h) := by
  unfold underCeiling
  split
  · next z => subst z; exact moves_revokeUntil 96
  · exact .refl h

theorem moves_watchWaits (t : Nat) : Moves a h (watchWaits a t h) := by
  unfold watchWaits
  split
  · exact .refl h
  · exact ⟨rfl, fun _ _ _ => rfl, rfl⟩

@[simp] theorem acct_watchWaits (t b : Nat) : acct (watchWaits a t h).wdn b = acct h.wdn b := by
  unfold watchWaits
  split <;> rfl

theorem moves_arbitrate (ha : a < 3) : Moves a h (arbitrate a h) :=
  (((moves_riseWindow ha).trans moves_underCeiling).trans (moves_serve ha ..)).trans (moves_watchWaits _)

/-- The rise window changes no grant and no request. -/
theorem acct_riseWindow : acct (riseWindow a h).wdn a = { acct h.wdn a with
    risen := (acct h.wdn a).risen - (now h - (acct h.wdn a).riseFrom) / 100 * riseLimit a
    riseFrom := (acct h.wdn a).riseFrom + (now h - (acct h.wdn a).riseFrom) / 100 * 100 } := acct_setAcct_self ..

theorem riseWindow_withinCeiling (ha : a < 3) (w : WithinCeiling a h) : WithinCeiling a (riseWindow a h) := by
  unfold WithinCeiling
  rw [(moves_riseWindow ha).effective_eq, acct_riseWindow]
  exact w

theorem underCeiling_of_within (w : WithinCeiling a h) : underCeiling a h = h := by
  unfold underCeiling
  split
  · next z => subst z; exact revokeUntil_fits 96 w
  · rfl

/-- An arbitration of grants that fit: nothing is revoked, and the requests are served in order. -/
theorem arbitrate_of_within (ha : a < 3) (w : WithinCeiling a h) :
    arbitrate a h = watchWaits a (now h) (serve a true (ordered (acct h.wdn a).waits) (riseWindow a h)) := by
  have waits : (acct (riseWindow a h).wdn a).waits = (acct h.wdn a).waits := by rw [acct_riseWindow]; rfl
  rw [arbitrate_eq, underCeiling_of_within (riseWindow_withinCeiling ha w), serveAll, waits]

theorem arbitrate_withinCeiling (ha : a < 3) (w : WithinCeiling a h) : WithinCeiling a (arbitrate a h) := by
  have served := serve_withinCeiling ha true (ordered (acct h.wdn a).waits) (riseWindow_withinCeiling ha w)
  rw [arbitrate_of_within ha w]
  unfold WithinCeiling at served ⊢
  rwa [acct_watchWaits, (moves_watchWaits _).effective_eq]

theorem fits_riseWindow (ha : a < 3) (q : Waiting) : fits (riseWindow a h).wdn a (acct (riseWindow a h).wdn a) q = fits h.wdn a (acct h.wdn a) q := by
  unfold fits
  rw [(moves_riseWindow ha).effective_eq, acct_riseWindow]
  rfl

section
variable {q : Waiting} {r : List Waiting} (ha : a < 3) (w : WithinCeiling a h) (o : ordered (acct h.wdn a).waits = q :: r)
  (free : notWithheld h.wdn q.who = true)
include ha w o free

theorem arbitrate_grants_first (f : fits h.wdn a (acct h.wdn a) q = true)
    (room : let us := (now h - (acct h.wdn a).riseFrom) / 100; let lim := riseLimit a; let risen := (acct h.wdn a).risen
      lim = 0 ∨ risen ≤ us * lim ∨ risen - us * lim + q.amt ≤ lim) :
    (acct h.wdn a).heldBy q.who + q.amt ≤ (acct (arbitrate a h).wdn a).heldBy q.who := by
  dsimp only at room
  rw [arbitrate_of_within ha w, o, acct_watchWaits, serve_head (((moves_riseWindow ha).notWithheld_eq _).trans free) ((fits_riseWindow ha q).trans f)
    (by rw [acct_riseWindow]; dsimp only; omega)]
  refine Nat.le_trans (Nat.le_of_eq ?_) (heldBy_le_serve true r _ q.who)
  rw [acct_giveGrant, heldBy_granted, if_pos rfl, acct_riseWindow]
  rfl

theorem arbitrate_blocked (f : fits h.wdn a (acct h.wdn a) q = false) (old : 100000 ≤ now h - q.since) :
    (acct (arbitrate a h).wdn a).held = (acct h.wdn a).held := by
  rw [arbitrate_of_within ha w, o, acct_watchWaits, serve_blocked (((moves_riseWindow ha).notWithheld_eq _).trans free) ((fits_riseWindow ha q).trans f)
    ((moves_riseWindow (h := h) ha).now_eq ▸ old), acct_riseWindow]
end
end

/-- Settles O31: serving keeps the grants within the ceiling, a grant at a time, and takes the head first. -/
theorem arbitration : Obligations.Arbitration := by
  intro a s ha x us lim
  have m := moves_arbitrate (h := s.hw) ha
  refine yields_of (decide_eq_true ha)
    ⟨m.wardenOnly, m.others, m.effective_eq, fun w => ⟨arbitrate_withinCeiling ha w, fun q r o => ⟨?first, ?blocked⟩⟩⟩
  case first => exact fun f free room => arbitrate_grants_first ha w o free f room
  case blocked => exact fun free f old => arbitrate_blocked ha w o free f old

end Sys2Proof.Machine
end

section
/-!
Grain requests, releases and revocation (02 R43 to R51, R59) and the PLLs that hold requests back (02 R36, R57).
-/
namespace Sys2Proof.Machine

section
variable {r : Requester} {mode : Nat} {h : Hw}

/-! ## GRAIN_REQUEST and GRAIN_RELEASE (R43, R45, R57) -/

/-- What the waiting requests of a block come to. -/
def askedBy (x : Account) (r : Requester) : Nat := (x.waiting.filter (fun w => w.who == r)).foldl (fun n w => n + w.amt) 0

theorem grainRequest_enough (e : reqWant h mode r ≤ (acct h.wdn (reqAcct r)).heldBy r + askedBy (acct h.wdn (reqAcct r)) r) :
    grainRequest r mode h = h := if_pos e

theorem grainRequest_asks (e : (acct h.wdn (reqAcct r)).heldBy r + askedBy (acct h.wdn (reqAcct r)) r < reqWant h mode r) :
    let x := acct h.wdn (reqAcct r)
    grainRequest r mode h = setAcct h (reqAcct r) { x with waiting := x.waiting ++ [{
      who := r, amt := reqWant h mode r - x.heldBy r - askedBy x r, level := reqLevel r, cls := reqClass h r, since := now h
      heldBack := !pllLocked h.wdn r }] } := if_neg (Nat.not_le.2 e)

theorem reqWant_gallery (g : Nat) :
    reqWant h mode (.gallery g) = reqCost h.wdn.opCur (if mode = 2 ∧ lowPower h g = true then 1 else mode) (.gallery g) := by
  simp [reqWant]

/-- What a block that gives grains up keeps (R45). -/
def releaseKeeps (h : Hw) (mode : Nat) (r : Requester) : Nat :=
  match r with
  | .gallery _ => reqWant h mode r
  | _ => 0

theorem grainRelease_eq (r : Requester) (mode : Nat) (h : Hw) :
    grainRelease r mode h = setAcct h (reqAcct r) ((acct h.wdn (reqAcct r)).lower r (releaseKeeps h mode r)) := rfl
end

/-! ## HEAD_BLOCKED (R47, R59) -/

section
variable {a : Nat} {h : Hw}

/-- The waiting requests of an account that are not withheld, in the order of R46. -/
def served (h : Hw) (a : Nat) : List Waiting := (ordered (acct h.wdn a).waits).filter (fun q => notWithheld h.wdn q.who)

theorem headBlockedEv_none (e : served h a = []) : headBlockedEv a h = h := by
  unfold served at e; simp only [headBlockedEv, e]

theorem headBlockedEv_head {q : Waiting} {l : List Waiting} (e : served h a = q :: l) : headBlockedEv a h =
    if 100000 ≤ now h - q.since ∧ fits h.wdn a (acct h.wdn a) q = false then
      setLgrEvt 4 (setAcct h a { acct h.wdn a with headBlocked := true })
    else h := by
  unfold served at e; simp only [headBlockedEv, e, Bool.not_eq_true']
end

/-! ## REVOCATION_WAIT_EXPIRY (R50, R51) -/

section
variable {h : Hw}

/-- The request for which grants are revoked: the first in partition work that has waited 50 µs and does not fit. -/
def revoker (h : Hw) : Option Waiting :=
  (ordered h.wdn.vcore.waits).find? (fun q => q.level = 2 && decide (5000 ≤ now h - q.since) && !fits h.wdn 0 h.wdn.vcore q)

theorem revocationWait_none (e : revoker h = none) : revocationWait h = h := by
  unfold revoker at e; simp only [revocationWait, e]
theorem revocationWait_some {q : Waiting} (e : revoker h = some q) : revocationWait h = revokeUntil q.amt q.cls 96 h := by
  unfold revoker at e; simp only [revocationWait, e]

theorem not_fits_gallery {q : Waiting} {i : Nat} (who : q.who = .gallery i) (n : fits h.wdn 0 h.wdn.vcore q = false) :
    ¬h.wdn.vcore.sum + q.amt ≤ (effective h.wdn 0).1 := by
  simpa [fits, who] using n

theorem sum_revoked (x : Account) (g : Grant) (cls : Nat) : (x.revoked g cls).sum + x.heldBy g.who = x.sum + 3 :=
  sum_replaced (x := x) (y := x.revoked g cls) (g := { g with amt := 3 }) rfl

/-- One revocation makes the room that is needed, and nothing more is revoked. -/
theorem revokeUntil_one {need below : Nat} {g : Grant} (n : Nat) (tight : ¬h.wdn.vcore.sum + need ≤ (effective h.wdn 0).1)
    (e : revokeNext h.wdn.vcore below = some g) (room : h.wdn.vcore.sum + need + 3 ≤ (effective h.wdn 0).1 + h.wdn.vcore.heldBy g.who) :
    revokeUntil need below (n + 1) h = revokeOne g h := by
  have s := sum_revoked h.wdn.vcore g (reqClass h g.who)
  rw [revokeUntil_some n tight e]
  refine revokeUntil_fits n ?_
  rw [revokeOne_vcore, moves_revokeOne.effective_eq]
  omega
end

/-! ## PLL_LOCK (01 R23; 02 R36) -/

/-- The Warden with PLL `k` locked. -/
def lockPll (k : Nat) (w : Warden) : Warden :=
  if k = 0 then { w with pllArith := true } else if k = 1 then { w with pllNet := true } else if k = 2 then { w with pllDram := true }
  else { w with pllLanding := w.pllLanding ||| BitVec.ofNat 16 (2 ^ (k - 3)) }

/-- The account with the requests whose PLL is now locked waiting from time `t` on. -/
def Account.freed (w : Warden) (t : Nat) (x : Account) : Account :=
  { x with waiting := x.waiting.map (fun q => if q.heldBack = true ∧ pllLocked w q.who = true then { q with heldBack := false, since := t } else q) }

theorem pllLock_eq (k : Nat) (h : Hw) : pllLock k h = { h with wdn := { lockPll k h.wdn with
    vcore := (lockPll k h.wdn).vcore.freed (lockPll k h.wdn) (now h), vserdes := (lockPll k h.wdn).vserdes.freed (lockPll k h.wdn) (now h)
    vflash := (lockPll k h.wdn).vflash.freed (lockPll k h.wdn) (now h) } } := by
  unfold pllLock
  simp only [Bool.and_eq_true]
  obtain rfl | rfl | rfl | ⟨l, rfl⟩ : k = 0 ∨ k = 1 ∨ k = 2 ∨ ∃ l, k = l + 3 := by
    rcases k with _ | _ | _ | l <;> simp
  all_goals rfl

/-- Settles O30: each command by its own equation; a revocation of one grant makes the room that was missing (`sum_revoked`). -/
theorem grainRequests : Obligations.GrainRequests := by
  intro s W
  refine ⟨fun r mode ok => ?request, fun r mode ok => ?release, fun a ha => ?headBlocked, ?revocation, fun k hk => ?lock⟩
  case request =>
    intro a x o asked want
    have e : want = reqWant s.hw mode r := by
      cases r with
      | gallery g => exact (reqWant_gallery g).symm
      | _ => rfl
    exact ⟨fun n => becomes_of ok (grainRequest_enough (e ▸ n)), fun n => becomes_of ok (e ▸ grainRequest_asks (e ▸ n))⟩
  case release =>
    intro a x keep
    have e : keep = releaseKeeps s.hw mode r := by
      cases r with
      | gallery g => exact (reqWant_gallery g).symm
      | _ => rfl
    refine yields_of ok ?_
    rw [grainRelease_eq]
    intro y
    have y_eq : y = x.lower r keep := by rw [e]; exact acct_setAcct_self ..
    rw [y_eq, ← e]
    exact ⟨rfl, by rw [heldBy_lower, if_pos rfl], fun q n => by rw [heldBy_lower, if_neg n]⟩
  case headBlocked =>
    have ok : decide (a < 3) = true := decide_eq_true ha
    refine ⟨fun e => becomes_of ok (headBlockedEv_none e), fun q l e => ⟨fun old n => becomes_of ok ?_, fun no => becomes_of ok ?_⟩⟩
    · exact (headBlockedEv_head e).trans (if_pos ⟨old, n⟩)
    · refine (headBlockedEv_head e).trans (if_neg fun ⟨old, n⟩ => ?_)
      rcases no with early | fit
      · omega
      · exact Bool.false_ne_true (n.symm.trans fit)
  case revocation =>
    refine ⟨fun e => becomes_of rfl (revocationWait_none e), fun q e ⟨j, who⟩ =>
      ⟨fun n => becomes_of rfl ?_, fun g i n gi _ room => becomes_of rfl ?_⟩⟩
    · rw [revocationWait_some e, revokeUntil_none 96 n]
    · have unfit : fits s.hw.wdn 0 s.hw.wdn.vcore q = false := by
        have p := List.find?_some e
        simp only [Bool.and_eq_true, Bool.not_eq_true'] at p
        exact p.2
      rw [revocationWait_some e, revokeUntil_one 95 (not_fits_gallery who unfit) n room, revokeOne_gallery gi]
      rfl
  case lock => exact becomes_of (decide_eq_true hk) (pllLock_eq k s.hw)

end Sys2Proof.Machine
end

section
/-!
Operating points (02 R36 to R38) and the power cap (02 R55): what each command makes of the Warden.
-/
namespace Sys2Proof.Machine

/-! ## OPPOINT_CHANGE (R36, R37) -/

section
variable {h : Hw} {p : Nat}

theorem opPointChange_none (e : h.wdn.opReq = none) : opPointChange h = h := by
  simp only [opPointChange, e]

/-- The revocations that throttle the wings, counted: every gallery above its clock-gated cost. -/
def throttled (h : Hw) : Hw :=
  let n := (h.wdn.vcore.held.filter (fun g => (match g.who with | .gallery _ => true | _ => false) && decide (3 < g.amt))).length
  let rv := satAdd 32 h.wdn.vcore.revokes n
  saturated 32 0x20C h.wdn.vcore.revokes rv (setAcct h 0 { h.wdn.vcore with revokes := rv })

/-- The wings' grants and requests at the costs of point `p`, which is now in force. -/
def repointed (p : Nat) (h : Hw) : Hw :=
  let k := recost h.wdn.opCur p (throttled h)
  { k with wdn := { k.wdn with opCur := p, opReq := none, pllArith := true } }

theorem opPointChange_some (e : h.wdn.opReq = some p) : opPointChange h = setLgrEvt 3 (repointed p h) := by
  simp only [opPointChange, e]; rfl

theorem throttled_wdn : (throttled h).wdn = { h.wdn with vcore := { h.wdn.vcore with revokes := (throttled h).wdn.vcore.revokes } } := by
  simp only [throttled, saturated_wdn]; rfl

theorem throttled_frame : throttled h = { h with wdn := (throttled h).wdn, ev := (throttled h).ev } := by
  unfold throttled
  dsimp only
  rw [saturated_frame]
  rfl

theorem repointed_frame : repointed p h = { h with wdn := (repointed p h).wdn, ev := (repointed p h).ev } :=
  congrArg (fun k : Hw => { k with wdn := (repointed p h).wdn }) throttled_frame

theorem repointed_evt : (repointed p h).wdn.evt = h.wdn.evt := by
  show (throttled h).wdn.evt = _
  rw [throttled_wdn]

theorem repointed_held : (repointed p h).wdn.vcore.held =
    h.wdn.vcore.held.map (fun g => { g with amt := recostAmt h.wdn.opCur p g.who g.amt }) := by
  show (throttled h).wdn.vcore.held.map (fun g => { g with amt := recostAmt h.wdn.opCur p g.who g.amt }) = _
  rw [throttled_wdn]
end

/-! ## Automatic stepping (R38) -/

section
variable {h : Hw}

theorem autoLower_due {t : Nat} (e : h.wdn.opLowSince = some t) (on : h.wdn.opAuto = true) (old : 10000000 ≤ now h - t)
    (above : h.wdn.opCur < min 2 h.wdn.opFloor) :
    autoLower h = { h with wdn := { h.wdn with opReq := some (h.wdn.opCur + 1), opLowSince := none } } := by
  simp only [autoLower, e]
  exact if_pos ⟨on, old, above⟩

theorem autoLower_not (n : h.wdn.opLowSince = none ∨ h.wdn.opAuto = false ∨ min 2 h.wdn.opFloor ≤ h.wdn.opCur) : autoLower h = h := by
  cases e : h.wdn.opLowSince with
  | none => simp only [autoLower, e]
  | some t =>
    simp only [autoLower, e]
    refine if_neg fun ⟨on, _, above⟩ => ?_
    rcases n with n | n | n
    · exact Option.some_ne_none t (e.symm.trans n)
    · exact Bool.false_ne_true (n.symm.trans on)
    · omega

theorem autoRaise_due (on : h.wdn.opAuto = true) (below : 0 < h.wdn.opCur) (old : 100000000 ≤ now h - h.wdn.opLastWait) :
    autoRaise h = { h with wdn := { h.wdn with opReq := some (h.wdn.opCur - 1), opLastWait := now h } } := if_pos ⟨on, below, old⟩

theorem autoRaise_not (n : h.wdn.opAuto = false ∨ h.wdn.opCur = 0 ∨ now h - h.wdn.opLastWait < 100000000) : autoRaise h = h := by
  refine if_neg fun ⟨on, below, old⟩ => ?_
  rcases n with n | n | n
  · exact Bool.false_ne_true (n.symm.trans on)
  · omega
  · omega
end

/-! ## Limits on VCORE that go down (R54 to R56) -/

section
variable {n b : Nat} {put : Nat → Warden → Warden} {h : Hw}

theorem lowerCeil_above (e : 3000 < (effective h.wdn 0).1) (pos : 0 < n) :
    lowerCeil n b put h = setLgrEvt b { h with wdn := put (max 3000 ((effective h.wdn 0).1 - n)) h.wdn } := by
  unfold lowerCeil
  exact if_pos (by omega)

theorem lowerCeil_floor (e : (effective h.wdn 0).1 ≤ 3000) : lowerCeil n b put h = { h with wdn := put 3000 h.wdn } := by
  have l : max 3000 ((effective h.wdn 0).1 - n) = 3000 := by omega
  unfold lowerCeil
  dsimp only
  rw [l]
  exact if_neg (by omega)
end

/-! ## POWER_CAP_SAMPLE (R55) -/

section
variable {h : Hw} {p c : Nat}

/-- The samples of the last 10 ms, the newest in front. -/
def samples (p : Nat) (h : Hw) : List Nat := (p :: h.wdn.capSamples).take 10

/-- The Warden once a sample under a cap has been recorded. -/
def sampled (p : Nat) (h : Hw) : Hw := { h with wdn := { h.wdn with inputPower := p, capSamples := samples p h } }

theorem powerCapSample_none (e : h.wdn.cap = none) : powerCapSample p h = { h with wdn := { h.wdn with inputPower := p } } := by
  simp only [powerCapSample, e]

theorem powerCapSample_some (e : h.wdn.cap = some c) : powerCapSample p h =
    if c * 10 * (samples p h).length < (samples p h).foldl (· + ·) 0 then lowerCeil 80 0 (fun l w => { w with capLimit := l }) (sampled p h)
    else { sampled p h with wdn := { (sampled p h).wdn with capLimit := raised h.wdn 80 h.wdn.capLimit } } := by
  unfold powerCapSample
  dsimp only
  split
  · next n => exact absurd (e.symm.trans n) (Option.some_ne_none c)
  · next d n => cases Option.some.inj (e.symm.trans n); rfl
end

/-- Settles O32: the commands' equations; a change of point keeps every grant in its place (`repointed_held`). -/
theorem operatingPointsAndPower : Obligations.OperatingPointsAndPower := by
  intro s W put
  refine ⟨fun e => becomes_of rfl (opPointChange_none e), fun p e => yields_of rfl ?change,
    fun t e on old above => becomes_of rfl (autoLower_due e on old above), fun n => becomes_of rfl (autoLower_not n),
    fun on below old => becomes_of rfl (autoRaise_due on below old), fun n => becomes_of rfl (autoRaise_not n),
    fun p e => becomes_of rfl (powerCapSample_none e), ?sample⟩
  case change =>
    have held := repointed_held (p := p) (h := s.hw)
    rw [opPointChange_some e, setLgrEvt_frame]
    refine ⟨congrArg (fun k : Hw => { k with wdn := { (repointed p s.hw).wdn with evt := (repointed p s.hw).wdn.evt ||| 8 }
                                             ev := (setLgrEvt 3 (repointed p s.hw)).ev }) repointed_frame,
      rfl, rfl, rfl, congrArg (· ||| 8) repointed_evt, ?_⟩
    exact held.trans (List.map_congr_left fun g _ => by cases g.who <;> rfl)
  case sample =>
    intro p c e l eff w
    refine ⟨fun under => becomes_of rfl ?raise, fun high above => becomes_of rfl ?lower, fun high low => becomes_of rfl ?floor⟩
    case raise => exact (powerCapSample_some e).trans (if_neg (Nat.not_lt.2 under))
    case lower => exact ((powerCapSample_some e).trans (if_pos high)).trans (lowerCeil_above above (by decide))
    case floor => exact ((powerCapSample_some e).trans (if_pos high)).trans (lowerCeil_floor low)

end Sys2Proof.Machine
end

section
/-!
The thermal limit and the thermal trip (02 R54, R56).
-/
namespace Sys2Proof.Machine

/-! ## The hottest junction -/

theorem foldl_max_lt (l : List Int) (m n : Int) : l.foldl max m < n ↔ m < n ∧ ∀ t ∈ l, t < n := by
  induction l generalizing m with
  | nil => simp
  | cons t r ih => rw [List.foldl_cons, ih, Int.max_lt, List.forall_mem_cons, and_assoc]

/-- Limits above 0 are met by the hottest junction when a junction meets them. -/
theorem hottest_lt {w : Warden} {n : Int} (pos : 0 < n) : hottest w < n ↔ ∀ t ∈ junctions w, t < n :=
  (foldl_max_lt ..).trans (and_iff_right pos)
theorem hottest_le {w : Warden} {n : Int} (pos : 0 ≤ n) : hottest w ≤ n ↔ ∀ t ∈ junctions w, t ≤ n := by
  simpa [Int.lt_add_one_iff] using hottest_lt (w := w) (n := n + 1) (by omega)
theorem lt_hottest {w : Warden} {n : Int} (pos : 0 ≤ n) : n < hottest w ↔ ∃ t ∈ junctions w, n < t := by
  simpa using not_congr (hottest_le (w := w) pos)
theorem le_hottest {w : Warden} {n : Int} (pos : 0 < n) : n ≤ hottest w ↔ ∃ t ∈ junctions w, n ≤ t := by
  simpa using not_congr (hottest_lt (w := w) pos)

/-! ## THERMAL_STEP -/

section
variable {h : Hw}

/-- A junction is above the limit, or at it while the ceiling is being lowered. -/
def TooHot (h : Hw) : Prop := 16 * (h.wdn.thermLimit : Int) < hottest h.wdn ∨ 16 * (h.wdn.thermLimit : Int) ≤ hottest h.wdn ∧ h.wdn.thermLow = true

theorem tooHot_iff (l85 : 85 ≤ h.wdn.thermLimit) : TooHot h ↔ (∃ t ∈ junctions h.wdn, 16 * (h.wdn.thermLimit : Int) < t) ∨
    h.wdn.thermLow = true ∧ ∃ t ∈ junctions h.wdn, 16 * (h.wdn.thermLimit : Int) ≤ t := by
  unfold TooHot
  rw [lt_hottest (by omega), le_hottest (by omega), and_comm (a := ∃ t ∈ junctions h.wdn, 16 * (h.wdn.thermLimit : Int) ≤ t)]

theorem not_tooHot_iff (l85 : 85 ≤ h.wdn.thermLimit) : ¬TooHot h ↔ (∀ t ∈ junctions h.wdn, t < 16 * (h.wdn.thermLimit : Int)) ∨
    h.wdn.thermLow = false ∧ ∀ t ∈ junctions h.wdn, t ≤ 16 * (h.wdn.thermLimit : Int) := by
  have weaken : (∀ t ∈ junctions h.wdn, t < 16 * (h.wdn.thermLimit : Int)) → ∀ t ∈ junctions h.wdn, t ≤ 16 * (h.wdn.thermLimit : Int) :=
    fun below t m => Int.le_of_lt (below t m)
  rw [tooHot_iff l85]
  cases h.wdn.thermLow <;> simpa using weaken

theorem thermalStep_hot (e : TooHot h) : thermalStep h = lowerCeil 512 1 (fun l w => { w with thermCap := l, thermLow := true }) h := if_pos e

theorem thermalStep_cool (e : hottest h.wdn ≤ 16 * (h.wdn.thermLimit : Int) - 80) :
    thermalStep h = { h with wdn := { h.wdn with thermCap := raised h.wdn 512 h.wdn.thermCap, thermLow := false } } :=
  (if_neg (by omega)).trans (if_pos e)

theorem thermalStep_between (n : ¬TooHot h) (e : ¬hottest h.wdn ≤ 16 * (h.wdn.thermLimit : Int) - 80) :
    thermalStep h = { h with wdn := { h.wdn with thermLow := false } } := (if_neg n).trans (if_neg e)
end

/-! ## Every gallery's grants revoked -/

/-- One gallery's grant revoked when it is above the clock-gated cost. -/
def revokeGallery (h : Hw) (g : Nat) : Hw :=
  match h.wdn.vcore.held.find? (fun x => x.who == .gallery g && decide (3 < x.amt)) with
  | some x => revokeOne x h
  | none => h

theorem revokeAll_eq (h : Hw) : revokeAll h = (List.range 96).foldl revokeGallery h := rfl

theorem mem_held_revoked {x : Account} {g y : Grant} {cls : Nat} :
    y ∈ (x.revoked g cls).held ↔ y ∈ x.held ∧ y.who ≠ g.who ∨ y = { g with amt := 3 } := by
  simp [Account.revoked]

@[simp] theorem gal_revokedHw (g : Grant) (h : Hw) (k : Nat) : gal (revokedHw g h) k = gal h k := by
  unfold gal revokedHw; rw [saturated_gal]; rfl

section
variable {h : Hw} {g : Nat}

/-- Revoking one gallery's grant: it holds none above the clock-gated cost, or one of its grants is revoked. -/
theorem revokeGallery_cases (h : Hw) (g : Nat) :
    (revokeGallery h g = h ∧ ∀ x ∈ h.wdn.vcore.held, x.who = .gallery g → x.amt ≤ 3) ∨
      ∃ x : Grant, x.who = .gallery g ∧ revokeGallery h g = revokeOne x h := by
  unfold revokeGallery
  cases e : h.wdn.vcore.held.find? (fun x => x.who == .gallery g && decide (3 < x.amt)) with
  | none => exact .inl ⟨rfl, fun x m who => by simpa [who] using List.find?_eq_none.1 e x m⟩
  | some x =>
    have p := List.find?_some e
    simp only [Bool.and_eq_true, beq_iff_eq] at p
    exact .inr ⟨x, p.1, rfl⟩

theorem moves_revokeGallery : Moves 0 h (revokeGallery h g) := by
  obtain ⟨e, -⟩ | ⟨x, -, e⟩ := revokeGallery_cases h g
  · rw [e]; exact .refl h
  · rw [e]; exact moves_revokeOne

theorem revokeGallery_low {x : Grant} (m : x ∈ (revokeGallery h g).wdn.vcore.held) (who : x.who = .gallery g) : x.amt ≤ 3 := by
  obtain ⟨e, low⟩ | ⟨y, own, e⟩ := revokeGallery_cases h g
  · rw [e] at m; exact low x m who
  · rw [e, revokeOne_vcore, mem_held_revoked] at m
    obtain ⟨-, other⟩ | rfl := m
    · exact absurd (who.trans own.symm) other
    · exact Nat.le_refl 3

theorem revokeGallery_others {x : Grant} (n : x.who ≠ .gallery g) : x ∈ (revokeGallery h g).wdn.vcore.held ↔ x ∈ h.wdn.vcore.held := by
  obtain ⟨e, -⟩ | ⟨y, own, e⟩ := revokeGallery_cases h g
  · rw [e]
  · rw [e, revokeOne_vcore, mem_held_revoked, own]
    refine ⟨fun m => ?_, fun m => .inl ⟨m, n⟩⟩
    obtain ⟨m, -⟩ | e := m
    · exact m
    · exact absurd (congrArg Grant.who e) n

theorem revokeGallery_stalls {x : Grant} (m : x ∈ h.wdn.vcore.held) (who : x.who = .gallery g) (above : 3 < x.amt) :
    (gal (revokeGallery h g) g).stalled = true := by
  obtain ⟨-, low⟩ | ⟨y, own, e⟩ := revokeGallery_cases h g
  · exact absurd (low x m who) (Nat.not_le.2 above)
  · rw [e, revokeOne_gallery own, gal_modGal_self]

theorem gal_revokeGallery_ne {k : Nat} (n : k ≠ g) : gal (revokeGallery h g) k = gal h k := by
  obtain ⟨e, -⟩ | ⟨y, own, e⟩ := revokeGallery_cases h g
  · rw [e]
  · rw [e, revokeOne_gallery own, gal_modGal_ne _ _ n, gal_revokedHw]
end

/-- From `h` to `k` the grants of galleries 0 to `n - 1` have been revoked. -/
structure RevokedBelow (n : Nat) (h k : Hw) : Prop where
  moves : Moves 0 h k
  low : ∀ x ∈ k.wdn.vcore.held, ∀ g, g < n → x.who = .gallery g → x.amt ≤ 3
  others : ∀ x : Grant, (∀ g, g < n → x.who ≠ .gallery g) → (x ∈ k.wdn.vcore.held ↔ x ∈ h.wdn.vcore.held)
  stalls : ∀ x ∈ h.wdn.vcore.held, ∀ g, g < n → x.who = .gallery g → 3 < x.amt → (gal k g).stalled = true

theorem RevokedBelow.next {n : Nat} {h k : Hw} (r : RevokedBelow n h k) : RevokedBelow (n + 1) h (revokeGallery k n) where
  moves := r.moves.trans moves_revokeGallery
  low x m g hg who := by
    by_cases e : g = n
    · subst e; exact revokeGallery_low m who
    · exact r.low x ((revokeGallery_others (by simpa [who] using e)).1 m) g (by omega) who
  others x no := (revokeGallery_others (no n (by omega))).trans (r.others x fun g hg => no g (by omega))
  stalls x m g hg who above := by
    by_cases e : g = n
    · subst e
      refine revokeGallery_stalls ((r.others x fun j hj => ?_).2 m) who above
      rw [who]
      exact fun same => absurd (Requester.gallery.inj same) (by omega)
    · rw [gal_revokeGallery_ne e]
      exact r.stalls x m g (by omega) who above

theorem revokedBelow_fold (n : Nat) (h : Hw) : RevokedBelow n h ((List.range n).foldl revokeGallery h) := by
  induction n with
  | zero => exact ⟨.refl h, fun _ _ _ l => absurd l (by omega), fun _ _ => Iff.rfl, fun _ _ _ l => absurd l (by omega)⟩
  | succ n ih => rw [List.range_succ, List.foldl_append]; exact ih.next

/-! ## THERMAL_TRIP and its end -/

section
variable {h : Hw}

/-- The hardware in a thermal trip, every gallery's grant revoked. -/
def tripped (h : Hw) : Hw := revokeAll { h with wdn := { h.wdn with trip := true } }

theorem thermalTrip_hot (e : 16 * 115 ≤ hottest h.wdn) (n : h.wdn.trip = false) : thermalTrip h = setLgrEvt 2 (tripped h) :=
  if_pos ⟨e, by simp [n]⟩
theorem thermalTrip_not (n : hottest h.wdn < 16 * 115 ∨ h.wdn.trip = true) : thermalTrip h = h := by
  refine if_neg fun ⟨e, off⟩ => ?_
  rcases n with n | n
  · omega
  · simp [n] at off

theorem revokedBelow_tripped : RevokedBelow 96 { h with wdn := { h.wdn with trip := true } } (tripped h) := by
  rw [tripped, revokeAll_eq]; exact revokedBelow_fold 96 _

theorem tripped_trip : (tripped h).wdn.trip = true := by rw [revokedBelow_tripped.moves.frame]; rfl
theorem tripped_wardenOnly : WardenOnly h (tripped h) := revokedBelow_tripped.moves.wardenOnly
end

/-- Settles O33: the junctions decide through the hottest of them; a trip revokes gallery after gallery (`revokedBelow_fold`). -/
theorem heatLimits : Obligations.HeatLimits := by
  intro s W put lim js
  refine ⟨fun l85 => ?step, fun hot off => yields_of rfl ?trip, fun n => becomes_of rfl (thermalTrip_not ?quiet),
    fun cool => becomes_of rfl (if_pos ((hottest_lt (by decide)).2 cool)),
    fun hot => becomes_of rfl (if_neg (Int.not_lt.2 ((le_hottest (by decide)).2 hot)))⟩
  case step =>
    have far : (0 : Int) ≤ 16 * (s.hw.wdn.thermLimit : Int) - 80 := by have l : 85 ≤ s.hw.wdn.thermLimit := l85; omega
    refine ⟨fun hot => ⟨fun above => ?lower, fun low => ?floor⟩, fun cool => ?restore, fun warm below => ?between⟩
    case lower => exact becomes_of rfl ((thermalStep_hot ((tooHot_iff l85).2 hot)).trans (lowerCeil_above above (by decide)))
    case floor => exact becomes_of rfl ((thermalStep_hot ((tooHot_iff l85).2 hot)).trans (lowerCeil_floor low))
    case restore => exact becomes_of rfl (thermalStep_cool ((hottest_le far).2 cool))
    case between => exact becomes_of rfl (thermalStep_between ((not_tooHot_iff l85).2 below) (Int.not_le.2 ((lt_hottest far).2 warm)))
  case trip =>
    rw [thermalTrip_hot ((le_hottest (by decide)).2 hot) off]
    have r := revokedBelow_tripped (h := s.hw)
    have on := tripped_trip (h := s.hw)
    have frame := tripped_wardenOnly (h := s.hw)
    -- how the grants were revoked is of no account from here on
    generalize tripped s.hw = k at r on frame ⊢
    have trip : (setLgrEvt 2 k).wdn.trip = true := (congrArg Warden.trip (setLgrEvt_wdn ..)).trans on
    refine ⟨frame.trans setLgrEvt_wardenOnly, trip, ?_, ?_, ?_, ?_⟩
    · simp [galsWithheld, trip]
    · simp [pulsesWithheld, galsWithheld, trip]
    · rw [setLgrEvt_wdn]; exact r.low
    · simp only [gal, setLgrEvt_gal]; exact r.stalls
  case quiet => exact n.imp_left (hottest_lt (by decide)).2

end Sys2Proof.Machine
end

section
/-!
A wing's entry to S1 and S2 (02 R39; 07 R212; 08 R230): its galleries' grants are lowered one after the other, and in S2 what they hold is lost.
-/
namespace Sys2Proof.Machine

/-- The wing's galleries, as blocks that ask for grains. -/
def wingBlocks (w n : Nat) : List Requester := (List.range n).map (fun i => .gallery (8 * w + i))

theorem mem_wingBlocks {w n : Nat} {r : Requester} : r ∈ wingBlocks w n ↔ ∃ i, i < n ∧ r = .gallery (8 * w + i) := by
  simp [wingBlocks, eq_comm]

theorem wingBlocks_succ (w n : Nat) : wingBlocks w (n + 1) = wingBlocks w n ++ [.gallery (8 * w + n)] := by
  simp [wingBlocks, List.range_succ]

/-- The account with each of the wing's first `n` galleries lowered to `keep`. -/
def lowerWing (w keep n : Nat) (x : Account) : Account := (wingBlocks w n).foldl (fun x r => x.lower r keep) x

theorem lowerWing_succ (w keep n : Nat) (x : Account) : lowerWing w keep (n + 1) x = (lowerWing w keep n x).lower (.gallery (8 * w + n)) keep := by
  rw [lowerWing, wingBlocks_succ, List.foldl_append]; rfl

theorem heldBy_lowerWing_mine {w n : Nat} (keep : Nat) (x : Account) {r : Requester} (m : ∃ i, i < n ∧ r = .gallery (8 * w + i)) :
    (lowerWing w keep n x).heldBy r = min keep (x.heldBy r) := by
  rw [lowerWing, heldBy_lowerAll, if_pos (mem_wingBlocks.2 m)]
theorem heldBy_lowerWing_other {w n : Nat} (keep : Nat) (x : Account) {r : Requester} (m : ¬∃ i, i < n ∧ r = .gallery (8 * w + i)) :
    (lowerWing w keep n x).heldBy r = x.heldBy r := by
  rw [lowerWing, heldBy_lowerAll, if_neg (mt mem_wingBlocks.1 m)]

/-- A gallery that drops to its clock-gated cost, or is power-gated (R45). -/
theorem grainRelease_clockGated (g : Nat) (h : Hw) : grainRelease (.gallery g) 0 h = setAcct h 0 (h.wdn.vcore.lower (.gallery g) 3) := rfl
theorem grainRelease_powerGated (g : Nat) (h : Hw) : grainRelease (.gallery g) 3 h = setAcct h 0 (h.wdn.vcore.lower (.gallery g) 0) := rfl

/-! ## S1 -/

section
variable {w : Nat} {h : Hw}

/-- The wing in S1 from now on. -/
def wingInS1 (w : Nat) (h : Hw) : Hw := modWing h w (fun W => { W with sleep := 1, since := now h, waking := false })

theorem clockGate_fold (w n : Nat) (h : Hw) :
    (List.range n).foldl (fun h i => grainRelease (.gallery (8 * w + i)) 0 h) h = setAcct h 0 (lowerWing w 3 n h.wdn.vcore) := by
  induction n with
  | zero => rfl
  | succ n ih => rw [List.range_succ, List.foldl_append, ih, lowerWing_succ, List.foldl_cons, List.foldl_nil, grainRelease_clockGated]; rfl

/-- The wing's galleries are idle. -/
def WingIdle (h : Hw) (w : Nat) : Prop := ∀ i, i < 8 → galBusy h (8 * w + i) = false

theorem wingIdle_iff : (List.range 8).any (fun i => galBusy h (8 * w + i)) = false ↔ WingIdle h w := by
  simp [WingIdle, List.any_eq_false]

theorem s1Entry_enters (runs : (wing h w).sleep = 0) (quiet : wingRunnable h w = false) (idle : WingIdle h w) :
    s1Entry w h = setAcct (wingInS1 w h) 0 (lowerWing w 3 8 h.wdn.vcore) := by
  unfold s1Entry
  rw [if_neg (by rw [wingIdle_iff.2 idle]; simp [runs, quiet])]
  exact clockGate_fold w 8 (wingInS1 w h)

theorem s1Entry_stays (n : (wing h w).sleep ≠ 0 ∨ wingRunnable h w = true ∨ ∃ i, i < 8 ∧ galBusy h (8 * w + i) = true) : s1Entry w h = h := by
  refine if_pos ?_
  rcases n with n | n | ⟨i, hi, n⟩
  · simp [n]
  · simp [n]
  · have busy : (List.range 8).any (fun i => galBusy h (8 * w + i)) = true := List.any_eq_true.2 ⟨i, List.mem_range.2 hi, n⟩
    simp only [busy, Bool.or_true]
end

/-! ## S2 -/

/-- A gallery whose stationary sets and accumulators are undefined from epoch `e` on (07 R212; 08 R230). -/
def Gallery.contentsLost (G : Gallery) (e : Nat) : Gallery :=
  { G with set0 := { G.set0 with undef := true }, set1 := { G.set1 with undef := true }, acc := [], accZero := false, accEpoch := e }

/-- One gallery of the wing power-gated. -/
def powerGate (w : Nat) (h : Hw) (i : Nat) : Hw :=
  modGal (grainRelease (.gallery (8 * w + i)) 3 (freshEpoch h).2) (8 * w + i) (fun G => G.contentsLost (freshEpoch h).1)

/-- From `h` to `k` the wing's first `n` galleries have been power-gated. -/
structure PowerGated (w n : Nat) (h k : Hw) : Prop where
  frame : k = { h with free := h.free + n, gal := k.gal, wdn := { h.wdn with vcore := lowerWing w 0 n h.wdn.vcore } }
  mine : ∀ i, i < n → gal k (8 * w + i) = (gal h (8 * w + i)).contentsLost (h.free + i)
  others : ∀ g, (∀ i, i < n → g ≠ 8 * w + i) → gal k g = gal h g

section
variable {w n : Nat} {h k : Hw}

theorem powerGate_frame (w : Nat) (k : Hw) (i : Nat) : powerGate w k i = { k with
    free := k.free + 1, gal := (powerGate w k i).gal, wdn := { k.wdn with vcore := k.wdn.vcore.lower (.gallery (8 * w + i)) 0 } } := by
  unfold powerGate; rw [grainRelease_powerGated]; rfl

theorem PowerGated.next (p : PowerGated w n h k) : PowerGated w (n + 1) h (powerGate w k n) := by
  have here : ∀ g, gal (powerGate w k n) g = if g = 8 * w + n then (gal k g).contentsLost k.free else gal k g := by
    intro g
    unfold powerGate
    rw [gal_modGal]
    split
    · next e => subst e; rfl
    · rfl
  have free : k.free = h.free + n := by rw [p.frame]
  refine ⟨?_, fun i hi => ?_, fun g no => ?_⟩
  · rw [lowerWing_succ]
    refine (powerGate_frame w k n).trans ?_
    exact (congrArg (fun x : Hw => { x with
      free := x.free + 1, gal := (powerGate w k n).gal, wdn := { x.wdn with vcore := x.wdn.vcore.lower (.gallery (8 * w + n)) 0 } }) p.frame :)
  · rw [here]
    split
    · next e =>
      obtain rfl : i = n := by omega
      rw [p.others _ fun j hj => by omega, free]
    · next e => exact p.mine i (by omega)
  · rw [here, if_neg (no n (by omega))]
    exact p.others g fun i hi => no i (by omega)

theorem powerGate_fold (w n : Nat) (h : Hw) : PowerGated w n h ((List.range n).foldl (powerGate w) h) := by
  induction n with
  | zero => exact ⟨rfl, fun i l => absurd l (by omega), fun _ _ => rfl⟩
  | succ n ih => rw [List.range_succ, List.foldl_append]; exact ih.next
end

section
variable {w : Nat} {h : Hw}

/-- The wing in S2 from now on. -/
def wingInS2 (w : Nat) (h : Hw) : Hw := modWing h w (fun W => { W with sleep := 2, since := now h })

theorem s2Entry_enters (s1 : (wing h w).sleep = 1) (still : (wing h w).waking = false) (long : (wing h w).since + 100 * h.wdn.s2idle ≤ now h)
    (closed : ∀ i, i < 8 → (gal h (8 * w + i)).group = none) : s2Entry w h = (List.range 8).foldl (powerGate w) (wingInS2 w h) := by
  have none : (List.range 8).any (fun i => (gal h (8 * w + i)).group.isSome) = false := by
    simpa [List.any_eq_false] using closed
  unfold s2Entry
  dsimp only
  rw [if_neg (by rw [none]; simp [s1, still, Nat.not_lt.2 long])]
  rfl

theorem s2Entry_stays (n : (wing h w).sleep ≠ 1 ∨ (wing h w).waking = true ∨ now h < (wing h w).since + 100 * h.wdn.s2idle ∨
    ∃ i, i < 8 ∧ (gal h (8 * w + i)).group ≠ none) : s2Entry w h = h := by
  refine if_pos ?_
  rcases n with n | n | n | ⟨i, hi, n⟩
  · simp [n]
  · simp [n]
  · simp [n]
  · have opened : (List.range 8).any (fun i => (gal h (8 * w + i)).group.isSome) = true :=
      List.any_eq_true.2 ⟨i, List.mem_range.2 hi, Option.isSome_iff_ne_none.2 n⟩
    simp only [opened, Bool.or_true]
end

/-- Settles O34: both entries lower the wing's galleries in order (`lowerWing`); S2 loses their contents (`powerGate_fold`). -/
theorem wingsToSleep : Obligations.WingsToSleep := by
  intro w s hw W mine
  have ok : decide (w < 12) = true := decide_eq_true hw
  refine ⟨fun runs quiet idle => yields_of ok ?s1, fun n => becomes_of ok (s1Entry_stays n), fun s1 still long closed => yields_of ok ?s2,
    fun n => becomes_of ok (s2Entry_stays n)⟩
  case s1 =>
    rw [s1Entry_enters runs quiet idle]
    exact ⟨rfl, (wing_setAcct ..).trans (wing_modWing_self ..), fun v n => (wing_setAcct ..).trans ((wing_modWing ..).trans (if_neg n)),
      fun r m => heldBy_lowerWing_mine 3 _ m, fun r m => heldBy_lowerWing_other 3 _ m⟩
  case s2 =>
    obtain ⟨frame, lost, others⟩ := powerGate_fold w 8 (wingInS2 w s.hw)
    rw [s2Entry_enters s1 still long closed]
    -- the order in which the galleries were power-gated is of no account from here on
    generalize (List.range 8).foldl (powerGate w) (wingInS2 w s.hw) = k at frame lost others ⊢
    have wings : k.wing = (wingInS2 w s.hw).wing := by rw [frame]
    have vcore : k.wdn.vcore = lowerWing w 0 8 s.hw.wdn.vcore := by rw [frame]; rfl
    refine ⟨?_, ?_, fun v n => ?_, fun r m => ?_, fun r m => ?_, fun g out => others g fun i hi => by omega, fun i hi => lost i hi⟩
    · rw [wings, vcore]; exact frame
    · rw [wing, wings]; exact wing_modWing_self ..
    · rw [wing, wings]; exact (wing_modWing ..).trans (if_neg n)
    · rw [vcore, heldBy_lowerWing_mine 0 _ m, Nat.zero_min]
    · rw [vcore, heldBy_lowerWing_other 0 _ m]

end Sys2Proof.Machine
end

section
/-!
Steps (95; 02 R34) and the state at cold power-on (log 7).
-/
namespace Sys2Proof.Machine

/-- Time that passes moves the AON counter of a powered module and nothing else (R34). -/
theorem tickAon_eq (h : Hw) : tickAon h = { h with wdn := { h.wdn with aon := if h.wdn.power then h.wdn.aon + 1 else h.wdn.aon } } := by
  unfold tickAon
  split <;> rfl

/-- A command leaves the commands that wait behind it. -/
theorem exec_pending {c : Instr} {s t : State} (e : exec c s = .next t) : t.pending = s.pending := by
  obtain ⟨f, x⟩ := exec_act c
  exact (act_cases ((x s).symm.trans e)).2.1

/-- Settles O2: a command never touches the queue (`exec_act`), and an empty queue lets one count pass. -/
theorem stepTakesOne : Obligations.StepTakesOne := by
  refine ⟨fun s t e => ?command, fun h => ⟨tickAon h, step_empty h, ?tick⟩⟩
  case command =>
    obtain ⟨pending, h⟩ := s
    cases pending with
    | nil => cases e; rfl
    | cons c r => exact exec_pending ((step_cons c r h).symm.trans e)
  case tick =>
    rw [tickAon_eq]
    exact ⟨rfl, rfl⟩

/-- At cold power-on queue 0 alone exists (18 R464). -/
theorem reset_queue_configured (q : Nat) : (tgetD State.reset.hw.host.queues q {}).configured = true ↔ q = 0 := by
  by_cases e : q = 0
  · subst e; exact iff_of_true rfl rfl
  · simp [tgetD, tget, e]

/-- Settles O5: the initial values of the hardware, read off. -/
theorem resetState : Obligations.ResetState :=
  ⟨rfl, rfl, rfl, rfl, rfl, rfl, ⟨rfl, rfl, rfl⟩, ⟨rfl, rfl, rfl⟩, reset_queue_configured, ⟨rfl, rfl, rfl⟩, rfl, rfl, rfl, rfl, rfl, rfl,
    fun _ => rfl, rfl, rfl⟩

end Sys2Proof.Machine
end

section
/-!
Instruction words (05 R124 to R129): the bits of a word, the fields read back from them, and the word made again from its fields.
-/
namespace Sys2Proof.Machine

/-- No two instructions share a class and an opcode (05 R129, 06 R166). -/
theorem decodeOp_cls_op (o : IsaOp) : decodeOp o.cls o.op = some o := by cases o <;> rfl

theorem decodeOp_eq_some {cls : BitVec 4} {op : BitVec 8} {o : IsaOp} (e : decodeOp cls op = some o) : o.cls = cls ∧ o.op = op := by
  simpa using List.find?_some e

theorem extractLsb'_eq_of_getLsbD {w n k : Nat} {x : BitVec w} {y : BitVec n} (e : ∀ i < n, x.getLsbD (k + i) = y.getLsbD i) :
    x.extractLsb' k n = y :=
  BitVec.eq_of_getLsbD_eq fun i hi => by simp [hi, e i hi]

section
variable (o : IsaOp) (f : Fields)

/-- The layout of R124, bit by bit. -/
theorem getLsbD_encodeWord (i : Nat) : (encodeWord o f).getLsbD i =
    if i < 44 then f.body.getLsbD i else if i < 48 then f.mod.getLsbD (i - 44) else if i < 49 then f.gn
    else if i < 52 then f.gd.getLsbD (i - 49) else if i < 56 then o.cls.getLsbD (i - 52) else o.op.getLsbD (i - 56) := by
  have parts : (encodeWord o f).getLsbD i = (o.op ++ o.cls ++ f.gd ++ BitVec.ofBool f.gn ++ f.mod ++ f.body).getLsbD i := rfl
  rw [parts]
  simp only [BitVec.getLsbD_append, BitVec.getLsbD_ofBool]
  grind

@[simp] theorem encodeWord_op : (encodeWord o f).extractLsb' 56 8 = o.op :=
  extractLsb'_eq_of_getLsbD fun i hi => by rw [getLsbD_encodeWord]; grind
@[simp] theorem encodeWord_cls : (encodeWord o f).extractLsb' 52 4 = o.cls :=
  extractLsb'_eq_of_getLsbD fun i hi => by rw [getLsbD_encodeWord]; grind
@[simp] theorem encodeWord_gd : (encodeWord o f).extractLsb' 49 3 = f.gd :=
  extractLsb'_eq_of_getLsbD fun i hi => by rw [getLsbD_encodeWord]; grind
@[simp] theorem encodeWord_mod : (encodeWord o f).extractLsb' 44 4 = f.mod :=
  extractLsb'_eq_of_getLsbD fun i hi => by rw [getLsbD_encodeWord]; grind
@[simp] theorem encodeWord_body : (encodeWord o f).extractLsb' 0 44 = f.body :=
  extractLsb'_eq_of_getLsbD fun i hi => by rw [getLsbD_encodeWord]; grind

@[simp] theorem fieldsOf_encodeWord : fieldsOf (encodeWord o f) = f := by
  simp only [fieldsOf, encodeWord_gd, encodeWord_mod, encodeWord_body, getLsbD_encodeWord]
  rfl
end

/-- Every bit of a word belongs to its opcode, its class or one of its fields. -/
theorem encodeWord_fieldsOf {w : DWord} {o : IsaOp} (cls : o.cls = w.extractLsb' 52 4) (op : o.op = w.extractLsb' 56 8) :
    encodeWord o (fieldsOf w) = w := by
  refine BitVec.eq_of_getLsbD_eq fun i hi => ?_
  simp only [getLsbD_encodeWord, fieldsOf, op, cls, BitVec.getLsbD_extractLsb']
  grind

theorem decodeWord_encodeWord (o : IsaOp) (f : Fields) : decodeWord (encodeWord o f) = some (o, f) := by
  simp [decodeWord, decodeOp_cls_op]

theorem encodeWord_of_decodeWord {w : DWord} {o : IsaOp} {f : Fields} (e : decodeWord w = some (o, f)) : encodeWord o f = w := by
  obtain ⟨_, found, same⟩ := Option.map_eq_some_iff.1 e
  cases same
  obtain ⟨cls, op⟩ := decodeOp_eq_some found
  exact encodeWord_fieldsOf cls op

/-- Settles O6: class and opcode name one instruction (`decodeOp_cls_op`), and no bit lies outside the fields (`encodeWord_fieldsOf`). -/
theorem wordCodec : Obligations.WordCodec := ⟨decodeWord_encodeWord, fun _ _ _ => encodeWord_of_decodeWord⟩

end Sys2Proof.Machine
end

section
/-!
Issue (05 R125; 04 R106, R117): every instruction runs in the shared frame, and a thread that is READY stays so when its context stops.
-/
namespace Sys2Proof.Machine

/-! ## A thread that is READY when a context stops (04 R87, R108) -/

theorem forgetDrain_gal (c g : Nat) (op : ArrOp) (h : Hw) : (forgetDrain c g op h).gal = h.gal := by
  have forgets : ∀ (l : List Nat) (k : Nat) (j : Nat → ObjMem → ObjMem) (h : Hw), (l.foldl (fun h n => modMem h k (j n)) h).gal = h.gal :=
    fun l k j h => foldl_keeps (·.gal) l (fun h n => modMem h k (j n)) (fun _ _ => rfl) h
  unfold forgetDrain
  simp only [freshEpoch]
  repeat' split
  all_goals simp [forgets]

section
variable {th : Thr} {h : Hw}

/-- Of an abandoned group's threads only the holder changes its state, and it is READY at its TOPEN. -/
theorem ready_abandonGroup (c g : Nat) (r : (thread h th).st = .ready) : (thread (abandonGroup c g h) th).st = .ready := by
  unfold abandonGroup
  split
  · exact r
  · next G open_ =>
    simp only [leaveConvoys, thread_modWing, freshEpoch]
    rw [thread_modGal _ _ _ rfl, thread_modGal _ _ _ rfl]
    by_cases holds : th = { g, t := G.holder }
    · rw [holds, thread_modThr_self]
    · rw [thread_modThr_ne _ _ holds]
      split
      · simpa only [thread, gal, forgetDrain_gal] using r
      · exact r

theorem ready_dropLoads (c : Nat) (r : (thread h th).st = .ready) : (thread (dropLoads c h) th).st = .ready := by
  have kept := foldl_keeps (thread · th) (partGals h (c / 4)) _
    (fun h g => thread_modGal h g (fun G => { G with loader := G.loader.filter (fun L => decide (L.ctx ≠ c)) }) rfl th) h
  unfold dropLoads
  rw [kept, r]

theorem ready_abandonAll (c : Nat) (r : (thread h th).st = .ready) : (thread (abandonAll c h) th).st = .ready := by
  refine ready_dropLoads c (List.foldlRecOn (motive := fun k => (thread k th).st = .ready) _ _ r fun k rk g _ => ?_)
  split
  · split
    · exact ready_abandonGroup c g rk
    · exact rk
  · exact rk

theorem ready_stopContext (c : Nat) (q : FaultRec) (r : (thread h th).st = .ready) : (thread (stopContext c q h) th).st = .ready := by
  unfold stopContext
  split
  · exact r
  · exact ready_abandonAll c r

theorem takeFault_eq {c : Nat} (cause pc : Nat) (x : thrCtx h th = some c) : takeFault th cause pc h =
    stopContext c { cause, gallery := logicalOf h (c / 4) th.g, thread := th.t - (ctx h c).first, pc } h := by simp only [takeFault, x]

theorem ready_takeFault {c : Nat} (cause pc : Nat) (x : thrCtx h th = some c) (r : (thread h th).st = .ready) :
    (thread (takeFault th cause pc h) th).st = .ready := by
  rw [takeFault_eq cause pc x]
  exact ready_stopContext c _ r

/-- Only a thread that waits in a HALT can end (05 R138). -/
theorem tryHalt_of_ready (r : (thread h th).st = .ready) : tryHalt th h = h := by
  unfold tryHalt
  rw [r]
end

/-- A command whose hardware is that of a thread taking a program fault (04 R117). -/
theorem faults_of_takeFault {ok : Bool} {F : Hw → Hw} {th : Thr} {c cause pc : Nat} {s : State} (y : ok = true) (x : thrCtx s.hw th = some c)
    (e : F s.hw = takeFault th cause pc (unlatch th s.hw)) : Faults (act ok F s) s th c cause pc := by
  have stops := takeFault_eq cause pc ((thrCtx_unlatch th s.hw th).trans x)
  rw [ctx_unlatch, logicalOf_unlatch] at stops
  refine ⟨_, act_next y, rfl, ?_, fun running => ?_⟩
  · rw [e, stops, ctx_stopContext, ctx_unlatch]
    split <;> simp [*]
  · rw [e, stops, ctx_stopContext, ctx_unlatch]
    simp [running]

/-! ## The shared frame -/

/-- What HALT's command does once its instruction has run (05 R138). -/
def afterHalt (th : Thr) (f : Fields) (h k : Hw) : Hw := if issued h th .halt f && (thread h th).st == .ready then tryHalt th k else k

/-- What BAR's command does once its instruction has run: a fabric barrier's last arrival is sent (19 R514). -/
def afterBar (th : Thr) (f : Fields) (h k : Hw) : Hw :=
  match (thread k th).st, thrCtx k th with
  | .blocked (.barrier 2 n _ _), some c => if issued h th .bar f && (thread h th).st == .ready then memberArrive c n k else k
  | _, _ => k

/-- An instruction's command: the shared frame around its own rule `body`, and `after` it what touches only a thread that waits. -/
structure Framed (i : Instr) (o : IsaOp) (th : Thr) (f : Fields) (body : Nat → Hw → IRes) (after : Hw → Hw → Hw) : Prop where
  exec_eq : ∀ s, exec i s = act (okThr th) (fun h => after h (runIsa o th f body h)) s
  after_ready : ∀ h k, (thread k th).st = .ready → after h k = k

theorem framed_halt (th : Thr) (f : Fields) : Framed (.halt th f) .halt th f (haltBody th f) (afterHalt th f) where
  exec_eq _ := rfl
  after_ready h k r := by rw [afterHalt, tryHalt_of_ready r, ite_self]

theorem framed_bar (th : Thr) (f : Fields) : Framed (.bar th f) .bar th f (barBody th f) (afterBar th f) where
  exec_eq _ := rfl
  after_ready h k r := by rw [afterBar, r]

/-- Every instruction of the set runs in the shared frame, and all but HALT and BAR in it alone. -/
theorem framed {i : Instr} {o : IsaOp} {th : Thr} {f : Fields} (e : i.isa? = some (o, th, f)) : ∃ body after, Framed i o th f body after := by
  cases i
  case halt => cases e; exact ⟨_, _, framed_halt th f⟩
  case bar => cases e; exact ⟨_, _, framed_bar th f⟩
  all_goals cases e
  all_goals exact ⟨_, fun _ k => k, fun _ => rfl, fun _ _ _ => rfl⟩

/-! ## The guard (05 R125) -/

theorem guardPass_eq_xor (T : Thread) (f : Fields) : guardPass T f = ((T.preg f.gd.toNat).getLsbD 0 ^^ f.gn) := rfl

/-- Predicate 0 reads as all ones (04 R82). -/
theorem guardPass_zero {f : Fields} (T : Thread) (gd : f.gd = 0) (gn : f.gn = false) : guardPass T f = true := by
  simp [guardPass_eq_xor, gd, gn]

theorem finish_next_unlatch (th : Thr) (h : Hw) (d : Nat) :
    finish th (unlatch th h) (.next (unlatch th h) d) = modThr (unlatch th h) th (·.stepped (gal h th.g).cycle d) := by
  refine modThr_congr ?_
  simp only [thread_unlatch, gal_unlatch_self, Thread.stepped]

/-- Settles O7: skipped or refused, the thread stays READY, so that nothing follows the shared frame (`framed`). -/
theorem guardSkips : Obligations.GuardSkips := by
  refine ⟨fun i o th f c s e w latch ready x => ?_, fun T f => guardPass_zero T⟩
  obtain ⟨body, after, exec_eq, after_ready⟩ := framed e
  have issues : issued s.hw th o f = true := by simp only [issued, latch, beq_self_eq_true]
  rw [exec_eq]
  refine ⟨fun legal closed => ⟨_, act_next w, rfl, ?_⟩, fun illegal => faults_of_takeFault w x ?_⟩
  · have skips : runIsa o th f body s.hw = modThr (unlatch th s.hw) th (·.stepped (gal s.hw th.g).cycle 1) :=
      (runIsa_skipped issues legal closed).trans (finish_next_unlatch ..)
    rw [skips, after_ready _ _ (by rw [thread_modThr_self]; rfl)]
    exact ⟨by rw [thread_modThr_self, thread_unlatch], onlyThread_modThr ..⟩
  · have refused := runIsa_illegal (body := body) issues illegal
    rw [refused]
    exact after_ready _ _ (ready_takeFault _ _ ((thrCtx_unlatch ..).trans x) (by rw [thread_unlatch, ready]))

end Sys2Proof.Machine
end

section
/-!
Scalar arithmetic (05 R139): the two-operand forms, the condition codes, and what each instruction leaves.
-/
namespace Sys2Proof.Machine

/-! ## The operations in the terms of R139 -/

theorem smin_eq (a b : DWord) : smin a b = if a.toInt ≤ b.toInt then a else b := by
  simp only [smin, BitVec.slt_iff_toInt_lt]
  rcases Int.lt_or_le b.toInt a.toInt with less | le
  · rw [if_pos less, if_neg (Int.not_le.2 less)]
  · rw [if_neg (Int.not_lt.2 le), if_pos le]

theorem smax_eq (a b : DWord) : smax a b = if a.toInt ≤ b.toInt then b else a := by
  simp only [smax, BitVec.slt_iff_toInt_lt]
  rcases Int.lt_trichotomy a.toInt b.toInt with less | same | more
  · rw [if_pos less, if_pos (Int.le_of_lt less)]
  · rw [BitVec.eq_of_toInt_eq same, ite_self, ite_self]
  · rw [if_neg (Int.lt_asymm more), if_neg (Int.not_le.2 more)]

/-- A shift amount is bits [5:0] of the second operand. -/
theorem shamt_eq (b : DWord) : shamt b = (b.extractLsb' 0 6).toNat := by simp [shamt]

/-- The condition codes of R129 in terms of the values compared. -/
theorem condOf_eq {n : Nat} {a b : DWord} {r : Bool}
    (e : n = 0 ∧ r = decide (a = b) ∨ n = 1 ∧ r = decide (a ≠ b) ∨ n = 2 ∧ r = decide (a.toInt < b.toInt) ∨
      n = 3 ∧ r = decide (b.toInt ≤ a.toInt) ∨ n = 4 ∧ r = decide (a.toNat < b.toNat) ∨ n = 5 ∧ r = decide (b.toNat ≤ a.toNat)) :
    condOf n a b = some r := by
  rcases e with ⟨rfl, rfl⟩ | ⟨rfl, rfl⟩ | ⟨rfl, rfl⟩ | ⟨rfl, rfl⟩ | ⟨rfl, rfl⟩ | ⟨rfl, rfl⟩
  · rfl
  · exact congrArg some (Bool.eq_iff_iff.2 (bne_iff_ne.trans decide_eq_true_iff.symm))
  · rfl
  · simp [condOf, BitVec.slt, ← decide_not]
  · rfl
  · simp [condOf, BitVec.ult, ← decide_not]

/-! ## Operands -/

/-- `b` is the second operand of format S or of format I, as bit 0 of MOD says, with the unused field of format S zero (R127 to R129). -/
def SecondOperand (T : Thread) (f : Fields) (b : DWord) : Prop :=
  f.m 0 = false ∧ f.low29 = 0 ∧ b = T.sreg f.b ∨ f.m 0 = true ∧ b = f.imm34.signExtend 64

section
variable {T : Thread} {f : Fields} {b : DWord}

theorem SecondOperand.opB_eq (e : SecondOperand T f b) : (f.m 0 || f.low29 == 0) = true ∧ opB T f = b := by
  rcases e with ⟨m, low, rfl⟩ | ⟨m, rfl⟩ <;> simp [opB, Fields.imm, *]

/-- The two-operand instructions permit no bit of MOD but bit 0. -/
theorem secondOperand_of_mod (e : f.mod = 0 ∧ f.low29 = 0 ∧ b = T.sreg f.b ∨ f.mod = 1 ∧ b = f.imm34.signExtend 64) :
    f.mod.toNat < 2 ∧ SecondOperand T f b := by
  rcases e with ⟨mod, low, second⟩ | ⟨mod, second⟩
  · exact ⟨by simp [mod], .inl ⟨by simp [Fields.m, mod], low, second⟩⟩
  · exact ⟨by simp [mod], .inr ⟨by simp [Fields.m, mod], second⟩⟩
end

section
variable {th : Thr} {f : Fields} {c : Nat} {s : State}

/-- A two-operand instruction writes its result to s[D]. -/
theorem leaves_scalar {o : IsaOp} {op : DWord → DWord → DWord} {d : Nat} {b x : DWord} (k : Carried o th f c s.hw)
    (e : f.mod.toNat < 2 ∧ SecondOperand (thread s.hw th) f b) (result : op ((thread s.hw th).sreg f.a) b = x) :
    Leaves (act (okThr th) (runIsa o th f (scalarBody op d th f)) s) s th (((thread s.hw th).setS f.d x).stepped (gal s.hw th.g).cycle d) := by
  obtain ⟨mod, e⟩ := e
  obtain ⟨ok, second⟩ := e.opB_eq
  have permitted : scalarOk f = true := by simp only [scalarOk, mod, ok, decide_true, Bool.and_self]
  have l := leaves_next (d := d) (body := scalarBody op d th f) (k := fun T => T.setS f.d (op (T.sreg f.a) (opB T f))) k
    (by simp [scalarBody, permitted]) rfl
  rwa [second, result] at l

/-- SMOV writes the value of its form to s[D]. -/
theorem leaves_smov {x : Thread → DWord} (k : Carried .smov th f c s.hw)
    (e : smovBody th f c (unlatch th s.hw) = .next (modThr (unlatch th s.hw) th (fun T => T.setS f.d (x T))) 1) :
    Leaves (exec (.smov th f) s) s th (((thread s.hw th).setS f.d (x (thread s.hw th))).stepped (gal s.hw th.g).cycle 1) :=
  leaves_next (k := fun T => T.setS f.d (x T)) k e rfl

@[simp] theorem setP_pc (T : Thread) (n : Nat) (x : BitVec 128) : (T.setP n x).pc = T.pc := by
  unfold Thread.setP
  split <;> rfl

/-- SCMP writes the result to every bit of the predicate named by D. -/
theorem leaves_scmp {b : DWord} {r : Bool} (k : Carried .scmp th f c s.hw) (pred : f.d < 8)
    (e : SecondOperand (thread s.hw th) f b)
    (result : condOf (f.mod.toNat / 2) ((thread s.hw th).sreg f.a) b = some r) :
    Leaves (exec (.scmp th f) s) s th
      (((thread s.hw th).setP f.d (if r then BitVec.allOnes 128 else 0)).stepped (gal s.hw th.g).cycle 1) := by
  obtain ⟨ok, second⟩ := e.opB_eq
  refine leaves_next (k := fun T => T.setP f.d (if r then BitVec.allOnes 128 else 0)) k ?_ (setP_pc ..)
  simp only [scmpBody, predOk, pred, ok, thread_unlatch, second, result, decide_true, Bool.and_self, Bool.not_true, Bool.false_eq_true, if_false]
end

/-- Settles O8: each form permitted by its fields, and the shared rule of the two-operand instructions (`leaves_scalar`). -/
theorem scalarArithmetic : Obligations.ScalarArithmetic := by
  intro th f c s
  refine ⟨fun k mod b low => ?copy, fun k mod a => ?imm, fun k mod a top => ?upper, fun b r k pred e cc => ?cmp, fun b e => ?ops⟩
  case copy => exact leaves_smov (x := fun T => T.sreg f.a) k (by simp [smovBody, mod, b, low])
  case imm => exact leaves_smov (x := fun _ => f.imm) k (by simp [smovBody, mod, a])
  case upper =>
    exact leaves_smov (x := fun T => f.imm34.extractLsb' 0 30 ++ (T.sreg f.d).extractLsb' 0 34) k (by simp [smovBody, mod, a, top])
  case cmp => exact leaves_scmp k pred e (condOf_eq cc)
  case ops =>
    have e := secondOperand_of_mod e
    exact ⟨(leaves_scalar · e rfl), (leaves_scalar · e rfl), (leaves_scalar · e rfl), (leaves_scalar · e rfl), (leaves_scalar · e rfl),
      (leaves_scalar · e rfl), (leaves_scalar · e (by rw [shamt_eq])), (leaves_scalar · e (by rw [shamt_eq])),
      (leaves_scalar · e (by rw [shamt_eq])), (leaves_scalar · e (smin_eq ..)), (leaves_scalar · e (smax_eq ..))⟩

end Sys2Proof.Machine
end

section
/-!
MADD and the posts of a gallery (05 R159; 04 R103; 13 R351): what a table, a thread and the module keep as a post is taken, applied and completed.
-/
namespace Sys2Proof.Machine

/-! ## A post taken (R159) -/

/-- What a change of a gallery makes of it decides the whole change. -/
theorem modGal_congr {h : Hw} {g : Nat} {j k : Gallery → Gallery} (e : j (gal h g) = k (gal h g)) : modGal h g j = modGal h g k := by
  have listed : ∀ i : Gallery → Gallery, modGal h g i = { h with gal := tput h.gal g (i (gal h g)) } := fun _ => rfl
  rw [listed, listed, e]

theorem addOperands_unlatch (th : Thr) (f : Fields) (c : Nat) (tiers : List Nat) (h : Hw) :
    addOperands th f c tiers (unlatch th h) = addOperands th f c tiers h := by
  simp only [addOperands, thread_unlatch, ctx_unlatch]

section
variable {th : Thr} {f : Fields} {c off : Nat} {o : Obj} {a : DWord} {adds : List (Nat × Word)} {h : Hw}

theorem addPost_eq (kind : PostKind) (arrived : Bool) (status : Nat) : (addPost th kind arrived status h).1 = withPost th kind arrived status h :=
  modGal_congr rfl

theorem maddBody_room (e : addOperands th f c [1, 2] h = .ok (a, o, off, adds)) (room : (gal h th.g).post.length < 64) :
    maddBody th f c (unlatch th h) = .next (withPost th (.madd c a (f.m 1) adds) false stOk (unlatch th h)) 1 := by
  simp [maddBody, addOperands_unlatch, e, slotFree, room, addPost_eq]

theorem maddBody_full (e : addOperands th f c [1, 2] h = .ok (a, o, off, adds)) (full : 64 ≤ (gal h th.g).post.length) :
    maddBody th f c (unlatch th h) = .again (unlatch th h) .postSlot := by
  simp [maddBody, addOperands_unlatch, e, slotFree, Nat.not_lt.2 full]
end

@[simp] theorem thread_withPost (th u : Thr) (kind : PostKind) (arrived : Bool) (status : Nat) (h : Hw) :
    thread (withPost th kind arrived status h) u = thread h u := thread_modGal _ _ _ rfl u

/-- An instruction that takes a slot of its gallery and goes on. -/
theorem yields_post {o : IsaOp} {th : Thr} {f : Fields} {c d : Nat} {s : State} {body : Nat → Hw → IRes} {kind : PostKind} {arrived : Bool}
    {status : Nat} (k : Carried o th f c s.hw) (b : body c (unlatch th s.hw) = .next (withPost th kind arrived status (unlatch th s.hw)) d) :
    Yields (act (okThr th) (runIsa o th f body) s) s fun h' =>
      h' = { s.hw with gal := h'.gal } ∧ thread h' th = (thread s.hw th).stepped (gal s.hw th.g).cycle d ∧
        (∀ u, u ≠ th → thread h' u = thread s.hw u) ∧
        (gal h' th.g).post = (gal s.hw th.g).post ++ [{ id := (gal s.hw th.g).postNext, thr := th.t, kind, arrived, status }] ∧
        (gal h' th.g).postNext = (gal s.hw th.g).postNext + 1 := by
  refine ⟨_, goes_of k b, rfl, rfl, ?_, fun u other => ?_, ?_, ?_⟩
  · rw [thread_modThr_self, thread_withPost, thread_unlatch]; rfl
  · rw [thread_modThr_ne _ _ other, thread_withPost, thread_unlatch]
  · simp [gal_modThr, withPost]
  · simp [gal_modThr, withPost]

/-- An instruction without room: its thread alone waits. -/
theorem leaves_again {o : IsaOp} {th : Thr} {f : Fields} {c : Nat} {s : State} {w : Wait} {body : Nat → Hw → IRes}
    (k : Carried o th f c s.hw) (b : body c (unlatch th s.hw) = .again (unlatch th s.hw) w) :
    Leaves (act (okThr th) (runIsa o th f body) s) s th { thread s.hw th with st := .blocked w } :=
  ⟨_, reissues_of k b, rfl, by rw [thread_modThr_self, thread_unlatch], onlyThread_modThr ..⟩

/-! ## A post applied (13 R351) -/

/-- Between `h` and `k` nothing differs but working memory's channels. -/
def WmcOnly (h k : Hw) : Prop := k = { h with wmc := k.wmc }

theorem WmcOnly.trans {h k l : Hw} (m : WmcOnly h k) (n : WmcOnly k l) : WmcOnly h l := by
  unfold WmcOnly at m n ⊢
  rw [n, m]

theorem wmcOnly_foldl {α : Type} {step : Hw → α → Hw} (e : ∀ h x, WmcOnly h (step h x)) (l : List α) (h : Hw) : WmcOnly h (l.foldl step h) :=
  List.foldlRecOn (motive := WmcOnly h) l step rfl fun k m x _ => m.trans (e k x)

theorem wmcOnly_dramAccess (c g : Nat) (o : Obj) (off len cls : Nat) (write : Bool) (thr : Option Thr) (h : Hw) :
    WmcOnly h (dramAccess c g o off len cls write thr h) := by
  unfold dramAccess
  split
  · rfl
  · refine wmcOnly_foldl (fun _ _ => ?_) _ h
    rfl

section
variable {g id c : Nat} {a : DWord} {fp : Bool} {adds : List (Nat × Word)} {p : Post} {o : Obj} {h : Hw}

/-- The accesses of a MADD's elements enter the channels' queues. -/
def addAccesses (c g : Nat) (o : Obj) (a : DWord) (adds : List (Nat × Word)) (h : Hw) : Hw :=
  adds.foldl (fun h (e : Nat × Word) => dramAccess c g o (addrOff a + e.1) 4 3 true none h) h

theorem wmcOnly_addAccesses : WmcOnly h (addAccesses c g o a adds h) := wmcOnly_foldl (fun _ _ => wmcOnly_dramAccess ..) adds h

theorem memorySideAdd_eq (found : (gal h g).post.find? (fun p => p.id = id && !p.arrived) = some p) (kind : p.kind = .madd c a fp adds)
    (obj : (ctx h c).objs.find? (fun o => o.handle = addrHandle a) = some o) :
    let r := addElems o.tier fp (addrOff a) adds (objMem h (objKey c o g))
    memorySideAdd g id h =
      arrivePost g id (if r.2 then stUncorrectable else stOk) (addAccesses c g o a adds (modMem h (objKey c o g) (fun _ => r.1))) := by
  obtain ⟨i, t, k, arrived, status⟩ := p
  cases kind
  simp only [memorySideAdd, found, obj]
  rfl
end

/-! ## A post completed (05 R155, R159; 04 R103) -/

theorem tget_map {α : Type} (F : α → α) (t : Tbl α) (n : Nat) : tget (t.map fun e => (e.1, F e.2)) n = (tget t n).map F := by
  induction t with
  | nil => rfl
  | cons e r ih =>
    simp only [List.map_cons, tget, ih]
    split <;> rfl

theorem tgetD_map {α : Type} (F : α → α) (t : Tbl α) (n : Nat) {d : α} (e : F d = d) :
    tgetD (t.map fun e => (e.1, F e.2)) n d = F (tgetD t n d) := by
  unfold tgetD
  rw [tget_map]
  cases tget t n with
  | none => exact e.symm
  | some v => rfl

/-- A thread blocked on a wait that `p` accepts is READY to issue its instruction again. -/
def Thread.wokenFrom (p : Wait → Bool) (T : Thread) : Thread :=
  match T.st with
  | .blocked w => if p w then { T with st := .ready } else T
  | _ => T

theorem wakeAgain_eq (g : Nat) (p : Wait → Bool) (h : Hw) :
    wakeAgain g p h = modGal h g (fun G => { G with thr := G.thr.map fun e => (e.1, e.2.wokenFrom p) }) := by
  unfold wakeAgain
  congr
  funext G
  congr
  funext ⟨n, T⟩
  simp only [Thread.wokenFrom]
  cases T.st with
  | blocked w => dsimp only; split <;> rfl
  | free | ready | halted => rfl

theorem thread_wakeAgain {g : Nat} {p : Wait → Bool} {h : Hw} {th : Thr} (stays : (thread h th).wokenFrom p = thread h th) :
    thread (wakeAgain g p h) th = thread h th := by
  rw [wakeAgain_eq]
  simp only [thread, gal_modGal] at stays ⊢
  split
  · next e => rw [← e]; exact (tgetD_map _ _ _ rfl).trans stays
  · rfl

theorem wokenFrom_postSlot {T : Thread} (n : T.st ≠ .blocked .postSlot) : T.wokenFrom (· == .postSlot) = T := by
  unfold Thread.wokenFrom
  split
  · next w e => exact if_neg fun slot => n (e.trans (congrArg _ (beq_iff_eq.1 slot)))
  · rfl

/-- What a thread keeps of its completed posts' failures: the first (04 R103). -/
def Thread.noted (T : Thread) (status : Nat) : Thread := { T with failure := if status = stOk then T.failure else T.failure.or (some status) }

/-- The failure of a completed post is noted for its thread. -/
def noteStatus (th : Thr) (status : Nat) (h : Hw) : Hw := if status = stOk then h else noteFailure th status h

/-- A post gives up its slot. -/
def freePost (g id : Nat) (h : Hw) : Hw := modGal h g (fun G => { G with post := G.post.filter (fun q => q.id ≠ id) })

/-- A completed post gives up its slot, its failure is noted, and the threads that waited for a slot issue again. -/
def retirePost (g id : Nat) (p : Post) (h : Hw) : Hw :=
  wakeAgain g (· == .postSlot) (noteStatus { g, t := p.thr } p.status (freePost g id h))

section
variable {g id status : Nat} {p : Post} {h : Hw} {th : Thr}

theorem thread_noteStatus : thread (noteStatus th status h) th = (thread h th).noted status := by
  unfold noteStatus Thread.noted
  split
  · rfl
  · exact thread_modThr_self ..

theorem gal_noteStatus : (gal (noteStatus th status h) g).post = (gal h g).post ∧ (gal (noteStatus th status h) g).cycle = (gal h g).cycle := by
  unfold noteStatus
  split
  · exact ⟨rfl, rfl⟩
  · rw [noteFailure, gal_modThr]
    split <;> exact ⟨rfl, rfl⟩

theorem gal_retirePost : (gal (retirePost g id p h) g).post = (gal h g).post.filter (fun q => q.id ≠ id) ∧
    (gal (retirePost g id p h) g).cycle = (gal h g).cycle := by
  obtain ⟨post, cycle⟩ := gal_noteStatus (g := g) (th := { g, t := p.thr }) (status := p.status) (h := freePost g id h)
  rw [freePost, gal_modGal_self] at post cycle
  rw [retirePost, wakeAgain_eq, gal_modGal_self]
  exact ⟨post, cycle⟩

theorem thread_retirePost (n : (thread h { g, t := p.thr }).st ≠ .blocked .postSlot) :
    thread (retirePost g id p h) { g, t := p.thr } = (thread h { g, t := p.thr }).noted p.status := by
  have noted : thread (noteStatus { g, t := p.thr } p.status (freePost g id h)) { g, t := p.thr } = (thread h { g, t := p.thr }).noted p.status := by
    rw [thread_noteStatus, freePost, thread_modGal _ _ _ rfl]
  refine (thread_wakeAgain ?_).trans noted
  rw [noted]
  exact wokenFrom_postSlot n

theorem resolveFence_of_ready (r : (thread h th).st = .ready) : resolveFence th h = h := by
  unfold resolveFence
  rw [r]

/-- A FENCE whose last post has completed: its thread goes on with the status, and its failures are reported (R155). -/
theorem resolveFence_done {d : Nat} (waits : (thread h th).st = .blocked (.fence d none)) (last : hasPosts h th = false) :
    (gal (resolveFence th h) th.g).post = (gal h th.g).post ∧ thread (resolveFence th h) th =
      { (thread h th).setS d (stWord [((thread h th).failure.getD 0, 0)]) with
          st := .ready, failure := none, notBefore := (gal h th.g).cycle + 1 } := by
  have woken : resolveFence th h =
      wake th (fun T => T.setS d (stWord [(fenceStatus (thread h th), 0)])) (modThr h th ({ · with failure := none })) := by
    simp only [resolveFence, waits, last, Bool.false_eq_true, if_false]
  rw [woken, wake, thread_modThr_self, thread_modThr_self, gal_modThr, if_pos rfl, gal_modThr, if_pos rfl]
  exact ⟨rfl, rfl⟩

theorem postedOpComplete_eq (found : (gal h g).post.find? (fun p => p.id = id && p.arrived) = some p) :
    postedOpComplete g id h = tryHalt { g, t := p.thr } (resolveFence { g, t := p.thr } (retirePost g id p h)) := by
  simp only [postedOpComplete, found]
  rfl

/-- A completed post of a thread that is READY. -/
theorem postedOpComplete_ready (found : (gal h g).post.find? (fun p => p.id = id && p.arrived) = some p)
    (ready : (thread h { g, t := p.thr }).st = .ready) : postedOpComplete g id h = retirePost g id p h := by
  have same : (thread (retirePost g id p h) { g, t := p.thr }).st = .ready := by
    rw [thread_retirePost (by simp [ready])]; exact ready
  rw [postedOpComplete_eq found, resolveFence_of_ready same, tryHalt_of_ready same]

/-- The last post of a thread that waits in a FENCE. -/
theorem postedOpComplete_fence {d : Nat} (found : (gal h g).post.find? (fun p => p.id = id && p.arrived) = some p)
    (waits : (thread h { g, t := p.thr }).st = .blocked (.fence d none))
    (last : (gal h g).post.any (fun q => q.thr = p.thr && q.id ≠ id) = false) :
    let T := (thread h { g, t := p.thr }).noted p.status
    (gal (postedOpComplete g id h) g).post = (gal h g).post.filter (fun q => q.id ≠ id) ∧ thread (postedOpComplete g id h) { g, t := p.thr } =
      { T.setS d (stWord [(T.failure.getD 0, 0)]) with st := .ready, failure := none, notBefore := (gal h g).cycle + 1 } := by
  obtain ⟨post, cycle⟩ := gal_retirePost (g := g) (id := id) (p := p) (h := h)
  have noted := thread_retirePost (g := g) (id := id) (p := p) (h := h) (by simp [waits])
  have none_left : hasPosts (retirePost g id p h) { g, t := p.thr } = false := by
    rw [hasPosts, post, List.any_filter, ← last]
    exact congrArg _ (funext fun q => Bool.and_comm ..)
  obtain ⟨kept, woken⟩ := resolveFence_done (d := d) (by rw [noted]; exact waits) none_left
  rw [post] at kept
  rw [noted, cycle] at woken
  rw [postedOpComplete_eq found, tryHalt_of_ready (by rw [woken])]
  exact ⟨kept, woken⟩
end

end Sys2Proof.Machine
end

section
/-!
The DRAM channels (13 R350, R355): what a request served leaves of the contents of objects.
-/
namespace Sys2Proof.Machine

section
variable {h : Hw}

@[simp] theorem setDiuEvt_mem (b : Nat) : (setDiuEvt b h).mem = h.mem := by
  unfold setDiuEvt
  split
  · rfl
  · rw [raiseEvent_frame]; rfl

@[simp] theorem healthError_mem (k n : Nat) : (healthError k n h).mem = h.mem := by
  unfold healthError
  dsimp only
  rw [saturated_frame]

@[simp] theorem remapDue_mem (c row : Nat) : (remapDue c row h).mem = h.mem := rfl
end

/-- The word of a request is uncorrectable until a write covers it (R355). -/
def spoilRead (r : DramReq) (m : ObjMem) : ObjMem := if r.word ∈ m.bad then m else { m with bad := r.word :: m.bad }

theorem mem_bad_spoilRead (r : DramReq) (m : ObjMem) : r.word ∈ (spoilRead r m).bad := by
  unfold spoilRead
  split
  · assumption
  · exact List.mem_cons_self

section
variable {c : Nat} {r : DramReq} {h : Hw}

/-- The channel's queue without a request. -/
def dequeue (c : Nat) (r : DramReq) (h : Hw) : Hw := modChan c (fun x => { x with queue := x.queue.erase r }) h

theorem requestServe_clean (up : (chan h c).state = 0) (next : nextReq (chan h c) = some r) : requestServe c 0 h = dequeue c r h := by
  simp [requestServe, up, next, dequeue]

theorem requestServe_write (ecc : Nat) (up : (chan h c).state = 0) (next : nextReq (chan h c) = some r) (write : r.write = true) :
    requestServe c ecc h = dequeue c r h := by
  simp [requestServe, up, next, write, dequeue]

theorem requestServe_uncorrectable (up : (chan h c).state = 0) (next : nextReq (chan h c) = some r) (read : r.write = false) (listed : r.key ≠ 0) :
    r.word ∈ (objMem (requestServe c 2 h) r.key).bad := by
  have served : ∃ k, requestServe c 2 h = remapDue c r.row (healthError 7 1 (setDiuEvt 0 (modMem k r.key (spoilRead r)))) :=
    ⟨_, by simp [requestServe, up, next, read, listed]; rfl⟩
  obtain ⟨k, e⟩ := served
  have contents : objMem (requestServe c 2 h) r.key = spoilRead r (objMem k r.key) := by
    refine Eq.trans ?_ (objMem_modMem_self k r.key (spoilRead r))
    simp only [e, objMem, remapDue_mem, healthError_mem, setDiuEvt_mem]
  rw [contents]
  exact mem_bad_spoilRead ..

theorem ageExpiry_some (old : (chan h c).queue.find? (fun r => decide (200 ≤ now h - r.since) && r.cls != 0) = some r) :
    ageExpiry c h = modChan c (fun x => { x with queue := { r with cls := 0 } :: x.queue.erase r }) h := by
  simp only [ageExpiry, old]
end

/-- Settles O12: each command by its own equation; a completed post is retired before its thread's FENCE is judged (`retirePost`). -/
theorem addsAndChannels : Obligations.AddsAndChannels := by
  refine ⟨?madd, ?adder, ?complete, ?serve, ?age⟩
  case madd =>
    intro th f c off o a adds s T G k e
    exact ⟨fun room => yields_post k (maddBody_room e room), fun full => leaves_again k (maddBody_full e full)⟩
  case adder =>
    intro g id c a fp adds p o s hg found kind obj r
    refine yields_of (decide_eq_true hg) ?_
    rw [memorySideAdd_eq found kind obj, wmcOnly_addAccesses]
    exact ⟨rfl, objMem_modMem_self s.hw (objKey c o g) fun _ => r.1,
      fun k other => (objMem_modMem s.hw (objKey c o g) k fun _ => r.1).trans (if_neg other), gal_modGal_self ..⟩
  case complete =>
    intro g id p s hg found th T
    have ok : decide (g < 96) = true := decide_eq_true hg
    refine ⟨fun ready => yields_of ok ?_, fun d waits last => yields_of ok (postedOpComplete_fence found waits last)⟩
    have awake : T.st ≠ .blocked .postSlot := by simp [ready]
    rw [postedOpComplete_ready found ready]
    exact ⟨gal_retirePost.1, thread_retirePost awake⟩
  case serve =>
    intro c r s hc up next served
    have ok : decide (c < 64) = true := decide_eq_true hc
    exact ⟨becomes_of ok (requestServe_clean up next), fun write ecc => becomes_of ok (requestServe_write ecc up next write),
      fun read listed => yields_of ok (requestServe_uncorrectable up next read listed)⟩
  case age =>
    intro c r s hc old
    exact becomes_of (decide_eq_true hc) (ageExpiry_some old)

end Sys2Proof.Machine
end

section
/-!
Vector search (11 R302): whose threshold THRESHOLD_SEND sends when two scans are listed under one number.
-/
namespace Sys2Proof.Machine

/-- What a command has made of the hardware, read off a statement of its effect. -/
theorem eq_of_becomes {f : Hw → Hw} {s : State} {h1 : Hw} (b : Becomes (act true f s) s h1) : f s.hw = h1 := (act_cases b).2.2.symm

/-- A started LIST scan whose one query has the threshold `t` to send. -/
def scanToSend (t : Word) : Scan :=
  { id := 0, ctx := 0, th := { g := 0, t := 0 }, seq := 0, auto := true, kind := 0, hdr := 0, started := true, qs := [{ thresh := t, dirty := true }] }

/-- Two scans under the number 0, of thresholds 0 and 1: `scanOf` finds the first, `modQuery` changes both. -/
def twoScans : State := { pending := [], hw := { probe := { scans := [scanToSend 0, scanToSend 1] } } }

/-- The threshold that is on its way to LPU 0, query by query, of every scan. -/
def onTheWay (h : Hw) : List (Option Word) := h.probe.scans.flatMap fun sc => sc.qs.map fun q => tget q.sent 0

/-- Refutes O26 in its clause on THRESHOLD_SEND: the statement has every scan of the number send the threshold of the first one's query,
while the model has each send its query's own. -/
theorem not_survivors : ¬ Obligations.Survivors := by
  unfold Obligations.Survivors
  intro survivors
  obtain ⟨_, _, _, sends, _⟩ := survivors 0 0 0 0 twoScans (scanToSend 0) rfl
  have stated := eq_of_becomes (f := thresholdSend 0 0) (sends _ rfl rfl rfl rfl nofun)
  have own : onTheWay (thresholdSend 0 0 twoScans.hw) = [some 0, some 1] := by decide
  rw [stated] at own
  exact absurd own (by decide)

end Sys2Proof.Machine
end

section
/-!
Lends and teardowns (12 R330 to R335): when a thread is lent, when its lend ends, and what a stopped context leaves behind.
-/
namespace Sys2Proof.Machine

/-! ## Lends (R330 to R333) -/

/-- The waiter belongs to a context other than `c` that may run (R330). -/
def waitsRunnable (h : Hw) (c : Nat) (w : Nat × Nat × Nat) : Bool :=
  match thrCtx h { g := w.1, t := w.2.1 } with
  | some d => mayRun h d w.1 && d != c
  | none => false

/-- Thread `t` of gallery `g`, of context `c`, is lent with class `cls` (R330), and counted. -/
def lendTo (p c g t cls : Nat) (h : Hw) : Hw :=
  modPart (saturated 16 (0x40204 + 0x10 * c) (ctx h c).lends (satAdd 16 (ctx h c).lends 1)
      (modCtx h c (fun x => { x with lends := satAdd 16 (ctx h c).lends 1 }))) p
    (fun P => { P with lends := P.lends ++ [{ ctx := c, g, t, cls, since := now h, limit := lendLimitOf h }] })

section
variable {p n g t c : Nat} {w : Nat × Nat × Nat} {h : Hw}

/-- Counting a lend leaves the clock and LEND_LIMIT, from which the lend starts. -/
theorem lendStart_eq (owner : (semOf h p n).owner = some (g, t)) (holder : thrCtx h { g, t } = some c) (preempted : (ctx h c).st = .preempted)
    (waiter : (semOf h p n).queue.find? (waitsRunnable h c) = some w) :
    lendStart p n h = if !h.jst.lendEn ∨ (part h p).lends.any (fun l => l.g = g && l.t = t) then h else lendTo p c g t w.2.2 h := by
  unfold lendStart lendTo
  simp only [owner, holder]
  split
  case h_1 nobody => exact absurd (waiter.symm.trans nobody) nofun
  case h_2 v found =>
    obtain rfl : w = v := Option.some.inj (waiter.symm.trans found)
    simp only [preempted, ne_eq, not_true_eq_false, false_or]
    rw [saturated_frame]
    rfl

variable {l : Lend}

/-- The waiters that may run leave the queues of the owner thread's semaphores with SEM_LEND_TIMEOUT (R331). -/
def expelWaiters (p g t : Nat) (l : Lend) (h : Hw) : Hw :=
  (part h p).sems.foldl (fun k e => if e.2.owner == some (g, t) then
      (e.2.queue.filter (waitsRunnable h l.ctx)).foldl (fun k w => match (thread k { g := w.1, t := w.2.1 }).st with
          | .blocked (.sem _ d) => wake { g := w.1, t := w.2.1 } (fun T => T.setS d (stWord [(stLendTimeout, 0)])) k
          | _ => k)
        (modSem p e.1 (fun x => { x with queue := x.queue.filter (fun w => !waitsRunnable h l.ctx w) }) k)
    else k) h

/-- The lend is over, its timeout counted and reported; a scheduling point follows (R331, R333). -/
def endLend (p g t : Nat) (l : Lend) (h : Hw) : Hw :=
  setJstEvt 1 p (modPart (saturated 16 (0x40204 + 0x10 * l.ctx) (ctx h l.ctx).timeouts (satAdd 16 (ctx h l.ctx).timeouts 1)
      (modCtx h l.ctx (fun x => { x with timeouts := satAdd 16 (ctx h l.ctx).timeouts 1 }))) p
    (fun P => { P with lends := P.lends.filter (fun x => !(x.g = g && x.t = t)), schedDue := true }))

theorem lendExpiry_eq (lent : (part h p).lends.find? (fun l => l.g = g && l.t = t) = some l) :
    lendExpiry p g t h = if now h < l.since + 100 * l.limit then h else endLend p g t l (expelWaiters p g t l h) := by
  unfold lendExpiry
  rw [lent]
  rfl
end

/-! ## Teardown (R334, R335) -/

section
variable {c : Nat} {h : Hw}

theorem contextTeardown_waits (n : (ctx h c).stopped = false ∨ (part h (c / 4)).resetting ≠ none) : contextTeardown c h = h :=
  if_pos (by simpa [Option.isSome_iff_ne_none] using n)

theorem contextTeardown_ends (stopped : (ctx h c).stopped = true) (still : (part h (c / 4)).resetting = none) :
    contextTeardown c h = setJstEvt 2 (c / 4) (finishCancel c (endIncarnation c (modCtx
      (completeJob c stJobFault ((ctx h c).fault.getD { cause := cCancelled, gallery := 0, thread := 0, pc := 0 }) false 0 (stopWork c h)) c
      (fun x => { x with poolFree := List.range x.poolPages, poolPend := [] })))) :=
  if_neg (by simp [stopped, still])

theorem endIncarnation_ctx (c : Nat) (h : Hw) : (ctx (endIncarnation c h) c).st = .loaded ∧ (ctx (endIncarnation c h) c).stopped = false ∧
    (ctx (endIncarnation c h) c).submit = none := by
  simp only [endIncarnation, ctx_modCtx_self, and_self]
end

/-- Settles O37: a lend by its start and its end, a teardown by its equation; an incarnation's end leaves the context LOADED. -/
theorem lendsAndTeardown : Obligations.LendsAndTeardown := by
  intro p s hp P
  refine ⟨?start, ?expiry, ?teardown⟩
  case start =>
    intro n g t c w hn owner holder preempted waiter o
    have units : (okPart p && decide (n < 256)) = true := by simp [okPart, hp, hn]
    have e := lendStart_eq owner holder preempted waiter
    refine ⟨fun en free => becomes_of units (e.trans (if_neg ?_)), fun kept => becomes_of units (e.trans (if_pos ?_))⟩
    · simpa [en] using free
    · simpa using kept
  case expiry =>
    intro g t l hg ht lent o mine h1 k
    have units : (okPart p && decide (g < 96) && decide (t < 64)) = true := by simp [okPart, hp, hg, ht]
    have e := lendExpiry_eq lent
    exact ⟨fun due => becomes_of units (e.trans (if_neg (Nat.not_lt.2 due))), fun early => becomes_of units (e.trans (if_pos early))⟩
  case teardown =>
    intro k hk c x o
    have units : decide (c < 32) = true := decide_eq_true (by omega)
    have home : c / 4 = p := by omega
    refine ⟨fun n => becomes_of units (contextTeardown_waits (home ▸ n)), fun stopped still => ?_, endIncarnation_ctx c⟩
    exact becomes_of units (home ▸ contextTeardown_ends stopped (home ▸ still))

end Sys2Proof.Machine
end

section
/-!
The job commands (12 R323, R324; 18 R483 to R485): what each answers, and what it makes of a context.
-/
namespace Sys2Proof.Machine

/-! ## JOB_LOAD (R323) -/

def LoadFields (c : Cmd) : Prop := c.zeros [(4, 4), (25, 39)] = true ∧ c.part < 8 ∧ 64 ≤ c.dataLen

/-- An admitted context takes its place, its work share in the lowest free frames; the place keeps its counts of lends (R323, R341). -/
def loadInto (x : Nat) (a : Context) (h : Hw) : Hw :=
  freshObjs x (modCtx h x (fun old => { a with
    st := .loaded, frames := takeFrames h (a.workBytes / 2097152), lends := old.lends, timeouts := old.timeouts }))

section
variable {c : Cmd} {h : Hw}

theorem loadFields_iff : (c.zeros [(4, 4), (25, 39)] && decide (c.part < 8) && decide (64 ≤ c.dataLen)) = true ↔ LoadFields c := by
  simp [LoadFields, and_assoc]

theorem jobLoad_invalid (n : ¬LoadFields c) : jobLoad c h = endCmd c.id stInvalidField h := needFields_not (mt loadFields_iff.1 n)

variable (ok : LoadFields c)
include ok

theorem jobLoad_busy (r : isResetting h c.part = true) : jobLoad c h = endCmd c.id stBusy h :=
  (needFields_of (loadFields_iff.2 ok)).trans (if_pos r)

variable (still : isResetting h c.part = false)
include still

theorem jobLoad_asks (awaited : dataOf c c.dataLen = none) : jobLoad c h = askData c c.dataLen h := by
  simp [jobLoad, needFields_of (loadFields_iff.2 ok), still, withData, awaited]

variable {d : Nat} (data : dataOf c c.dataLen = some d)
include data

theorem jobLoad_noManifest (bad : manifestOf d c.dataLen = none) : jobLoad c h = endCmd c.id stInvalidField h := by
  simp [jobLoad, needFields_of (loadFields_iff.2 ok), still, withData, data, bad]

variable {cx : Context} (manifest : manifestOf d c.dataLen = some cx)
include manifest

theorem jobLoad_full (full : (List.range 4).find? (fun i => (ctx h (4 * c.part + i)).st = .free) = none) :
    jobLoad c h = finishCmd c.id { status := stRefusedAdm, result := 256 } h := by
  simp only [jobLoad, needFields_of (loadFields_iff.2 ok), still, withData, data, manifest, full, Bool.false_eq_true, if_false]

variable {i : Nat} (place : (List.range 4).find? (fun i => (ctx h (4 * c.part + i)).st = .free) = some i)
include place

theorem jobLoad_refused {r : Nat} (refused : admission h (4 * c.part + i) cx false = .error r) :
    jobLoad c h = finishCmd c.id { status := stRefusedAdm, result := 256 * r } h := by
  simp only [jobLoad, needFields_of (loadFields_iff.2 ok), still, withData, data, manifest, place, refused, Bool.false_eq_true, if_false]

theorem jobLoad_loads {a : Context} (admitted : admission h (4 * c.part + i) cx false = .ok a) :
    jobLoad c h = finishCmd c.id { status := stOk, result := i } (loadInto (4 * c.part + i) a h) := by
  simp only [jobLoad, needFields_of (loadFields_iff.2 ok), still, withData, data, manifest, place, admitted, Bool.false_eq_true, if_false]
  rfl
end

/-! ## JOB_SUBMIT (R324, R325) -/

def SubmitFields (c : Cmd) : Prop :=
  c.zeros [(4, 4), (16, 4), (27, 1), (30, 2), (40, 24)] = true ∧ c.part < 8 ∧ c.fld 25 1 < 4 ∧ c.fld 32 8 % 8 = 0

/-- The entry starts an incarnation of its context and waits for its end, ordered after the partition's submissions so far (R324, R325). -/
def submitJob (c : Cmd) (h : Hw) : Hw :=
  startIncarnation c.ctxNo (modCtx
    (setProgress c 1 (modPart h c.part (fun P => { P with submits := (part h c.part).submits + 1, schedDue := true }))) c.ctxNo (fun x => { x with
      submit := some { cmd := c.id, restartLimit := c.fld 26 1, progHandle := c.fld 28 2, progOff := c.fld 32 8, order := (part h c.part).submits }
      restarts := 0 }))

section
variable {c : Cmd} {h : Hw}

theorem submitFields_iff : (c.zeros [(4, 4), (16, 4), (27, 1), (30, 2), (40, 24)] && decide (c.part < 8) && decide (c.fld 25 1 < 4) &&
    c.fld 32 8 % 8 == 0) = true ↔ SubmitFields c := by
  simp [SubmitFields, and_assoc]

variable (new : c.progress = 0)
include new

theorem jobSubmit_invalid (n : ¬SubmitFields c) : jobSubmit c h = endCmd c.id stInvalidField h :=
  (if_neg (by simp [new])).trans (needFields_not (mt submitFields_iff.1 n))

variable (ok : SubmitFields c)
include ok

/-- With its fields in range a new JOB_SUBMIT judges its partition, its context and its progress record in this order. -/
theorem jobSubmit_eq : jobSubmit c h =
    if isResetting h c.part then endCmd c.id stBusy h
    else if (ctx h c.ctxNo).st != .loaded then endCmd c.id stContextState h
    else if !progressOk h c.ctxNo (c.fld 28 2) (c.fld 32 8) then endCmd c.id stInvalidField h
    else submitJob c h :=
  (if_neg (by simp [new])).trans (needFields_of (submitFields_iff.2 ok))

theorem jobSubmit_busy (r : isResetting h c.part = true) : jobSubmit c h = endCmd c.id stBusy h := by
  rw [jobSubmit_eq new ok, if_pos r]

variable (still : isResetting h c.part = false)
include still

theorem jobSubmit_notLoaded (n : (ctx h c.ctxNo).st ≠ .loaded) : jobSubmit c h = endCmd c.id stContextState h := by
  simp [jobSubmit_eq new ok, still, n]

variable (loaded : (ctx h c.ctxNo).st = .loaded)
include loaded

theorem jobSubmit_unfit (unfit : progressOk h c.ctxNo (c.fld 28 2) (c.fld 32 8) = false) : jobSubmit c h = endCmd c.id stInvalidField h := by
  simp [jobSubmit_eq new ok, still, loaded, unfit]

theorem jobSubmit_starts (fit : progressOk h c.ctxNo (c.fld 28 2) (c.fld 32 8) = true) : jobSubmit c h = submitJob c h := by
  simp [jobSubmit_eq new ok, still, loaded, fit]
end

/-! ## JOB_CANCEL (R324, R329, R335, R338) -/

def CancelFields (c : Cmd) : Prop := c.zeros [(4, 4), (16, 4), (27, 37)] = true ∧ c.part < 8 ∧ c.fld 25 1 < 4 ∧ c.fld 26 1 < 2

/-- No pre-emption is for context `n` any more (R329). -/
def Partition.withoutSwitchTo (n : Nat) (P : Partition) : Partition := { P with switch := P.switch.filter (fun w => w.incoming ≠ n) }

/-- The entry waits for its context's teardown (R338). -/
def awaitCancel (c : Cmd) (h : Hw) : Hw :=
  setProgress c 1 (modCtx (modPart h c.part (.withoutSwitchTo (c.ctxNo % 4))) c.ctxNo (fun x => { x with cancel := some (c.id, c.fld 26 1 == 1) }))

/-- A JOB_CANCEL that waits stops its context, unless that has stopped already (R335, R338). -/
def cancelJob (c : Cmd) (h : Hw) : Hw :=
  if (ctx h c.ctxNo).stopped = true then awaitCancel c h
  else stopContext c.ctxNo { cause := cCancelled, gallery := 0, thread := 0, pc := 0 } (awaitCancel c h)

/-- What a change of a partition makes of it decides the whole change. -/
theorem modPart_congr {h : Hw} {p : Nat} {j k : Partition → Partition} (e : j (part h p) = k (part h p)) : modPart h p j = modPart h p k := by
  have listed : ∀ i : Partition → Partition, modPart h p i = { h with part := tput h.part p (i (part h p)) } := fun _ => rfl
  rw [listed, listed, e]

section
variable {c : Cmd} {h : Hw}

theorem cancelFields_iff : (c.zeros [(4, 4), (16, 4), (27, 37)] && decide (c.part < 8) && decide (c.fld 25 1 < 4) && decide (c.fld 26 1 < 2)) = true ↔
    CancelFields c := by
  simp [CancelFields, and_assoc]

@[simp] theorem ctx_modCmd (i x : Nat) (f : Cmd → Cmd) : ctx (modCmd i f h) x = ctx h x := rfl

theorem ctx_awaitCancel_stopped : (ctx (awaitCancel c h) c.ctxNo).stopped = (ctx h c.ctxNo).stopped := by
  rw [awaitCancel, setProgress, ctx_modCmd, ctx_modCtx_self, ctx_modPart]

/-- Any change of the partition that drops a pre-emption for the context, and nothing else, makes `awaitCancel`. -/
theorem awaitCancel_of {k : Partition → Partition} (e : k (part h c.part) = (part h c.part).withoutSwitchTo (c.ctxNo % 4)) :
    setProgress c 1 (modCtx (modPart h c.part k) c.ctxNo (fun x => { x with cancel := some (c.id, c.fld 26 1 == 1) })) = awaitCancel c h := by
  rw [awaitCancel, modPart_congr e]

variable (new : c.progress = 0)
include new

theorem jobCancel_invalid (n : ¬CancelFields c) : jobCancel c h = endCmd c.id stInvalidField h :=
  (if_neg (by simp [new])).trans (needFields_not (mt cancelFields_iff.1 n))

variable (ok : CancelFields c)
include ok

theorem jobCancel_busy (r : isResetting h c.part = true) : jobCancel c h = endCmd c.id stBusy h :=
  (if_neg (by simp [new])).trans ((needFields_of (cancelFields_iff.2 ok)).trans (if_pos r))

variable (still : isResetting h c.part = false)
include still

theorem jobCancel_free (e : (ctx h c.ctxNo).st = .free) : jobCancel c h = endCmd c.id stContextState h := by
  simp only [jobCancel, new, needFields_of (cancelFields_iff.2 ok), still, e, bne_self_eq_false, Bool.false_eq_true, if_false]

theorem jobCancel_loaded (e : (ctx h c.ctxNo).st = .loaded) :
    jobCancel c h = endCmd c.id stOk (if c.fld 26 1 = 1 then freeContext c.ctxNo h else h) := by
  simp only [jobCancel, new, needFields_of (cancelFields_iff.2 ok), still, e, bne_self_eq_false, Bool.false_eq_true, if_false, beq_iff_eq]

theorem jobCancel_stops (n : (ctx h c.ctxNo).st ≠ .free) (m : (ctx h c.ctxNo).st ≠ .loaded) (first : (ctx h c.ctxNo).cancel = none) :
    jobCancel c h = cancelJob c h := by
  cases e : (ctx h c.ctxNo).st
  case free => exact absurd e n
  case loaded => exact absurd e m
  case queued | running | preempted | resetting =>
    simp only [jobCancel, new, needFields_of (cancelFields_iff.2 ok), still, first, e, bne_self_eq_false, Bool.false_eq_true, if_false,
      Option.isSome_none]
    rw [awaitCancel_of, ctx_awaitCancel_stopped]
    · rfl
    · unfold Partition.withoutSwitchTo
      cases (part h c.part).switch with
      | none => rfl
      | some w => simp [Option.filter]
end

/-! ## JOB_STATUS (R483) -/

/-- CHECKPOINT_ID and RECORDS of the context's incarnation; 0 without one (R483, R484). -/
def jobProgress (x : Nat) (h : Hw) : Nat × Nat :=
  match (ctx h x).submit with
  | some s => progressOf h x s.progHandle s.progOff
  | none => (0, 0)

/-- The structure that JOB_STATUS writes: the context's state word, its progress `n` and its fault record (R483). -/
def statusBytes (x : Nat) (n : Nat × Nat) (h : Hw) : Nat :=
  let f := (ctx h x).fault.getD { cause := 0, gallery := 0, thread := 0, pc := 0 }
  bytesOf [(0, 4, ctxStateWord h x), (8, 8, n.1), (16, 8, n.2), (24, 1, f.cause), (25, 1, f.gallery), (26, 1, f.thread), (28, 8, f.pc)]

theorem jobStatus_eq (c : Cmd) (h : Hw) : jobStatus c h =
    needFields c (c.zeros [(4, 4), (26, 38)] && decide (c.part < 8) && decide (c.fld 25 1 < 4)) (fun h =>
      if (ctx h c.ctxNo).st = .free then endCmd c.id stContextState h
      else writeStruct c 64 (statusBytes c.ctxNo (jobProgress c.ctxNo h) h) h) h := rfl

/-- The hardware that a command makes, rewritten by an equation. -/
theorem becomes_congr {o : Host.Outcome State Fault Refusal} {s : State} {h k : Hw} (b : Becomes o s h) (e : h = k) : Becomes o s k := e ▸ b

/-- Settles O38: each command by its own equations; a status tells the context's progress as `jobProgress` finds it. -/
theorem jobCommands : Obligations.JobCommands := by
  intro q slot c s H x X
  refine ⟨fun d => ?load, fun d new => ?submit, fun d new => ?cancel, fun d => ?status⟩
  case load =>
    refine ⟨fun n => becomes_carry d (jobLoad_invalid n), fun ok r => becomes_carry d (jobLoad_busy ok r), fun ok still =>
      ⟨fun awaited => becomes_carry d (jobLoad_asks ok still awaited), fun m data =>
        ⟨fun bad => becomes_carry d (jobLoad_noManifest ok still data bad), fun cx manifest => ?_⟩⟩⟩
    exact ⟨fun full => becomes_carry d (jobLoad_full ok still data manifest full),
      fun i r place refused => becomes_carry d (jobLoad_refused (h := H) ok still data manifest place refused),
      fun i a place admitted => becomes_carry d (jobLoad_loads (h := H) ok still data manifest place admitted)⟩
  case submit =>
    exact ⟨fun n => becomes_carry d (jobSubmit_invalid new n), fun ok r => becomes_carry d (jobSubmit_busy new ok r), fun ok still =>
      ⟨fun n => becomes_carry d (jobSubmit_notLoaded new ok still n),
        fun loaded unfit => becomes_carry d (jobSubmit_unfit (h := H) new ok still loaded unfit),
        fun loaded fit => becomes_carry d (jobSubmit_starts (h := H) new ok still loaded fit)⟩⟩
  case cancel =>
    exact ⟨fun n => becomes_carry d (jobCancel_invalid new n), fun ok r => becomes_carry d (jobCancel_busy new ok r), fun ok still =>
      ⟨fun e => becomes_carry d (jobCancel_free new ok still e), fun e => becomes_carry d (jobCancel_loaded new ok still e),
        fun n m first => becomes_carry d (jobCancel_stops (h := H) new ok still n m first)⟩⟩
  case status =>
    intro o ok f
    obtain ⟨invalid, told⟩ := becomes_checked (P := ok) d (jobStatus_eq c H) (by simp [ok, and_assoc])
    refine ⟨invalid, fun y free => becomes_congr (told y) (if_pos free), fun y used short => ?_, fun n m y used room progress => ?_⟩
    · exact becomes_congr (told y) ((if_neg used).trans (if_pos short))
    · have found : jobProgress x H = (n, m) := progress.symm
      refine becomes_congr (told y) ((if_neg used).trans ((if_neg (Nat.not_lt.2 room)).trans ?_))
      rw [found]
      rfl

end Sys2Proof.Machine
end

section
/-!
Partitions (12 R317 to R319, R334, R336; 18 R473): what SET_FEATURE(PARTITION) stores, for whom and why a partition is reset, and how a reset ends.
-/
namespace Sys2Proof.Machine

/-! ## SET_FEATURE(PARTITION) (R318) -/

def PartitionFields (c : Cmd) : Prop := c.zeros [(4, 4), (26, 38)] = true ∧ c.fld 25 1 < 8 ∧ c.dataLen = 128

/-- The descriptor waits for the partition table's next root, which begins to be written (R318, 16 R439). -/
def storePart (c : Cmd) (x : PartDesc) (h : Hw) : Hw :=
  modMdm (fun M => { M with crit := tput M.crit 2 { critNow h 2 with writing := some (h.jst.root + 1) } })
    (modJst (fun j => { j with newPart := some (c.fld 25 1, x, c.id) }) h)

section
variable {c : Cmd} {h : Hw}

theorem partitionFields_iff : (c.zeros [(4, 4), (26, 38)] && decide (c.fld 25 1 < 8) && c.dataLen == 128) = true ↔ PartitionFields c := by
  simp [PartitionFields, and_assoc]

variable (turn : h.jst.newPart = none)
include turn

theorem partitionSet_invalid (n : ¬PartitionFields c) : partitionSet c h = endCmd c.id stInvalidField h :=
  (if_neg (by simp [turn])).trans (needFields_not (mt partitionFields_iff.1 n))

variable (ok : PartitionFields c)
include ok

theorem partitionSet_asks (awaited : dataOf c 128 = none) : partitionSet c h = askData c 128 h := by
  simp [partitionSet, turn, needFields_of (partitionFields_iff.2 ok), withData, awaited]

variable {d : Nat} (data : dataOf c 128 = some d)
include data

theorem partitionSet_noDescriptor (bad : partDescOf d = none) : partitionSet c h = endCmd c.id stInvalidField h := by
  simp [partitionSet, turn, needFields_of (partitionFields_iff.2 ok), withData, data, bad]

variable {x : PartDesc} (desc : partDescOf d = some x)
include desc

theorem partitionSet_clashes (clash : partOk h (c.fld 25 1) x = false) : partitionSet c h = endCmd c.id stInvalidField h := by
  simp [partitionSet, turn, needFields_of (partitionFields_iff.2 ok), withData, data, desc, clash]

theorem partitionSet_stores (fits : partOk h (c.fld 25 1) x = true) : partitionSet c h = storePart c x h := by
  simp [partitionSet, turn, needFields_of (partitionFields_iff.2 ok), withData, data, desc, fits, storePart]
end

/-! ## PARTITION_RESET (R319, R334, R336) -/

/-- SET_FEATURE(PARTITION_RESET) in an entry, for partition `p` (R319, 18 R473). -/
def resetEntry (p : Nat) (bad : List (Nat × Nat)) (wit other : List Nat) (c : Cmd) (h : Hw) : Hw :=
  needFields c (c.zeros [(4, 4), (16, 4), (26, 38)] && decide (c.fld 25 1 < 8)) (fun h =>
    if c.fld 25 1 ≠ p then h else endCmd c.id stOk (partReset p 0 bad wit other h)) h

section
variable {p : Nat} {bad : List (Nat × Nat)} {wit other : List Nat}

theorem becomes_resetEntry {q slot : Nat} {s : State} {h1 : Hw} (hp : p < 8)
    (b : Becomes (act true (carry q slot (setsFeature 0x21) (resetEntry p bad wit other)) s) s h1) :
    Becomes (exec (.partitionReset p (some (q, slot)) bad wit other) s) s h1 :=
  becomes_of (f := partitionReset p (some (q, slot)) bad wit other) (decide_eq_true hp) (eq_of_becomes b)

variable {h : Hw}

theorem partitionReset_due {k : Nat} (due : resetCause h p = some k) : partitionReset p none bad wit other h = partReset p k bad wit other h := by
  simp only [partitionReset, due]

theorem partitionReset_notDue (n : resetCause h p = none) : partitionReset p none bad wit other h = h := by
  simp only [partitionReset, n]

theorem resetCause_resetting {r : Resetting} (e : (part h p).resetting = some r) : resetCause h p = some r.cause := by
  simp only [resetCause, e]

variable (n : (part h p).resetting = none)
include n

theorem resetCause_boot (due : p ∈ h.boot.partDue) : resetCause h p = some 2 := by
  simp [resetCause, n, due]

variable (booted : p ∉ h.boot.partDue)
include booted

theorem resetCause_fault (faulty : ∃ g ∈ partGals h p, (gal h g).partFault = true) : resetCause h p = some 1 := by
  simp only [resetCause, n, List.contains_eq_mem, decide_eq_true_iff, booted, if_false, List.any_eq_true, faulty, if_true]

theorem resetCause_none (sound : ∀ g ∈ partGals h p, (gal h g).partFault = false) : resetCause h p = none := by
  have noFault : (partGals h p).any (fun g => (gal h g).partFault) = false := List.any_eq_false.2 fun g m => by simp [sound g m]
  simp [resetCause, n, booted, noFault]
end

/-- The last step of a partition reset (R336). -/
def endReset (p : Nat) (h : Hw) : Hw :=
  modBoot (fun b => { b with partDue := b.partDue.filter (fun q => q ≠ p) })
    (modPart h p (fun P => { P with resetting := none, schedDue := true }))

theorem partReset_ends (p cause : Nat) (bad : List (Nat × Nat)) (wit other : List Nat) (h : Hw) :
    ∃ k, partReset p cause bad wit other h = endReset p k := ⟨_, rfl⟩

@[simp] theorem part_modBoot (f : Boot → Boot) (p : Nat) (h : Hw) : part (modBoot f h) p = part h p := rfl

theorem part_endReset (p : Nat) (h : Hw) : part (endReset p h) p = { part h p with resetting := none, schedDue := true } := by
  rw [endReset, part_modBoot, part_modPart_self]

theorem endReset_notDue (p : Nat) (h : Hw) : p ∉ (endReset p h).boot.partDue := by
  simp [endReset, modBoot]

/-- Settles O39: an entry by its own equations, a reset without one by the cause that is due; every reset ends with `endReset`. -/
theorem partitionCommands : Obligations.PartitionCommands := by
  intro q slot c s H
  refine ⟨fun d turn => ?set, fun p bad wit other hp => ⟨fun d => ?entry, ?due, fun cause h => ?ends⟩⟩
  case set =>
    refine ⟨fun n => becomes_carry d (partitionSet_invalid (h := H) turn n), fun ok awaited => becomes_carry d (partitionSet_asks (h := H) turn ok awaited),
      fun m ok data => ⟨fun bad => becomes_carry d (partitionSet_noDescriptor (h := H) turn ok data bad), fun x desc clash => ?_, fun x desc fits => ?_⟩⟩
    · exact becomes_carry d (partitionSet_clashes (h := H) turn ok data desc clash)
    · exact becomes_carry d (partitionSet_stores (h := H) turn ok data desc fits)
  case entry =>
    intro o ok
    obtain ⟨invalid, mine⟩ := becomes_needFields (P := ok) (body := resetEntry p bad wit other) d (p := by simp [ok])
    exact ⟨fun n => becomes_resetEntry hp (invalid n),
      fun y another => becomes_resetEntry hp (becomes_congr (mine y) (if_pos another)),
      fun y this => becomes_resetEntry hp (becomes_congr (mine y) (if_neg (fun another => another this)))⟩
  case due =>
    have units : decide (p < 8) = true := decide_eq_true hp
    exact ⟨fun r e => becomes_of units (partitionReset_due (resetCause_resetting e)),
      fun n due => becomes_of units (partitionReset_due (resetCause_boot n due)),
      fun n booted faulty => becomes_of units (partitionReset_due (resetCause_fault n booted faulty)),
      fun n booted sound => becomes_of units (partitionReset_notDue (resetCause_none n booted sound))⟩
  case ends =>
    intro h1
    obtain ⟨k, e⟩ : ∃ k, h1 = endReset p k := partReset_ends p cause bad wit other h
    rw [e, part_endReset]
    exact ⟨rfl, rfl, endReset_notDue p k⟩

end Sys2Proof.Machine
end

section
/-!
Landing-zone pages, the journal, checkpoints and the map root (15 R408 to R415; 18 R490 to R492): what each command makes of the Media Manager,
and that a durable journal page changes the map by its records alone.
-/
namespace Sys2Proof.Machine

/-! ## What events and counts leave of the Media Manager -/

section
variable (h : Hw)

@[simp] theorem saturated_mdm (w detail old new : Nat) : (saturated w detail old new h).mdm = h.mdm := by rw [saturated_frame]

theorem countUp_mdm (off n : Nat) (get : Mdm → Nat) (set : Nat → Mdm → Mdm) :
    (countUp off n get set h).mdm = set (satAdd 64 (get h.mdm) n) h.mdm := saturated_mdm ..
theorem countUp_wdn (off n : Nat) (get : Mdm → Nat) (set : Nat → Mdm → Mdm) : (countUp off n get set h).wdn = h.wdn := saturated_wdn ..

theorem setMdmEvt_mdm (b : Nat) : ∃ e, (setMdmEvt b h).mdm = { h.mdm with evt := e } := by
  unfold setMdmEvt
  split
  · exact ⟨_, rfl⟩
  · rw [raiseEvent_frame]
    exact ⟨_, rfl⟩
end

/-! ## Landing-zone pages (R410) -/

/-- The landing-zone pages changed by `f`. -/
def modPages (f : List LzPage → List LzPage) (h : Hw) : Hw := modMdm (fun M => { M with lzPages := f M.lzPages }) h

section
variable {id : Nat} {p : LzPage} {h : Hw}

theorem lzProgrammed_eq (programmed : h.mdm.lzPages.find? (fun p => p.id = id && p.copies.all (fun c => c == 1)) = some p) :
    lzProgrammed id h = if p.recs.all (inWindow h) then formRecs p h
      else modPages (fun l => l.map (fun x => if x.id = id then { x with ready := true } else x)) h := by
  simp only [lzProgrammed, programmed, modPages]

/-- The records of a failed page that are to be placed again: not the units of a command that has completed (18 R492). -/
def stillWanted (h : Hw) (r : JRec) : Bool :=
  match r.whom with
  | .units c _ _ => (writing h c).isSome
  | _ => true

/-- The blocks of a page's failed copies join the grown-defect list. -/
def retireFailed (p : LzPage) (h : Hw) : Hw :=
  let cs := pageCopies h.mdm.map p.sb p.page
  (List.range cs.length).foldl (fun h i =>
    let x := (cs[i]?).getD (0, 0, 0)
    if (p.copies[i]?).getD 0 = 2 ∧ !dieDead h x.1 then growDefect x.1 (physOf (die h x.1) x.2.1) h else h) h

/-- What a failed page leaves before its records are placed again: its blocks retired, the tallies of the units dropped told, its superblock
closed and to be evicted. -/
def failPage (p : LzPage) (h : Hw) : Hw :=
  let h1 := retireFailed p h
  modMap (fun M => { M with sbs := match tget M.sbs p.sb with
      | some S => tput M.sbs p.sb { S with st := max 2 S.st, evict := true }
      | none => M.sbs })
    (p.recs.foldl (fun h r => if stillWanted h1 r then h else match r.whom with
      | .units c i n => tallyUnits c i n 0 h
      | _ => h) h1)

/-- A record of page `p` for a new place, `j` of superblock `sb`. -/
def replaced (p : LzPage) (sb j : Nat) (r : JRec) : JRec :=
  let move := fun (e : MapEnt) => match e with
    | .located _ _ pg u => MapEnt.located true sb (j + (pg - p.page)) u
    | e => e
  match r.chg with
  | .map v l n e o w => { r with chg := .map v l n (move e) o w }
  | .list v l q x o => { r with chg := .list v l q { x with loc := move x.loc } o }
  | _ => r

variable (failed : h.mdm.lzPages.find? (fun p => p.id = id && p.copies.contains 2 && !p.copies.contains 0) = some p)
include failed

theorem lzCopyFail_drops (dropped : p.recs.filter (stillWanted (retireFailed p h)) = []) :
    lzCopyFail id h = modPages (fun l => l.filter (fun x => x.id ≠ id)) (failPage p h) := by
  unfold lzCopyFail
  rw [failed]
  exact if_pos dropped

theorem lzCopyFail_places {sb j : Nat} {k : Hw} (wanted : p.recs.filter (stillWanted (retireFailed p h)) ≠ [])
    (place : takeLz true (failPage p h) = some ((sb, j), k)) :
    lzCopyFail id h = lzWrite sb j p.data ((p.recs.filter (stillWanted (retireFailed p h))).map (replaced p sb j))
      (modPages (fun l => l.filter (fun x => x.id ≠ id)) k) := by
  unfold lzCopyFail
  rw [failed]
  refine (if_neg wanted).trans ?_
  split
  case h_1 full => exact absurd (place.symm.trans full) nofun
  case h_2 found =>
    cases place.symm.trans found
    rfl
end

/-! ## A WRITE or TRIM that ends without OK (18 R490) -/

/-- The command is no longer carried out, and the records that `keep` refuses are dropped from the pages of the landing zone. -/
def stopWrite (w : Writing) (keep : JRec → Bool) (h : Hw) : Hw :=
  modMdm (fun M => { M with
    writes := M.writes.filter (fun x => x.cmd ≠ w.cmd), lzPages := M.lzPages.map (fun p => { p with recs := p.recs.filter keep }) }) h

theorem endWrite_eq (w : Writing) (c : Cmd) (st : Nat) (h : Hw) : ∃ x n t keep, endWrite w c st h =
    finishCmd c.id x (if n = 0 then stopWrite w keep h else addTally t (stopWrite w keep h)) := ⟨_, _, _, _, rfl⟩

theorem endWrite_mdm (w : Writing) (c : Cmd) (st : Nat) (h : Hw) : ∃ keep, (endWrite w c st h).mdm = (stopWrite w keep h).mdm := by
  obtain ⟨x, n, t, keep, e⟩ := endWrite_eq w c st h
  refine ⟨keep, ?_⟩
  rw [e]
  change (ite _ _ _ : Hw).mdm = _
  split <;> rfl

/-! ## The journal (R412, R418) -/

/-- What the journal has made durable: the map in force, and the number of journal pages. -/
def durablePart (h : Hw) : MapSt × Nat := (h.mdm.map, h.mdm.jdone)

section
variable (h : Hw)

theorem durablePart_addRec (r : JRec) : durablePart (addRec r h) = durablePart h := by
  unfold durablePart addRec modMdm
  dsimp only
  split
  · split <;> rfl
  · rfl

theorem durablePart_formReady : durablePart (formReady h) = durablePart h := by
  refine foldl_keeps durablePart _ _ (fun h p => ?_) h
  split
  · exact foldl_keeps durablePart p.recs _ (fun h r => durablePart_addRec h r) h
  · rfl

theorem durablePart_endWrite (w : Writing) (c : Cmd) (st : Nat) : durablePart (endWrite w c st h) = durablePart h := by
  obtain ⟨drop, e⟩ := endWrite_mdm w c st h
  unfold durablePart
  rw [e]
  rfl

/-- Units written are counted in the health log (R429). -/
def countWritten (n : Nat) (h : Hw) : Hw := countUp 16 n (fun M => M.unitsWritten) (fun v M => { M with unitsWritten := v }) h

theorem durablePart_countWritten (n : Nat) : durablePart (countWritten n h) = durablePart h := by
  unfold durablePart countWritten
  rw [countUp_mdm]

/-- Durable units entered with their command, which ends with the last of them (R410), or in its tally record (18 R492). -/
def enterUnits (cmd i n : Nat) (h : Hw) : Hw :=
  match writing h cmd with
  | none => tallyUnits cmd i n 1 h
  | some w =>
    let w := { w with durable := w.durable ++ [(i, n)] }
    let h := modWriting cmd (fun _ => w) h
    match h.host.cmds.find? (fun c => c.id = cmd) with
    | none => h
    | some c =>
      if firstOpen w = w.n then
        finishCmd cmd { status := stOk, result := writeResult w.n 0 } (modMdm (fun M => { M with writes := M.writes.filter (fun x => x.cmd ≠ cmd) }) h)
      else match w.stop with
        | some st => if w.trim ∧ firstOpen w = w.placed then endWrite w c st h else h
        | none => h

theorem unitsDurable_eq (c i n : Nat) : ∃ trim : Bool, unitsDurable c i n h = enterUnits c i n (if trim then h else countWritten n h) := ⟨_, rfl⟩

theorem durablePart_enterUnits (c i n : Nat) : durablePart (enterUnits c i n h) = durablePart h := by
  unfold enterUnits
  split
  · rfl
  · dsimp only
    split
    · rfl
    · split
      · rfl
      · split
        · split
          · exact durablePart_endWrite ..
          · rfl
        · rfl

theorem durablePart_unitsDurable (c i n : Nat) : durablePart (unitsDurable c i n h) = durablePart h := by
  obtain ⟨trim, e⟩ := unitsDurable_eq h c i n
  rw [e, durablePart_enterUnits]
  split
  · rfl
  · exact durablePart_countWritten ..

/-- The command of a durable record hears of it (R410; 11 R290). -/
def tellDurable (h : Hw) (r : JRec) : Hw :=
  match r.whom with
  | .units c i n => unitsDurable c i n h
  | .append s k => appendDurable s k h
  | .volume c => endCmd c stOk h
  | .none => h

theorem durablePart_tellDurable (r : JRec) : durablePart (tellDurable h r) = durablePart h := by
  unfold tellDurable
  split
  · exact durablePart_unitsDurable ..
  all_goals rfl

/-- A durable record changes the map (R418). -/
def applyRec (h : Hw) (r : JRec) : Hw := changeSeen r.chg (modMap (fun M => applyChange M r.chg) h)

theorem durablePart_applyRec (r : JRec) : durablePart (applyRec h r) = (applyChange h.mdm.map r.chg, h.mdm.jdone) := by
  unfold applyRec changeSeen
  split
  · split <;> rfl
  · rfl

theorem map_applyRecs (l : List JRec) : (l.foldl applyRec h).mdm.map = l.foldl (fun m r => applyChange m r.chg) h.mdm.map := by
  induction l generalizing h with
  | nil => rfl
  | cons r l ih =>
    have step : (applyRec h r).mdm.map = applyChange h.mdm.map r.chg := congrArg Prod.fst (durablePart_applyRec h r)
    rw [List.foldl_cons, ih, List.foldl_cons, step]
end

section
variable {P : JPage} {h : Hw}

theorem journalStart_programs (forming : h.mdm.forming = some P) (voted : h.wdn.voteSplit = false) :
    journalStart h = modMdm (fun M => { M with journal := M.journal ++ [{ P with programming := true }], forming := none }) h := by
  simp [journalStart, voted, modMdm, forming]

/-- Page `P` is durable: its records have taken effect, and the commands hear of it (R410, R412). -/
def pageDurable (P : JPage) (h : Hw) : Hw :=
  P.recs.foldl tellDurable (modMdm (fun M => { M with jdone := P.seq + 1 }) (P.recs.foldl applyRec h))

theorem journalDurable_next (next : h.mdm.journal.find? (fun P => P.seq = h.mdm.jdone) = some P) (programming : P.programming = true)
    (voted : h.wdn.voteSplit = false) : journalDurable h = formReady (pageDurable P h) := by
  unfold journalDurable
  rw [next]
  exact if_neg (by simp [programming, voted])

theorem durablePart_pageDurable : durablePart (pageDurable P h) = (P.recs.foldl (fun m r => applyChange m r.chg) h.mdm.map, P.seq + 1) := by
  rw [pageDurable, foldl_keeps durablePart _ _ durablePart_tellDurable]
  exact congrArg (·, P.seq + 1) (map_applyRecs h P.recs)
end

/-! ## Checkpoints and the map root (R413, R414) -/

/-- The durable journal pages that the root has not released. -/
abbrev durablePages (M : Mdm) : List JPage := M.journal.filter (fun P => P.seq < M.jdone)

/-- A checkpoint is due: enough journal has been written, or the interval has passed with a change. -/
abbrev CheckpointDue (h : Hw) : Prop :=
  ckptMib h.mdm * 32 ≤ (durablePages h.mdm).length ∨ 1 ≤ (durablePages h.mdm).length ∧ ckptInterval h.mdm * 100000000 ≤ now h - h.mdm.ckptAt

/-- The checkpoint that would be taken now. -/
def newCheckpoint (M : Mdm) : Ckpt := { map := M.map, seq := M.jdone, gen := M.gen + 1, done := true }

section
variable {h : Hw}

theorem ckptStart_notDue (n : ¬CheckpointDue h) : ckptStart h = h := by
  unfold ckptStart
  exact if_pos (by rw [decide_eq_false n]; rfl)

theorem ckptStart_due (due : CheckpointDue h) (voted : h.wdn.voteSplit = false) : ckptStart h = modMdm (fun M =>
    if M.gen % 2 = 0 then { M with ckptB := some (newCheckpoint h.mdm), ckptAt := now h }
    else { M with ckptA := some (newCheckpoint h.mdm), ckptAt := now h }) h := by
  unfold ckptStart
  exact if_neg (by rw [decide_eq_true due, voted]; decide)

/-- The root names checkpoint `k`, and journal pages older than its SEQ are released. -/
def nameRoot (k : Ckpt) (h : Hw) : Hw :=
  let v := some (rootVal (k.gen % 2) k.gen k.seq)
  modMdm (fun M => { M with gen := k.gen, crit := tput M.crit 1 { copies := [v, v, v] }, journal := M.journal.filter (fun P => k.seq ≤ P.seq) }) h

theorem rootWrite_names {k : Ckpt} (new : (if h.mdm.gen % 2 = 0 then h.mdm.ckptB else h.mdm.ckptA) = some k) (done : k.done = true)
    (next : k.gen = h.mdm.gen + 1) (voted : h.wdn.voteSplit = false) : rootWrite h = nameRoot k h := by
  unfold rootWrite
  dsimp only
  rw [new]
  exact if_neg (by simp [done, next, voted])
end

section
variable {p : Nat} {h : Hw}

theorem pieceReload_starts (whole : h.mdm.pieces.contains p = false) :
    pieceReload p false h = setMdmEvt 4 (modMdm (fun M => { M with pieces := M.pieces ++ [p] }) h) := 
  if_neg (ne_true_of_eq_false whole)

theorem pieceReload_ends (held : h.mdm.pieces.contains p = true) : pieceReload p true h =
    modMdm (fun M => { M with map := { replayed M with sbs := M.map.sbs }, pieces := M.pieces.filter (fun x => x ≠ p) }) h := by
  simp only [pieceReload, held, Bool.not_true, Bool.false_eq_true, if_false]
end

/-- Settles O46: each command by its own equations; a durable page's records make the map, and telling their commands leaves it (`durablePart`). -/
theorem journalAndMap : Obligations.JournalAndMap := by
  intro s h M lz
  refine ⟨?programmed, ?failed, ?start, ?durable, fun q cid => becomes_of rfl rfl, ?checkpoint, ?root, ?piece⟩
  case programmed =>
    intro id p programmed o
    have e := lzProgrammed_eq programmed
    exact ⟨fun inside => becomes_of rfl (e.trans (if_pos inside)), fun outside => becomes_of rfl (e.trans (if_neg (by simp [outside])))⟩
  case failed =>
    intro id p failed o cs h1 live h2 h3 gone move
    refine ⟨fun dropped => becomes_of rfl (lzCopyFail_drops failed dropped), fun sb j h4 wanted place => ?_⟩
    exact becomes_of rfl (lzCopyFail_places failed wanted place)
  case start => exact fun P forming voted => becomes_of rfl (journalStart_programs forming voted)
  case durable =>
    intro P next programming voted o h1 h2
    have e := journalDurable_next next programming voted
    refine ⟨becomes_of rfl e, yields_of rfl ?_⟩
    have seq : P.seq = s.hw.mdm.jdone := by simpa using List.find?_some next
    have durable := (durablePart_formReady _).trans (durablePart_pageDurable (P := P) (h := s.hw))
    rw [e]
    exact ⟨congrArg Prod.fst durable, (congrArg Prod.snd durable).trans (congrArg (· + 1) seq)⟩
  case checkpoint =>
    intro o n due k
    refine ⟨fun n => becomes_of rfl (ckptStart_notDue n), fun due voted even => becomes_of rfl ?_, fun due voted odd => becomes_of rfl ?_⟩
    · exact (ckptStart_due due voted).trans (congrArg (fun M => { s.hw with mdm := M }) (if_pos even))
    · exact (ckptStart_due due voted).trans (congrArg (fun M => { s.hw with mdm := M }) (if_neg (by rw [odd]; decide)))
  case root => exact fun k new done next voted => becomes_of rfl (rootWrite_names new done next voted)
  case piece =>
    exact fun p => ⟨fun n => becomes_of rfl (pieceReload_starts n), fun m => becomes_of rfl (pieceReload_ends m)⟩
end Sys2Proof.Machine
end

section
/-!
Reclamation and destage (15 R407, R416 to R419): which superblock is copied, how a destination row ends, and how a victim is freed.
-/
namespace Sys2Proof.Machine

/-! ## The choice of a victim (R416) -/

/-- The superblock with fewer valid units of the one kept and the next. -/
def pickFewer (M : MapSt) (b : Option (Nat × Nat)) (e : Nat × Sblk) : Option (Nat × Nat) :=
  let v := validUnits M e.1
  match b with
  | none => some (e.1, v)
  | some y => if v < y.2 then some (e.1, v) else b

/-- The superblock of a list with the fewest valid units, and how many. -/
def fewest (M : MapSt) (l : Tbl Sblk) : Option (Nat × Nat) := l.foldl (pickFewer M) none

/-- Superblock `e` of a list has the fewest valid units, and on a tie the lower number where the numbers rise. -/
structure IsFewest (M : MapSt) (l : Tbl Sblk) (e : Nat × Sblk) : Prop where
  mem : e ∈ l
  least : ∀ x, x ∈ l → validUnits M e.1 ≤ validUnits M x.1
  first : l.Pairwise (fun a b => a.1 < b.1) → ∀ x, x ∈ l → validUnits M x.1 = validUnits M e.1 → e.1 ≤ x.1

section
variable {M : MapSt} {l : Tbl Sblk} {e x : Nat × Sblk}

theorem isFewest_concat_lower (f : IsFewest M l e) (lower : validUnits M x.1 < validUnits M e.1) : IsFewest M (l ++ [x]) x where
  mem := by simp
  least y m := by
    obtain m | rfl : y ∈ l ∨ y = x := by simpa using m
    · exact Nat.le_trans (Nat.le_of_lt lower) (f.least y m)
    · exact Nat.le_refl _
  first _ y m tie := by
    obtain m | rfl : y ∈ l ∨ y = x := by simpa using m
    · have := f.least y m
      omega
    · exact Nat.le_refl _

theorem isFewest_concat_keep (f : IsFewest M l e) (keep : ¬validUnits M x.1 < validUnits M e.1) : IsFewest M (l ++ [x]) e where
  mem := List.mem_append_left _ f.mem
  least y m := by
    obtain m | rfl : y ∈ l ∨ y = x := by simpa using m
    · exact f.least y m
    · exact Nat.le_of_not_lt keep
  first rise y m tie := by
    obtain ⟨riseL, -, below⟩ := List.pairwise_append.1 rise
    obtain m | rfl : y ∈ l ∨ y = x := by simpa using m
    · exact f.first riseL y m tie
    · exact Nat.le_of_lt (below e f.mem y (by simp))

theorem pickFewer_some (y : Nat × Nat) :
    pickFewer M (some y) x = if validUnits M x.1 < y.2 then some (x.1, validUnits M x.1) else some y := rfl

/-- The search goes on from the fewest of the superblocks `m` that it has seen. -/
theorem foldl_pickFewer {m : Tbl Sblk} (f : IsFewest M m e) : ∃ y, IsFewest M (m ++ l) y ∧
    l.foldl (pickFewer M) (some (e.1, validUnits M e.1)) = some (y.1, validUnits M y.1) := by
  induction l generalizing m e with
  | nil => exact ⟨e, (List.append_nil m).symm ▸ f, rfl⟩
  | cons x l ih =>
    rw [List.append_cons, List.foldl_cons, pickFewer_some]
    by_cases lower : validUnits M x.1 < validUnits M e.1
    · rw [if_pos lower]
      exact ih (isFewest_concat_lower f lower)
    · rw [if_neg lower]
      exact ih (isFewest_concat_keep f lower)

theorem fewest_of_ne_nil (ne : l ≠ []) : ∃ e, IsFewest M l e ∧ fewest M l = some (e.1, validUnits M e.1) := by
  cases l with
  | nil => exact absurd rfl ne
  | cons x l => exact foldl_pickFewer (m := [x]) ⟨by simp, by simp, by simp⟩
end

/-- The superblocks of a die set that may be copied: marked evict, else full and of 4 bits. -/
def mayBeCopied (M : Mdm) (k : Nat) : Tbl Sblk :=
  let all := M.map.sbs.filter (fun e => e.1 / 7427 = k && e.2.st != 3 && !M.reclaims.any (fun r => r.victim = e.1))
  let evict := all.filter (fun e => e.2.evict)
  if evict = [] then all.filter (fun e => !e.2.zone && e.2.st = 2) else evict

theorem pairwise_mayBeCopied {M : Mdm} {k : Nat} (rise : M.map.sbs.Pairwise (fun a b => a.1 < b.1)) :
    (mayBeCopied M k).Pairwise (fun a b => a.1 < b.1) := by
  unfold mayBeCopied
  dsimp only
  split
  all_goals exact (rise.filter _).filter _

/-- With a first list that has an answer the second is not asked. -/
theorem fewest_or (M : MapSt) (l m : Tbl Sblk) : (fewest M l).or (fewest M m) = fewest M (if l = [] then m else l) := by
  split
  · next empty => rw [empty]; rfl
  · next ne =>
    obtain ⟨e, -, found⟩ := fewest_of_ne_nil ne
    rw [found, Option.some_or]

section
variable {k : Nat} {h : Hw}

theorem reclaimBegin_enough (enough : reclaimStart h.mdm ≤ freeCount h.mdm.map k) : reclaimBegin k h = h := if_pos (.inl enough)

theorem reclaimBegin_copies {e : Nat × Sblk} {n : Nat} (short : freeCount h.mdm.map k < reclaimStart h.mdm) (voted : h.wdn.voteSplit = false)
    (found : fewest h.mdm.map (mayBeCopied h.mdm k) = some (e.1, n)) :
    reclaimBegin k h = beginCopy e.1 (decide (freeCount h.mdm.map k < reclaimUrgent h.mdm)) h := by
  unfold reclaimBegin
  refine (if_neg (by simp [short, voted])).trans ?_
  extract_lets mine best v
  rw [show v = some (e.1, n) from (fewest_or ..).trans found]
end

/-! ## LZ_DESTAGE (R416) -/

section
variable {sb : Nat} {S : Sblk} {h : Hw} (listed : tget h.mdm.map.sbs sb = some S)
include listed

theorem destage_waits (n : S.zone = false ∨ S.st < 2) : destage sb h = h := by
  simp only [destage, listed]
  refine if_neg ?_
  rcases n with n | n
  · simp [n]
  · simp [Nat.not_le.2 n]

theorem destage_copies (zone : S.zone = true) (full : 2 ≤ S.st) (settled : h.mdm.lzPages.any (fun p => p.sb = sb) = false)
    (voted : h.wdn.voteSplit = false) : destage sb h = beginCopy sb false h := by
  simp only [destage, listed]
  exact if_pos (by rw [zone, decide_eq_true full, settled, voted]; decide)
end

/-! ## Ends of a destination row (R417 to R419) -/

section
variable {id sb r : Nat} {d : Dest} {h : Hw} (dest : destOf h id sb = some d)
include dest

section
variable {S : Sblk} (listed : tget h.mdm.map.sbs sb = some S) (row : d.row = some r)
include listed row

/-- A row is judged once each of its pages is programmed. -/
theorem rowVerify_waits (bad : List Nat) (n : d.failed ≠ [] ∨ (inSvc S).all (fun p => d.done.contains p) = false) : rowVerify id sb bad h = h := by
  simp only [rowVerify, dest, listed, row]
  exact if_pos (n.imp_right fun n => .inl (congrArg not n))

variable (clean : d.failed = []) (done : (inSvc S).all (fun p => d.done.contains p) = true) (voted : h.wdn.voteSplit = false)
include clean done voted

theorem rowVerify_again {bad : List Nat} (undecoded : bad ≠ []) :
    rowVerify id sb bad h = modDest id sb (fun d => { d with failed := bad, done := d.done.filter (fun p => !bad.contains p) }) h := by
  simp only [rowVerify, dest, listed, row]
  exact (if_neg (by rw [clean, done, voted]; simp)).trans (if_pos undecoded)

/-- The row's pages and the records of their units. -/
theorem rowVerify_journals :
    let n := max 1 ((inSvc S).length - 2)
    let js := (List.range n).map (fun i => r * n + i)
    let recs := js.flatMap (fun j => pageRecs sb j h.mdm.jseq (tgetD d.pend j .void))
    rowVerify id sb [] h = fill id (modDest id sb (fun d => { d with pend := d.pend.filter (fun e => !js.contains e.1), row := none, done := [] })
      (recs.foldl (fun h x => addRec (keepCount h.mdm.map x) h) h)) := by
  simp only [rowVerify, dest, listed, row]
  exact (if_neg (by rw [clean, done, voted]; simp)).trans (if_neg (not_not_intro rfl))
end
end

/-! ## A row whose program fails (R419) -/

/-- The block of a position joins the grown-defect list, unless its die is dead. -/
def retireMember (sb pos : Nat) (h : Hw) : Hw :=
  let x := memberAt h.mdm.map sb pos
  if dieDead h x.1 then h else growDefect x.1 (physOf (die h x.1) x.2) h

/-- The loose block that takes the place of a position's block, once that is retired. -/
def spareFor (sb pos : Nat) (h : Hw) : Option Nat :=
  let x := memberAt h.mdm.map sb pos
  let k := retireMember sb pos h
  if dieOut k x.1 then none else looseBlock k x.1

/-- The page of a position in a row of a destination: data, or the parity of the row's data (R404). -/
def rowPage (h : Hw) (d : Dest) (S : Sblk) (r pos : Nat) : FPage :=
  let dm := dataMembers S r
  let ds := (List.range dm.length).map (fun q => copyPage h (tgetD d.pend (r * dm.length + q) .void))
  let ns := ds.map (fun (y : FPage) => y.data)
  match dm.findIdx? (fun p => p == pos) with
  | some q => (ds[q]?).getD { data := 0 }
  | none => if (inSvc S)[(parityOf (max 1 (inSvc S).length) r).1]? = some pos then { data := parityP ns } else { data := parityQ ns }

/-- What a destination's pages pending bring, as the copy counts it taken. -/
def pendingKeys (d : Dest) : List (Nat × Nat × Nat) :=
  d.pend.flatMap (fun (e : Nat × PageW) => match e.2 with
    | .units us _ => us.filterMap (fun u => u.map (fun (x : CopyUnit) => (x.vol, x.lba, 0)))
    | .list v l p _ => [(v, l, p + 1)]
    | .void => [])

/-- The destination is closed and evicted, its pages pending void, its programs not yet begun withdrawn, and what they bring copied again. -/
def abandonDest (id sb : Nat) (d : Dest) (h : Hw) : Hw :=
  let h := modMap (fun M => { M with sbs := match tget M.sbs sb with
    | some S => tput M.sbs sb { S with voids := S.voids ++ d.pend.map (fun (e : Nat × PageW) => e.1) }
    | none => M.sbs }) h
  let h := modFlash (fun F => { F with ops := F.ops.filter (fun o => !(o.owner == .row id sb && o.waits)) }) h
  modReclaim id (fun R => { R with dests := R.dests.filter (fun x => x.sb ≠ sb), taken := R.taken.filter (fun t => !(pendingKeys d).contains t) })
    (evictSb sb h)

section
variable {id sb r pos : Nat} {rest : List Nat} {d : Dest} {h : Hw} (dest : destOf h id sb = some d) (row : d.row = some r)
  (failed : d.failed = pos :: rest)
include dest row failed

theorem rowFail_eq : rowFail id sb h =
    match spareFor sb pos h with
    | some new =>
      let k := modDest id sb (fun d => { d with failed := rest }) (substitute sb pos new r (retireMember sb pos h))
      match tget k.mdm.map.sbs sb with
      | none => k
      | some S => flashQueue {
          id := 0, die := (memberAt h.mdm.map sb pos).1, cls := if ((reclaimOf k id).map (fun R => R.urgent)).getD false then 2 else 3, kind := .program
          win := true, blk := new, page := r, data := rowPage k d S r pos, owner := .row id sb, since := 0 } k
    | none => fill id (abandonDest id sb d (retireMember sb pos h)) := by
  unfold rowFail
  rw [dest]
  dsimp only
  rw [row, failed]
  rfl

theorem rowFail_replaces {new : Nat} {S : Sblk} (spare : spareFor sb pos h = some new) :
    let k := modDest id sb (fun d => { d with failed := rest }) (substitute sb pos new r (retireMember sb pos h))
    tget k.mdm.map.sbs sb = some S → rowFail id sb h = flashQueue {
      id := 0, die := (memberAt h.mdm.map sb pos).1, cls := if ((reclaimOf k id).map (fun R => R.urgent)).getD false then 2 else 3, kind := .program
      win := true, blk := new, page := r, data := rowPage k d S r pos, owner := .row id sb, since := 0 } k := by
  intro k listed
  rw [rowFail_eq dest row failed, spare]
  dsimp only
  rw [listed]

theorem rowFail_abandons (bare : spareFor sb pos h = none) : rowFail id sb h = fill id (abandonDest id sb d (retireMember sb pos h)) := by
  rw [rowFail_eq dest row failed, bare]
end

/-! ## VICTIM_ERASE (R417) -/

/-- A read of a member of a superblock is outstanding. -/
def readOut (h : Hw) (sb : Nat) (S : Sblk) : Bool :=
  h.flash.ops.any (fun o => o.kind = .read && o.win && (inSvc S).any (fun p => memberAt h.mdm.map sb p = (o.die, o.blk)))

/-- The positions of a superblock that can be erased. -/
def erasable (h : Hw) (sb : Nat) (S : Sblk) : List Nat :=
  (inSvc S).filter (fun p => !dieDead h (setDie (sb / 7427) p) && !owned h (setDie (sb / 7427) p))

/-- The erases of a victim's members begin. -/
def eraseMembers (id : Nat) (r : Reclaim) (ps : List Nat) (h : Hw) : Hw :=
  ps.foldl (fun h p =>
      flashQueue { id := 0, die := (memberAt h.mdm.map r.victim p).1, cls := if r.urgent then 2 else 3, kind := .erase, win := true
                   blk := (memberAt h.mdm.map r.victim p).2, owner := .victim id p, since := 0 } h)
    (modReclaim id (fun r => { r with erasing := some ps }) h)

/-- A victim that nothing holds back waits for reads of it only, and is free at once when no member is left to erase. -/
theorem victimErase_eq {id : Nat} {r : Reclaim} {S : Sblk} {h : Hw} (found : reclaimOf h id = some r) (listed : tget h.mdm.map.sbs r.victim = some S)
    (idle : r.erasing = none) (empty : validUnits h.mdm.map r.victim = 0) (settled : pendingFrom h r.victim = false)
    (noRow : r.dests.any (fun d => d.row.isSome) = false) (voted : h.wdn.voteSplit = false) :
    victimErase id h = if readOut h r.victim S = true then h
      else if erasable h r.victim S = [] then freeSb id r.victim h else eraseMembers id r (erasable h r.victim S) h := by
  unfold victimErase
  rw [found]
  refine (if_neg (by rw [idle, empty, settled, noRow, voted]; simp)).trans ?_
  rw [listed]
  rfl

/-! ## VOID_PAGE_FILL (R407) -/

/-- The pages that the row begun by a destination's first pending page has not received. -/
def missing (S : Sblk) (d : Dest) : List Nat :=
  let n := max 1 ((inSvc S).length - 2)
  ((List.range n).map (fun i => (d.pend.head?.map (fun e => e.1 / n)).getD 0 * n + i)).filter (fun j => (tget d.pend j).isNone)

/-- The row is made up with void pages, and programmed. -/
def fillWithVoids (id sb : Nat) (S : Sblk) (d : Dest) (h : Hw) : Hw :=
  fill id ((missing S d).foldl (fun h j => destPut id sb j .void h)
    (modMap (fun M => { M with sbs := tput M.sbs sb { S with voids := S.voids ++ missing S d } }) (usePages sb (missing S d) h)))

theorem voidFill_eq {id sb : Nat} {R : Reclaim} {d : Dest} {S : Sblk} {h : Hw} (found : reclaimOf h id = some R) (dest : destOf h id sb = some d)
    (listed : tget h.mdm.map.sbs sb = some S) (idle : d.row = none) (ne : d.pend ≠ []) :
    voidFill id sb h = if now h - d.since < 1000000 ∧ leftIn h R ≠ [] then h else fillWithVoids id sb S d h := by
  simp only [voidFill, found, dest, listed, idle, ne, Option.isSome_none, Bool.false_eq_true, false_or]
  rfl

/-- Settles O47: the victim by the order of the search (`fewest_of_ne_nil`), every other command by its own equations. -/
theorem copiesAndErases : Obligations.CopiesAndErases := by
  intro s h M
  refine ⟨?reclaim, ?destage, ?verify, ?erase, ?fail, ?void⟩
  case reclaim =>
    intro k hk o all ev cand
    have units : decide (k < 16) = true := decide_eq_true hk
    refine ⟨fun enough => becomes_of units (reclaimBegin_enough enough), fun short voted ne => ?_⟩
    obtain ⟨e, f, found⟩ := fewest_of_ne_nil (M := s.hw.mdm.map) (l := mayBeCopied s.hw.mdm k) ne
    exact ⟨e, f.mem, f.least, fun rise => f.first (pairwise_mayBeCopied rise), becomes_of units (reclaimBegin_copies short voted found)⟩
  case destage =>
    intro sb S hsb listed o
    have units : decide (sb < 118832) = true := decide_eq_true hsb
    exact ⟨fun n => becomes_of units (destage_waits listed n), fun zone full settled voted => becomes_of units (destage_copies listed zone full settled voted)⟩
  case verify =>
    intro id sb bad d S r dest listed row o n js recs
    refine ⟨fun n => becomes_of rfl (rowVerify_waits dest listed row bad n), fun clean done voted => ⟨fun undecoded => ?_, fun decoded => ?_⟩⟩
    · exact becomes_of rfl (rowVerify_again dest listed row clean done voted undecoded)
    · subst decoded
      exact becomes_of rfl (rowVerify_journals dest listed row clean done voted)
  case erase =>
    intro id r S found listed idle empty settled noRow voted o ps reads
    have e := victimErase_eq found listed idle empty settled noRow voted
    refine ⟨fun out => becomes_of rfl (e.trans (if_pos out)), fun quiet nothing => ?_, fun quiet members => ?_⟩
    · exact becomes_of rfl (e.trans ((if_neg (ne_true_of_eq_false quiet)).trans (if_pos nothing)))
    · exact becomes_of rfl (e.trans ((if_neg (ne_true_of_eq_false quiet)).trans (if_neg members)))
  case fail =>
    intro id sb d r pos rest dest row failed o x h1 spare
    refine ⟨?_, fun bare => becomes_of rfl (rowFail_abandons dest row failed bare)⟩
    intro new loose h2 S listed dm ds ns data
    exact becomes_of rfl (rowFail_replaces dest row failed loose listed)
  case void =>
    intro id sb R d S found dest listed idle ne o n miss
    have e := voidFill_eq found dest listed idle ne
    refine ⟨fun young left => becomes_of rfl (e.trans (if_pos ⟨young, left⟩)), fun due => becomes_of rfl (e.trans (if_neg fun ⟨young, left⟩ => ?_))⟩
    exact due.elim (Nat.not_le.2 young) left

end Sys2Proof.Machine
end

section
/-!
Read-only retirement, the phases of a sanitize, and an hour of power (15 R424 to R429).
-/
namespace Sys2Proof.Machine

/-! ## READ_ONLY_ENTRY (R425) -/

/-- The WRITEs that still need space of the landing zone. -/
def needSpace (h : Hw) : List Writing := h.mdm.writes.filter (fun w => !w.trim && decide (w.placed < w.n))

/-- An APPEND is under way. -/
def appending (h : Hw) : Bool := h.probe.scans.any (fun s => s.kind = 3 && !s.ended)

/-- A WRITE ends for want of space. -/
def refuseWrite (h : Hw) (w : Writing) : Hw :=
  match h.host.cmds.find? (fun c => c.id = w.cmd) with
  | some c => endWrite w c stCapacity h
  | none => h

/-- The module reads only, and has reported it. -/
def retire (h : Hw) : Hw := setMdmEvt 2 (modMdm (fun M => { M with readOnly := true }) h)

section
variable {h : Hw}

theorem readOnlyEntry_keeps (n : 0 < spare h ∨ h.mdm.readOnly = true ∨ needSpace h = [] ∧ appending h = false) : readOnlyEntry h = h :=
  if_pos (n.imp_right (Or.imp_right (And.imp_right (congrArg not))))

theorem readOnlyEntry_retires (worn : spare h ≤ 0) (writable : h.mdm.readOnly = false) (needed : needSpace h ≠ [] ∨ appending h = true) :
    readOnlyEntry h = (needSpace h).foldl refuseWrite (retire h) := by
  refine if_neg fun quiet => ?_
  obtain more | shut | ⟨noWrite, noAppend⟩ := quiet
  · exact absurd more (Int.not_lt.2 worn)
  · exact absurd (writable.symm.trans shut) nofun
  · exact needed.elim (· noWrite) (fun app => absurd (noAppend.symm.trans (congrArg not app)) nofun)
end

theorem readOnly_refuseWrite (h : Hw) (w : Writing) : (refuseWrite h w).mdm.readOnly = h.mdm.readOnly := by
  unfold refuseWrite
  split
  · next c _ =>
    obtain ⟨keep, e⟩ := endWrite_mdm w c stCapacity h
    rw [e]
    rfl
  · rfl

theorem readOnly_retire (h : Hw) : (retire h).mdm.readOnly = true := by
  obtain ⟨evt, e⟩ := setMdmEvt_mdm (modMdm (fun M => { M with readOnly := true }) h) 2
  rw [retire, e]
  rfl

theorem readOnly_refuseWrites (h : Hw) (l : List Writing) : (l.foldl refuseWrite (retire h)).mdm.readOnly = true :=
  (foldl_keeps (·.mdm.readOnly) l _ readOnly_refuseWrite _).trans (readOnly_retire h)

/-! ## SANITIZE_PHASE1 (R427) -/

/-- The Media Manager but for its grown-defect list. -/
def pastDefects (h : Hw) : Mdm := { h.mdm with defects := [] }

theorem pastDefects_growDefect (d p : Nat) (h : Hw) : pastDefects (growDefect d p h) = pastDefects h := by
  unfold growDefect
  dsimp only
  split <;> rfl

/-- The blocks of a die are erased, those whose erase fails retired. -/
def eraseDie (d : Nat) (bad : List Nat) (h : Hw) : Hw :=
  bad.foldl (fun h p => growDefect d p h) (modDie d (fun D => { D with blks := D.blks.map (fun e => (e.1, eraseDone e.2 (!bad.contains e.1))) }) h)

theorem pastDefects_eraseDie (d : Nat) (bad : List Nat) (h : Hw) : pastDefects (eraseDie d bad h) = pastDefects h :=
  foldl_keeps pastDefects bad _ (fun h p => pastDefects_growDefect d p h) _

/-- A die has been done. -/
def dieDone (d : Nat) (bad : List Nat) (h : Hw) : Hw :=
  modMdm (fun M => { M with san := { M.san with dies := d :: h.mdm.san.dies } }) (eraseDie d bad h)

/-- The map, journal and checkpoints are gone, and phase 2 follows. -/
def wipe (h : Hw) : Hw :=
  modFlash (fun F => { F with ops := [], landings := F.landings.map (fun e => (e.1, { e.2 with buf := [] })) })
    (modMdm (fun M => { M with
      san := { M.san with state := 2, dies := [], recorded := [] }, map := wipedMap M.map, journal := [], forming := none
      ckptA := none, ckptB := none, gen := 0, jseq := 0, jdone := 0, lz := {}, copy := {}, lists := {}, listCopy := {}
      lzPages := [], reclaims := [], spanAt := [] }) h)

section
variable {d : Nat} {bad : List Nat} {h : Hw}

theorem sanPhase1_keeps (n : h.mdm.san.state ≠ 1 ∨ h.mdm.san.durable = false ∨ h.mdm.san.dies.contains d = true ∨ dieDead h d = true) :
    sanPhase1 d bad h = h := if_pos (n.imp_right (Or.imp_left (congrArg not)))

theorem sanPhase1_erases (phase : h.mdm.san.state = 1) (durable : h.mdm.san.durable = true) (due : h.mdm.san.dies.contains d = false)
    (alive : dieDead h d = false) : sanPhase1 d bad h =
      if (sanDies (dieDone d bad h)).all (fun x => (d :: h.mdm.san.dies).contains x) then wipe (dieDone d bad h) else dieDone d bad h :=
  if_neg (by rw [phase, durable, due, alive]; simp)

theorem dieDone_san : (dieDone d bad h).mdm.san = { h.mdm.san with dies := d :: h.mdm.san.dies } :=
  congrArg (fun M : Mdm => { M.san with dies := d :: h.mdm.san.dies }) (pastDefects_eraseDie d bad h)
theorem dieDone_map : (dieDone d bad h).mdm.map = h.mdm.map := (congrArg Mdm.map (pastDefects_eraseDie d bad h) :)
theorem dieDone_readOnly : (dieDone d bad h).mdm.readOnly = h.mdm.readOnly := (congrArg Mdm.readOnly (pastDefects_eraseDie d bad h) :)
end

/-! ## The other phases, and hours (R427 to R429) -/

section
variable {h : Hw}

theorem sanPhase2_rewrites (phase : h.mdm.san.state = 2) : sanPhase2 h = modMdm (fun M => { M with san := { M.san with dies := List.range 512 } }) h :=
  if_neg (not_not_intro phase)

theorem sanEnd_ends (phase : h.mdm.san.state = 2) (done : h.mdm.san.dies ≠ []) :
    sanEnd h = setMdmEvt 3 { modMdm (fun M => { M with san := { state := 3 } }) h with host := { h.host with sanitize := false } } :=
  if_neg (not_or.2 ⟨not_not_intro phase, done⟩)

/-- Each sensor's bin counts one more (R429). -/
def countTemps (sensors : Tbl Int) (t : Tbl Nat) : Tbl Nat :=
  sensors.foldl (fun t s => let k := 24 * s.1 + tempBin s.2; tput t k (satAdd 32 (tgetD t k 0) 1)) t

theorem powerOnHour_mdm (due : (h.mdm.hourMark + 1) * 360000000000 ≤ now h) : (powerOnHour h).mdm =
    { h.mdm with hours := satAdd 64 h.mdm.hours 1, hourMark := h.mdm.hourMark + 1, temps := countTemps h.wdn.sensors h.mdm.temps } := by
  unfold powerOnHour
  rw [if_neg (Nat.not_lt.2 due)]
  simp only [modMdm, countUp_mdm, countUp_wdn]
  rfl
end

/-- Settles O49: each command by its own equations; what an erased die leaves of the Media Manager is `pastDefects_eraseDie`. -/
theorem retirementSanitizeAndHours : Obligations.RetirementSanitizeAndHours := by
  intro s h M S
  refine ⟨?retire, ?phase1, fun phase => becomes_of rfl (sanPhase2_rewrites phase), fun durable => becomes_of rfl (if_pos durable),
    fun phase done => becomes_of rfl (sanEnd_ends phase done), ?hour⟩
  case retire =>
    intro o needy app
    refine ⟨fun n => becomes_of rfl (readOnlyEntry_keeps n), fun worn writable needed => ?_⟩
    have e := readOnlyEntry_retires worn writable needed
    refine ⟨becomes_of rfl e, yields_of rfl ?_⟩
    rw [e]
    exact readOnly_refuseWrites ..
  case phase1 =>
    intro d bad hd o
    have units : decide (d < 512) = true := decide_eq_true hd
    refine ⟨fun n => becomes_of units (sanPhase1_keeps n), fun phase durable due alive => ?_⟩
    intro dies h1 h2
    have e := sanPhase1_erases (bad := bad) phase durable due alive
    refine ⟨fun more => becomes_of units (e.trans (if_neg (ne_true_of_eq_false more))), fun last => yields_of units ?_⟩
    rw [e.trans (if_pos last)]
    refine ⟨rfl, ?_, congrArg wipedMap dieDone_map, rfl, rfl, rfl, rfl, rfl, rfl, rfl, dieDone_readOnly⟩
    exact congrArg (fun S : Sanit => { S with state := 2, dies := [], recorded := [] }) dieDone_san
  case hour =>
    refine ⟨fun early => becomes_of rfl (if_pos early), fun due below => yields_of rfl ?_⟩
    rw [powerOnHour_mdm due]
    exact ⟨Nat.min_eq_left below, rfl, rfl⟩

end Sys2Proof.Machine
end

section
/-!
The data commands (18 R476 to R481; 15 R401, R405, R410, R425): what each answers, waits for and places.
-/
namespace Sys2Proof.Machine

/-! ## Commands of a volume's units (18 R476; 15 R401) -/

/-- The fields of a command on at most `most` units are in range. -/
def UnitFields (c : Cmd) (most : Nat) (data : Bool) : Prop :=
  c.zeros [(36, 28)] = true ∧ c.units ≠ 0 ∧ c.units ≤ most ∧ c.dataLen = (if data = true then 4096 * c.units else 0)

section
variable {c : Cmd} {h : Hw} {most : Nat} {data : Bool}

theorem unitFields_iff : (!(c.zeros [(36, 28)]) || decide (c.units = 0) || decide (most < c.units) ||
    c.dataLen != (if data then 4096 * c.units else 0)) = false ↔ UnitFields c most data := by
  simp [UnitFields, and_assoc]

theorem unitStatus_invalid (n : ¬UnitFields c most data) : unitStatus h c most data = some stInvalidField :=
  if_pos (eq_true_of_ne_false (mt unitFields_iff.1 n))

variable (ok : UnitFields c most data)
include ok

theorem unitStatus_noVolume (absent : volume h c.target = none) : unitStatus h c most data = some 0x60 := by
  unfold unitStatus
  rw [if_neg (ne_true_of_eq_false (unitFields_iff.2 ok)), absent]

variable {V : Volume} (found : volume h c.target = some V)
include found

theorem unitStatus_index (index : V.ty ≠ 0) : unitStatus h c most data = some 0x61 := by
  unfold unitStatus
  rw [if_neg (ne_true_of_eq_false (unitFields_iff.2 ok)), found]
  exact if_pos (bne_iff_ne.2 index)

theorem unitStatus_beyond (block : V.ty = 0) (beyond : V.blocks < c.lba + c.units) : unitStatus h c most data = some 0x62 := by
  unfold unitStatus
  rw [if_neg (ne_true_of_eq_false (unitFields_iff.2 ok)), found]
  exact (if_neg (by simp [block])).trans (if_pos beyond)
end

/-- A command that ends with any status its units give ends with the one that R401 and R476 name. -/
theorem units_answered {c : Cmd} {s : State} {o : Host.Outcome State Fault Refusal} {most : Nat} {data : Bool} {H : Hw}
    (ends : ∀ st, unitStatus H c most data = some st → Becomes o s (endCmd c.id st H)) :
    (¬UnitFields c most data → Becomes o s (endCmd c.id stInvalidField H)) ∧
      (UnitFields c most data → volume H c.target = none → Becomes o s (endCmd c.id 0x60 H)) ∧
      ∀ V, UnitFields c most data → volume H c.target = some V →
        (V.ty ≠ 0 → Becomes o s (endCmd c.id 0x61 H)) ∧ (V.ty = 0 → V.blocks < c.lba + c.units → Becomes o s (endCmd c.id 0x62 H)) :=
  ⟨fun n => ends _ (unitStatus_invalid n), fun ok absent => ends _ (unitStatus_noVolume ok absent),
    fun _ ok found => ⟨fun index => ends _ (unitStatus_index ok found index), fun block beyond => ends _ (unitStatus_beyond ok found block beyond)⟩⟩

/-! ## READ, WRITE and TRIM -/

section
variable {c : Cmd} {h : Hw}

theorem readBody_ends {st : Nat} (e : unitStatus h c 4096 true = some st) : readBody c h = endCmd c.id st h := by
  simp only [readBody, e]

theorem readBody_waits (e : unitStatus h c 4096 true = none) (n : c.progress ≠ 0 ∨ mustWait h c false = true) : readBody c h = h := by
  simp only [readBody, e]
  exact if_pos (by simpa using n)

theorem readBody_asks (e : unitStatus h c 4096 true = none) (new : c.progress = 0) (turn : mustWait h c false = false) :
    readBody c h = volumeReads c.target c.lba c.units (fun i => .unit c.id i) (setProgress c 1 h) := by
  simp only [readBody, e]
  exact if_neg (by simp [new, turn])

/-- A WRITE or TRIM is being carried out from now on. -/
def startWriting (w : Writing) (h : Hw) : Hw := modMdm (fun M => { M with writes := M.writes ++ [w] }) h

theorem writeBody_places {w : Writing} (begun : writing h c.id = some w) :
    writeBody c h = (List.range (w.n - w.placed)).foldl (fun h _ => placePage c.id h) h := by
  simp only [writeBody, begun]

/-- The records of one journal page at most. -/
def trimPage (id : Nat) (h : Hw) : Hw := (List.range 2044).foldl (fun h _ => trimRec id h) h

theorem trimBody_places {w : Writing} (begun : writing h c.id = some w) : trimBody c h = trimPage c.id h := by
  simp only [trimBody, begun, trimPage]

section
variable (new : writing h c.id = none)
include new

theorem writeBody_ends {st : Nat} (e : unitStatus h c 4096 true = some st) : writeBody c h = endCmd c.id st h := by
  simp only [writeBody, new, e]
theorem writeBody_eq (e : unitStatus h c 4096 true = none) : writeBody c h =
    if mustWait h c true then h
    else if h.mdm.readOnly then endCmd c.id stCapacity h
    else askData c c.dataLen (startWriting { cmd := c.id, trim := false, vol := c.target, lba := c.lba, n := c.units } h) := by
  simp only [writeBody, new, e]
  rfl

theorem trimBody_ends {st : Nat} (e : unitStatus h c (2 ^ 32 - 1) false = some st) : trimBody c h = endCmd c.id st h := by
  simp only [trimBody, new, e]
theorem trimBody_eq (e : unitStatus h c (2 ^ 32 - 1) false = none) : trimBody c h =
    if mustWait h c true then h
    else trimPage c.id (startWriting { cmd := c.id, trim := true, vol := c.target, lba := c.lba, n := c.units } h) := by
  simp only [trimBody, new, e]
  rfl
end
end

/-! ## Transfers of objects (18 R477) -/

/-- How a transfer ends: with all ones, or with the offset of the first bad word. -/
def transferEnd : Option Nat → Comp
  | none => { status := stOk, result := 2 ^ 64 - 1 }
  | some b => { status := stUncorrectable, result := b }

theorem objEnd_eq (c : Cmd) (bad : Option Nat) (h : Hw) : objEnd c bad h = finishCmd c.id (transferEnd bad) h := by
  cases bad <;> rfl

/-- The first uncorrectable word of an object that a transfer reads. -/
def firstUnread (c : Cmd) (b : Obj) (m : ObjMem) : Option Nat :=
  firstBad m b.tier (fun w => meet (w * wordBytes b.tier) (wordBytes b.tier) c.lba c.dataLen)

/-- The bytes that a transfer reads: those before the first uncorrectable word. -/
def goodBytes (c : Cmd) : Option Nat → Nat
  | none => c.dataLen
  | some b => b - c.lba

/-- The galleries in whose copy of an object a transfer writes: one stands for all above the bays. -/
def copiesOf (h : Hw) (x : Nat) (b : Obj) : List Nat := if b.tier = 0 then partGals h (x / 4) else [0]

/-- The first uncorrectable word that a transfer writes in part, of any copy. -/
def firstUnwritten (c : Cmd) (x : Nat) (b : Obj) (h : Hw) : Option Nat :=
  let W := wordBytes b.tier
  let part := fun (w : Nat) => meet (w * W) W c.lba c.dataLen && !(decide (c.lba ≤ w * W) && decide ((w + 1) * W ≤ c.lba + c.dataLen))
  (copiesOf h x b).foldl (fun (a : Option Nat) g => match firstBad (objMem h (objKey x b g)) b.tier part, a with
    | none, a => a
    | some a, none => some a
    | some a, some a' => some (min a a')) none

/-- Every copy of an object holds the data of a transfer. -/
def writeCopies (c : Cmd) (x : Nat) (b : Obj) (d : Nat) (h : Hw) : Hw :=
  (copiesOf h x b).foldl (fun k g => modMem k (objKey x b g) (fun m => (m.store b.tier (bytesAt c.lba c.dataLen d)).1)) h

section
variable {c : Cmd} {h : Hw} {x : Nat} {b : Obj}

theorem objReadBody_ends {st : Nat} (e : objOf h c false = .error st) : objReadBody c h = endCmd c.id st h := by
  simp only [objReadBody, e]
theorem objReadBody_waits (e : objOf h c false = .ok (x, b)) (waits : objWaits h c = true) : objReadBody c h = h := by
  simp only [objReadBody, e, waits, if_true]
theorem objReadBody_moves (e : objOf h c false = .ok (x, b)) (turn : objWaits h c = false) :
    let m := objMem h (objKey x b 0)
    let n := goodBytes c (firstUnread c b m)
    objReadBody c h = finishCmd c.id (transferEnd (firstUnread c b m))
      (hostWrite c.addr n (m.readLE c.lba n) (dramAccess x 0 b c.lba c.dataLen 3 false none h)) := by
  intro m n
  rw [← objEnd_eq]
  simp only [objReadBody, e, turn, Bool.false_eq_true, if_false]
  rfl

theorem objWriteBody_ends {st : Nat} (e : objOf h c true = .error st) : objWriteBody c h = endCmd c.id st h := by
  simp only [objWriteBody, e]
theorem objWriteBody_waits (e : objOf h c true = .ok (x, b)) (waits : objWaits h c = true) : objWriteBody c h = h := by
  simp only [objWriteBody, e, waits, if_true]
theorem objWriteBody_asks (e : objOf h c true = .ok (x, b)) (turn : objWaits h c = false) (awaited : dataOf c c.dataLen = none) :
    objWriteBody c h = askData c c.dataLen h := by
  simp only [objWriteBody, e, turn, withData, awaited, Bool.false_eq_true, if_false]
theorem objWriteBody_moves {d : Nat} (e : objOf h c true = .ok (x, b)) (turn : objWaits h c = false) (data : dataOf c c.dataLen = some d) :
    objWriteBody c h = finishCmd c.id (transferEnd (firstUnwritten c x b h))
      (dramAccess x 0 b c.lba c.dataLen 3 true none (writeCopies c x b d h)) := by
  rw [← objEnd_eq]
  simp only [objWriteBody, e, turn, withData, data, Bool.false_eq_true, if_false]
  rfl
end

/-- Settles O52: each command by its own equations; the statuses of a volume's units are judged once for the three that have units
(`units_answered`). -/
theorem dataCommands : Obligations.DataCommands := by
  intro q slot c s H status writes ends
  refine ⟨fun d => ?read, fun d => ?write, fun d => ?trim, fun d => ?flush, fun d => ?objRead, fun d => ?objWrite⟩
  case read =>
    exact ⟨units_answered fun st e => becomes_carry d (readBody_ends e), fun e => ⟨fun n => becomes_carry d (readBody_waits e n),
      fun new turn => becomes_carry d (readBody_asks (h := H) e new turn)⟩⟩
  case write =>
    refine ⟨fun w begun => becomes_carry d (writeBody_places begun), fun new =>
      ⟨units_answered fun st e => becomes_carry d (writeBody_ends new e), fun e => ?_⟩⟩
    have eq := writeBody_eq (h := H) new e
    refine ⟨fun waits => becomes_carry d (eq.trans (if_pos waits)), fun turn readOnly => ?_, fun turn writable => ?_⟩
    · exact becomes_carry d (eq.trans ((if_neg (ne_true_of_eq_false turn)).trans (if_pos readOnly)))
    · exact becomes_carry d (eq.trans ((if_neg (ne_true_of_eq_false turn)).trans (if_neg (ne_true_of_eq_false writable))))
  case trim =>
    intro o recs
    refine ⟨fun w begun => becomes_carry d (trimBody_places begun), fun new =>
      ⟨units_answered fun st e => becomes_carry d (trimBody_ends new e), fun e => ?_⟩⟩
    have eq := trimBody_eq (h := H) new e
    exact ⟨fun waits => becomes_carry d (eq.trans (if_pos waits)), fun turn => becomes_carry d (eq.trans (if_neg (ne_true_of_eq_false turn)))⟩
  case flush =>
    intro o ok before
    obtain ⟨invalid, judged⟩ := becomes_needFields (P := ok) (body := flushBody) d (p := Iff.rfl)
    refine ⟨invalid, fun y earlier => becomes_congr (judged y) (if_pos ?_), fun y settled => becomes_congr (judged y) (if_neg ?_)⟩
    · exact Bool.or_eq_true_iff.2 earlier
    · exact mt Bool.or_eq_true_iff.1 settled
  case objRead =>
    refine ⟨fun st e => becomes_carry d (objReadBody_ends e), fun x b e => ⟨fun waits => becomes_carry d (objReadBody_waits e waits), fun turn => ?_⟩⟩
    exact becomes_carry d (objReadBody_moves e turn)
  case objWrite =>
    refine ⟨fun st e => becomes_carry d (objWriteBody_ends e), fun x b e => ⟨fun waits => becomes_carry d (objWriteBody_waits e waits),
      fun turn awaited => becomes_carry d (objWriteBody_asks e turn awaited), fun m turn data => ?_⟩⟩
    exact becomes_carry d (objWriteBody_moves e turn data)

end Sys2Proof.Machine
end

section
/-!
ABORT (18 R482), and the creation and deletion of volumes (15 R398 to R400).
-/
namespace Sys2Proof.Machine

/-! ## ABORT (18 R482) -/

def AbortFields (c : Cmd) : Prop := c.zeros [(4, 4), (16, 4), (25, 1), (28, 36)] = true

/-- The unfinished command that an ABORT names. -/
def abortTarget (c : Cmd) (h : Hw) : Option Cmd :=
  h.host.cmds.find? (fun x => x.q = c.fld 24 1 && x.cid = c.fld 26 2 && !x.badCid && x.comp.isNone && x.id != c.id)

section
variable {t : Cmd} {h : Hw}

theorem abortStop_abort (op : t.opcode = 0x0B) : abortStop t h = none := if_pos op

/-- READ, FLUSH and JOB_LOAD can be stopped at any time. -/
theorem abortStop_always (op : t.opcode = 0x20 ∨ t.opcode = 0x23 ∨ t.opcode = 0x40) : abortStop t h = some (endCmd t.id stAbortCaught h) :=
  (if_neg (by omega)).trans (if_pos op)
end

section
variable {c : Cmd} {h : Hw}

section
variable (caught : c.progress ≠ 0)
include caught

theorem abortBody_waits (there : h.host.cmds.any (fun x => x.id + 1 = c.progress) = true) : abortBody c h = h :=
  (if_pos (bne_iff_ne.2 caught)).trans (if_pos there)
theorem abortBody_ends (written : h.host.cmds.any (fun x => x.id + 1 = c.progress) = false) : abortBody c h = endCmd c.id stAbortCaught h :=
  (if_pos (bne_iff_ne.2 caught)).trans (if_neg (ne_true_of_eq_false written))
end

section
variable (new : c.progress = 0)
include new

theorem abortBody_invalid (n : ¬AbortFields c) : abortBody c h = endCmd c.id stInvalidField h :=
  (if_neg (by simp [new])).trans (needFields_not n)

variable (ok : AbortFields c)
include ok

/-- A new ABORT with its fields in range misses, or stops its target. -/
theorem abortBody_eq : abortBody c h = match abortTarget c h with
    | none => endCmd c.id stAbortMissed h
    | some t => match abortStop t h with
      | none => endCmd c.id stAbortMissed h
      | some k => setProgress c (t.id + 1) k :=
  (if_neg (by simp [new])).trans (needFields_of ok)

theorem abortBody_noTarget (nobody : abortTarget c h = none) : abortBody c h = endCmd c.id stAbortMissed h := by
  rw [abortBody_eq new ok, nobody]

variable {t : Cmd} (target : abortTarget c h = some t)
include target

theorem abortBody_misses (runs : abortStop t h = none) : abortBody c h = endCmd c.id stAbortMissed h := by
  rw [abortBody_eq new ok, target]
  dsimp only
  rw [runs]
theorem abortBody_catches {k : Hw} (stops : abortStop t h = some k) : abortBody c h = setProgress c (t.id + 1) k := by
  rw [abortBody_eq new ok, target]
  dsimp only
  rw [stops]
end
end

/-! ## SET_FEATURE(VOLUME) (15 R398 to R400, R412) -/

/-- A creation or deletion of a volume waits: for its own record, for recovery, or for another that is not durable (log 44). -/
def VolumeWaits (c : Cmd) (h : Hw) : Prop := c.progress ≠ 0 ∨ h.mdm.recovering = true ∨ volumePending h = true

def DeleteFields (c : Cmd) (h : Hw) : Prop := c.zeros [(4, 4), (16, 4), (25, 7), (38, 2), (53, 3)] = true ∧ (volume h (c.fld 32 4)).isSome = true

/-- The blocks of all volumes with those of a new one. -/
def totalBlocks (h : Hw) (V : Volume) : Nat := h.mdm.map.vols.foldl (fun (n : Nat) e => n + e.2.blocks) V.blocks

/-- An object is bound to the volume (R400). -/
def isBound (h : Hw) (v : Nat) : Bool :=
  (List.range 32).any (fun x => (ctx h x).st != .free && (ctx h x).objs.any (fun o => o.tier = 3 && o.bindId = v))

section
variable {c : Cmd} {h : Hw}

theorem volumeWaits_iff : (c.progress != 0 || h.mdm.recovering || volumePending h) = true ↔ VolumeWaits c h := by
  simp [VolumeWaits, or_assoc]
theorem deleteFields_iff : (c.zeros [(4, 4), (16, 4), (25, 7), (38, 2), (53, 3)] && (volume h (c.fld 32 4)).isSome) = true ↔ DeleteFields c h := by
  simp [DeleteFields]

theorem volumeCreate_waits (w : VolumeWaits c h) : volumeCreate c h = h := if_pos (volumeWaits_iff.2 w)
theorem volumeDelete_waits (w : VolumeWaits c h) : volumeDelete c h = h := if_pos (volumeWaits_iff.2 w)

section
variable (turn : ¬VolumeWaits c h)
include turn

theorem volumeCreate_invalid (n : volumeOf c = none) : volumeCreate c h = endCmd c.id stInvalidField h := by
  unfold volumeCreate
  rw [if_neg (mt volumeWaits_iff.1 turn), n]

/-- A descriptor in range meets the identifier first, then the user capacity (R399). -/
theorem volumeCreate_eq {v : Nat} {V : Volume} (asked : volumeOf c = some (v, V)) : volumeCreate c h =
    if (volume h v).isSome then endCmd c.id stInvalidField h
    else if 52734375000 < totalBlocks h V then endCmd c.id 0x40 h
    else volumeRec c v (some V) h := by
  unfold volumeCreate
  rw [if_neg (mt volumeWaits_iff.1 turn), asked]
  rfl

theorem volumeDelete_eq : volumeDelete c h =
    needFields c (c.zeros [(4, 4), (16, 4), (25, 7), (38, 2), (53, 3)] && (volume h (c.fld 32 4)).isSome) (fun h =>
      if isBound h (c.fld 32 4) then endCmd c.id stBusy h else volumeRec c (c.fld 32 4) none (bufDrop (c.fld 32 4) 0 (2 ^ 64) h)) h :=
  if_neg (mt volumeWaits_iff.1 turn)
end
end

/-- Settles O53: each command by its own equations. -/
theorem abortAndVolumes : Obligations.AbortAndVolumes := by
  intro q slot c s H
  refine ⟨fun d => ?abort, fun d => ?create, fun d => ?delete⟩
  case abort =>
    refine ⟨fun caught there => becomes_carry d (abortBody_waits caught there), fun caught written => becomes_carry d (abortBody_ends caught written),
      fun new n => becomes_carry d (abortBody_invalid new n), fun new ok nobody => becomes_carry d (abortBody_noTarget new ok nobody),
      fun t new ok target => ⟨fun runs => ?_, fun h stops => ?_, fun op => ?_, fun op => ?_⟩⟩
    · exact becomes_carry d (abortBody_misses new ok target runs)
    · exact becomes_carry d (abortBody_catches new ok target stops)
    · exact becomes_carry d (abortBody_catches new ok target (abortStop_always op))
    · exact becomes_carry d (abortBody_misses new ok target (abortStop_abort op))
  case create =>
    refine ⟨fun w => becomes_carry d (volumeCreate_waits w), fun turn n => becomes_carry d (volumeCreate_invalid turn n), ?_⟩
    intro v V turn asked total
    have e := volumeCreate_eq (h := H) turn asked
    refine ⟨fun used => becomes_carry d (e.trans (if_pos used)), fun free beyond => ?_, fun free fits => ?_⟩
    all_goals have unused : ¬(volume H v).isSome = true := by simp [free]
    · exact becomes_carry d (e.trans ((if_neg unused).trans (if_pos beyond)))
    · exact becomes_carry d (e.trans ((if_neg unused).trans (if_neg (Nat.not_lt.2 fits))))
  case delete =>
    intro o v wait ok bound
    refine ⟨fun w => becomes_carry d (volumeDelete_waits w), ?_⟩
    have judged := fun turn : ¬VolumeWaits c H => becomes_checked d (volumeDelete_eq turn) deleteFields_iff
    refine ⟨fun turn n => (judged turn).1 n, fun turn y taken => ?_, fun turn y free => ?_⟩
    · exact becomes_congr ((judged turn).2 y) (if_pos taken)
    · exact becomes_congr ((judged turn).2 y) (if_neg (ne_true_of_eq_false free))

end Sys2Proof.Machine
end

section
/-!
Serving another module's requests at the owner (19 R509 to R512): READ, WRITE and ADD after the checks of R510, MAIL and the remote mail store.
-/
namespace Sys2Proof.Machine

/-! ## A delivered packet -/

/-- What serving makes of the state: nothing without a delivered packet of its type, else `body` of the packet taken from the router (R510). -/
def serveDelivered (ty : Nat) (body : Packet → Hw → Hw) (h : Hw) : Hw :=
  match takeDelivered ty h with
  | none => h
  | some (p, h) => body p h

theorem becomes_idle {f : Hw → Hw} {ty : Nat} {body : Packet → Hw → Hw} {s : State} (eq : ∀ h, f h = serveDelivered ty body h)
    (idle : takeDelivered ty s.hw = none) : Becomes (act true f s) s s.hw :=
  becomes_of rfl (by rw [eq, serveDelivered, idle])

theorem becomes_served {f : Hw → Hw} {ty : Nat} {body : Packet → Hw → Hw} {s : State} {p : Packet} {h k : Hw} (eq : ∀ h, f h = serveDelivered ty body h)
    (delivered : takeDelivered ty s.hw = some (p, h)) (e : body p h = k) : Becomes (act true f s) s k :=
  becomes_of rfl (by rw [eq, serveDelivered, delivered]; exact e)

/-! ## READ, WRITE and ADD (R510) -/

/-- The answer to a request for `size p` bytes: NACK with the refusal of the owner's checks, else what `answer` makes of the object (R510). -/
def ownerAnswer (need : Right) (size : Packet → Nat) (answer : Packet → Obj → Nat → Hw → Hw) (p : Packet) (h : Hw) : Hw :=
  match ownerCheck h p (BitVec.ofNat 64 p.body) (size p) need with
  | .error st => nack p st h
  | .ok (o, off) => answer p o off h

/-- A request's two answers, as R510 has them for every type. -/
theorem becomes_ownerAnswer {f : Hw → Hw} {ty : Nat} {need : Right} {size : Packet → Nat} {answer : Packet → Obj → Nat → Hw → Hw} {s : State} {p : Packet}
    {h : Hw} (eq : ∀ h, f h = serveDelivered ty (ownerAnswer need size answer) h) (delivered : takeDelivered ty s.hw = some (p, h)) :
    (∀ e, ownerCheck h p (BitVec.ofNat 64 p.body) (size p) need = .error e → Becomes (act true f s) s (nack p e h)) ∧
      ∀ ob off, ownerCheck h p (BitVec.ofNat 64 p.body) (size p) need = .ok (ob, off) → Becomes (act true f s) s (answer p ob off h) :=
  ⟨fun _ refused => becomes_served eq delivered (by rw [ownerAnswer, refused]),
    fun _ _ found => becomes_served eq delivered (by rw [ownerAnswer, found])⟩

/-- The bytes that a READ or a WRITE asks for. -/
def askedBytes (p : Packet) : Nat := p.body / 256 ^ 8 % 2 ^ 32

/-- The lanes or elements of a WRITE or an ADD that are written. -/
def laneMask (p : Packet) : Nat := p.body / 256 ^ 16 % 2 ^ 128

/-- A DATA packet of `len` bytes to the issuer of `p` (R510). -/
def sendData (p : Packet) (len st body : Nat) (h : Hw) : Hw :=
  enqueuePkt { dest := p.src, src := h.ffu.id, ty := 0x81, tag := p.tag, status := st, peer := p.peer, len, body } h

/-- The object read: UNCORRECTABLE, or its bytes in packets of up to 4,096 (R510). -/
def readAnswer (p : Packet) (o : Obj) (off : Nat) (h : Hw) : Hw :=
  let m := objMem h (objKey (peerCtx p) o 0)
  let h := dramAccess (peerCtx p) 0 o off (askedBytes p) 3 false none h
  if m.isBad 2 off (askedBytes p) then sendData p 0 stUncorrectable 0 h
  else (List.range ((askedBytes p + 4095) / 4096)).foldl (fun h i =>
    sendData p (min 4096 (askedBytes p - 4096 * i)) stOk (m.readLE (off + 4096 * i) (min 4096 (askedBytes p - 4096 * i))) h) h

/-- The object holds `r.1` after an access of `n` bytes: ACK, or NACK UNCORRECTABLE when a marked word was left (R510). -/
def changeAnswer (n : Nat) (r : ObjMem × Bool) (p : Packet) (o : Obj) (off : Nat) (h : Hw) : Hw :=
  let h := dramAccess (peerCtx p) 0 o off n 3 true none (modMem h (objKey (peerCtx p) o 0) (fun _ => r.1))
  if r.2 then nack p stUncorrectable h else reply p 0x82 stOk 0 h

/-- The bytes of a WRITE's 128 lanes of 4 bits that its mask has, each beside the half that the memory holds. -/
def nibbleBytes (p : Packet) (off : Nat) (m : ObjMem) : List (Nat × Byte) :=
  (List.range 64).filterMap (fun i =>
    let (a, b) := ((laneMask p).testBit (2 * i), (laneMask p).testBit (2 * i + 1))
    let old := (m.read (off + i)).toNat
    let new := p.body / 256 ^ 32 / 256 ^ i % 256
    if a || b then some (off + i, BitVec.ofNat 8 ((if a then new % 16 else old % 16) + 16 * (if b then new / 16 else old / 16))) else none)

/-- The bytes that a WRITE stores at `off` of an object that holds `m`. -/
def writtenBytes (p : Packet) (off : Nat) (m : ObjMem) : List (Nat × Byte) :=
  if askedBytes p = 64 then nibbleBytes p off m else maskedBytes off (askedBytes p) (laneMask p) (p.body / 256 ^ 32)

def writeAnswer (p : Packet) (o : Obj) (off : Nat) (h : Hw) : Hw :=
  let m := objMem h (objKey (peerCtx p) o 0)
  changeAnswer (askedBytes p) (m.store 2 (writtenBytes p off m)) p o off h

/-- The elements that an ADD adds, each at its place in the body. -/
def addedElems (p : Packet) : List (Nat × Word) :=
  ((List.range ((p.len - 32) / 4)).filter (fun j => (laneMask p).testBit j)).map (fun j => (4 * j, BitVec.ofNat 32 (p.body / 256 ^ 32 / 2 ^ (32 * j))))

def addAnswer (p : Packet) (o : Obj) (off : Nat) (h : Hw) : Hw :=
  changeAnswer (p.len - 32) (addElems 2 (p.body / 256 ^ 8 % 256 = 1) off (addedElems p) (objMem h (objKey (peerCtx p) o 0))) p o off h

theorem remoteReadServe_eq (h : Hw) : remoteReadServe h = serveDelivered 0x01 (ownerAnswer .r askedBytes readAnswer) h := rfl
theorem remoteWriteServe_eq (h : Hw) : remoteWriteServe h = serveDelivered 0x02 (ownerAnswer .w askedBytes writeAnswer) h := rfl
theorem remoteAddServe_eq (h : Hw) : remoteAddServe h = serveDelivered 0x10 (ownerAnswer .w (fun p => p.len - 32) addAnswer) h := rfl

/-- Away from lanes of 4 bits, the bytes of the mask's lanes are stored. -/
theorem writeAnswer_of_ne {p : Packet} (wide : askedBytes p ≠ 64) (o : Obj) (off : Nat) (h : Hw) : writeAnswer p o off h =
    changeAnswer (askedBytes p) ((objMem h (objKey (peerCtx p) o 0)).store 2 (maskedBytes off (askedBytes p) (laneMask p) (p.body / 256 ^ 32))) p o off h := by
  simp only [writeAnswer, writtenBytes, if_neg wide]

/-! ## MAIL (R511, R512) -/

def mailOf (p : Packet) : Msg := { len := p.len - 8, data := p.body / 256 ^ 8, remote := true, sg := 0, st := 0, srcModule := p.src }

/-- An earlier mail for the thread is held in its context's store (R512). -/
def mailHeld (h : Hw) (c : Nat) (th : Thr) : Bool := (ctx h c).mailStore.any (fun x => mailThread h c x.1 == some th)

/-- A mail for a thread that takes mail: into its inbox, into the store, or NACK BUSY (R512). -/
def mailPut (p : Packet) (th : Thr) (h : Hw) : Hw :=
  let c := peerCtx p
  if (thread h th).inbox.length < 4 && !mailHeld h c th then reply p 0x82 stOk 0 (deliver th (mailOf p) h)
  else if (ctx h c).mailStore.length < 64 then
    reply p 0x82 stOk 0 (modCtx h c (fun x => { x with mailStore := x.mailStore ++ [(p.body % 256, mailOf p)] }))
  else nack p stBusy h

def mailAnswer (p : Packet) (h : Hw) : Hw :=
  if h.wdn.voteSplit then nack p stUnreachable h
  else if !h.ffu.remoteEn ∨ (ctx h (peerCtx p)).st = .free then nack p stRemoteRefused h
  else if (ctx h (peerCtx p)).st = .resetting then nack p stBusy h
  else match mailThread h (peerCtx p) (p.body % 256) with
    | none => nack p stRemoteRefused h
    | some th => mailPut p th h

theorem mailServe_eq (h : Hw) : mailServe h = serveDelivered 0x03 mailAnswer h := rfl

/-- The inbox has a slot, and no earlier mail for the thread is held: what R512 asks of a mail that is not to wait. -/
theorem mailRoom_iff {h : Hw} {c : Nat} {th : Thr} : ((thread h th).inbox.length < 4 && !mailHeld h c th) = true ↔
    (thread h th).inbox.length < 4 ∧ ∀ x ∈ (ctx h c).mailStore, mailThread h c x.1 ≠ some th := by
  simp [mailHeld]

section
variable {p : Packet} {h : Hw}

theorem mailAnswer_split (split : h.wdn.voteSplit = true) : mailAnswer p h = nack p stUnreachable h := if_pos split

section
variable (whole : h.wdn.voteSplit = false)
include whole

theorem mailAnswer_disabled (off : h.ffu.remoteEn = false ∨ (ctx h (peerCtx p)).st = .free) : mailAnswer p h = nack p stRemoteRefused h := by
  rw [mailAnswer, if_neg (ne_true_of_eq_false whole), if_pos (off.imp_left fun disabled => by simp [disabled])]

variable (enabled : h.ffu.remoteEn = true) (used : (ctx h (peerCtx p)).st ≠ .free)
include enabled used

/-- Past VOTE_SPLIT, REMOTE_EN and a free context, what is left is the reset and the mailbox's thread. -/
theorem mailAnswer_offered : mailAnswer p h = if (ctx h (peerCtx p)).st = .resetting then nack p stBusy h
    else match mailThread h (peerCtx p) (p.body % 256) with
      | none => nack p stRemoteRefused h
      | some th => mailPut p th h := by
  rw [mailAnswer, if_neg (ne_true_of_eq_false whole), if_neg (by simp [enabled, used])]

theorem mailAnswer_resetting (reset : (ctx h (peerCtx p)).st = .resetting) : mailAnswer p h = nack p stBusy h :=
  (mailAnswer_offered whole enabled used).trans (if_pos reset)

theorem mailAnswer_noThread (kept : (ctx h (peerCtx p)).st ≠ .resetting) (noThread : mailThread h (peerCtx p) (p.body % 256) = none) :
    mailAnswer p h = nack p stRemoteRefused h := by
  rw [mailAnswer_offered whole enabled used, if_neg kept, noThread]

theorem mailAnswer_thread {th : Thr} (kept : (ctx h (peerCtx p)).st ≠ .resetting) (takes : mailThread h (peerCtx p) (p.body % 256) = some th) :
    mailAnswer p h = mailPut p th h := by
  rw [mailAnswer_offered whole enabled used, if_neg kept, takes]
end
end

/-! ## The remote mail store (R512) -/

/-- A held message can move: its mailbox's thread has a slot free. -/
def mailFits (h : Hw) (c : Nat) (x : Nat × Msg) : Bool :=
  match mailThread h c x.1 with
  | some th => decide ((thread h th).inbox.length < 4)
  | none => false

theorem mailFits_iff {h : Hw} {c : Nat} {x : Nat × Msg} :
    mailFits h c x = true ↔ ∃ th, mailThread h c x.1 = some th ∧ (thread h th).inbox.length < 4 := by
  unfold mailFits
  cases mailThread h c x.1 <;> simp

/-- A message found in the context's store leaves it for its thread's inbox (R512). -/
def mailMove (c : Nat) (h : Hw) : Option (Nat × Msg) → Hw
  | none => h
  | some x =>
    match mailThread h c x.1 with
    | none => h
    | some th => deliver th x.2 (modCtx h c (fun y => { y with mailStore := y.mailStore.erase x }))

theorem mailStoreMove_eq (c : Nat) (h : Hw) : mailStoreMove c h = mailMove c h ((ctx h c).mailStore.find? (mailFits h c)) := rfl

/-- An update of a context counts by its value at the context alone. -/
theorem modCtx_congr {h : Hw} {c : Nat} {f k : Context → Context} (e : f (ctx h c) = k (ctx h c)) : modCtx h c f = modCtx h c k := by
  unfold ctx at e
  unfold modCtx tmod
  rw [e]

/-- The first held message that fits, before which none fits, moves into its inbox. -/
theorem mailStoreMove_first {h : Hw} {c : Nat} {l1 l2 : List (Nat × Msg)} {x : Nat × Msg} {th : Thr} (held : (ctx h c).mailStore = l1 ++ x :: l2)
    (new : x ∉ l1) (takes : mailThread h c x.1 = some th) (slot : (thread h th).inbox.length < 4)
    (full : ∀ y ∈ l1, ∀ u, mailThread h c y.1 = some u → 4 ≤ (thread h u).inbox.length) :
    mailStoreMove c h = deliver th x.2 (modCtx h c (fun y => { y with mailStore := l1 ++ l2 })) := by
  have noneFits : ∀ y ∈ l1, (!mailFits h c y) = true := fun y hy => by
    rw [Bool.not_eq_true', ← Bool.not_eq_true, mailFits_iff]
    rintro ⟨u, takes, slot⟩
    exact absurd slot (Nat.not_lt.2 (full y hy u takes))
  have first : (ctx h c).mailStore.find? (mailFits h c) = some x :=
    List.find?_eq_some_iff_append.2 ⟨mailFits_iff.2 ⟨th, takes, slot⟩, l1, l2, held, noneFits⟩
  have left : (ctx h c).mailStore.erase x = l1 ++ l2 := by
    rw [held, List.erase_append_right _ new, List.erase_cons_head]
  rw [mailStoreMove_eq, first, mailMove, takes]
  exact congrArg (deliver th x.2) (modCtx_congr (by rw [left]))

/-- Settles O42: READ, WRITE and ADD by the owner's two answers, MAIL by its cases, the store by its first message that fits. -/
theorem remoteService : Obligations.RemoteService := by
  intro s c? arg size mask
  refine ⟨becomes_idle remoteReadServe_eq, becomes_idle remoteWriteServe_eq, becomes_idle remoteAddServe_eq, becomes_idle mailServe_eq,
    fun p h d => ?read, fun p h d => ?write, fun p h d => ?add, fun p h d => ?mail, fun c l1 x l2 th unit held new takes slot full => ?move⟩
  case read =>
    obtain ⟨refused, found⟩ := becomes_ownerAnswer remoteReadServe_eq d
    exact ⟨refused, fun ob off ok => ⟨fun bad => becomes_congr (found ob off ok) (if_pos bad),
      fun good => becomes_congr (found ob off ok) (if_neg (ne_true_of_eq_false good))⟩⟩
  case write =>
    obtain ⟨refused, found⟩ := becomes_ownerAnswer remoteWriteServe_eq d
    exact ⟨refused, fun ob off wide ok => becomes_congr (found ob off ok) (writeAnswer_of_ne wide ob off h)⟩
  case add => exact becomes_ownerAnswer remoteAddServe_eq d
  case mail =>
    have answers {k : Hw} (e : mailAnswer p h = k) : Becomes (exec .mailServe s) s k := becomes_served mailServe_eq d e
    refine ⟨fun split => answers (mailAnswer_split split), fun whole off => answers (mailAnswer_disabled whole off), fun whole enabled used =>
      ⟨fun reset => answers (mailAnswer_resetting whole enabled used reset),
        fun kept noThread => answers (mailAnswer_noThread whole enabled used kept noThread), fun th kept takes => ?_⟩⟩
    have put := mailAnswer_thread whole enabled used kept takes
    refine ⟨fun room => answers (put.trans (if_pos (mailRoom_iff.2 room))), fun wait space => ?_, fun wait filled => ?_⟩
    all_goals have waits := put.trans (if_neg (mt mailRoom_iff.1 wait))
    · exact answers (waits.trans (if_pos space))
    · exact answers (waits.trans (if_neg (Nat.not_lt.2 filled)))
  case move => exact becomes_of (decide_eq_true unit) (mailStoreMove_first held new takes slot full)

end Sys2Proof.Machine
end

section
/-!
One step of the module (95): the command at the front of the queue is the one carried out.
-/
namespace Sys2Proof.Machine

/-- Settles O1: `step` runs what stands in front on the rest of the queue. -/
theorem stepRunsFront : Obligations.StepRunsFront := fun _ _ _ => rfl

end Sys2Proof.Machine
end

section
/-!
Traffic of a flight (19 R497 to R506): a flit received, the packet that the router forwards, and the link-state messages.
-/
namespace Sys2Proof.Machine

/-! ## A flit received (R498, R499) -/

/-- The flight drops what comes until the flit that it waits for (R498). -/
def startDropping (f : Nat) (h : Hw) : Hw := modFlight f (fun y => { y with dropping := true }) h

/-- A good flit's acknowledgement frees the replay buffer, and its credits come back (R498, R499). -/
def flitAccounted (f : Nat) (x : FlightFlit) (h : Hw) : Hw :=
  modFlight f (fun y => { y with used := tmod y.used x.crSel 0 (· - x.crCount) }) (match x.ack with
    | none => h
    | some a => modFlight f (fun y =>
        let left := y.replay.filter (fun r => !seqLe r.1 a)
        { y with replay := left, replayRun := if left.length = y.replay.length then y.replayRun else 0 }) h)

/-- A flit in sequence has come: it ends dropping, and the next is awaited. -/
def flitInTurn (f : Nat) (h : Hw) : Hw := modFlight f (fun y => { y with rxNext := (y.rxNext + 1) % 4096, dropping := false }) h

/-- Whether a message of this flight enters the router (R495, R518). -/
def takesTraffic (h : Hw) (f : Nat) : Prop := assigned h = true ∧ (flight h f).mute = false ∧ (flight h f).loop = 0

section
variable {f : Nat} {x : FlightFlit} {h : Hw}

theorem assigned_flitInTurn : assigned (flitInTurn f (flitAccounted f x h)) = assigned h := by
  unfold flitAccounted
  cases x.ack <;> rfl

theorem flightFlit_down (down : (flight h f).state ≠ 2) : flightFlit f x h = h := if_pos down

section
variable (up : (flight h f).state = 2)
include up

theorem flightFlit_uncorrectable (bad : x.fecBad = true) : flightFlit f x h =
    saturated 8 (0x20008 + f * 0x400) (flight h f).fec (satAdd 8 (flight h f).fec 1)
      (modFlight f (fun y => { y with fec := satAdd 8 (flight h f).fec 1, dropping := true }) h) :=
  (if_neg (not_not_intro up)).trans (if_pos bad)

variable (whole : x.fecBad = false)
include whole

theorem flightFlit_badCheck (bad : x.good = false) : flightFlit f x h = startDropping f h := by
  simp only [flightFlit, up, whole, bad, ne_eq, not_true_eq_false, if_false, Bool.false_eq_true, Bool.not_false, if_true, startDropping]

variable (good : x.good = true)
include good

/-- A good flit: one out of sequence, an idle one, one in sequence. -/
theorem flightFlit_good : flightFlit f x h =
    if !x.idle && x.seq != (flight h f).rxNext then if seqLe (x.seq + 1) (flight h f).rxNext then h else startDropping f h
    else if x.idle && (flight h f).dropping then h
    else if x.idle then flitAccounted f x h
    else match x.msg with
      | none => flitInTurn f (flitAccounted f x h)
      | some p => if !assigned (flitInTurn f (flitAccounted f x h)) then flitInTurn f (flitAccounted f x h)
        else if (flight h f).mute = true ∨ (flight h f).loop ≠ 0 then flitInTurn f (flitAccounted f x h)
        else enqueuePkt { p with inFlight := f } (flitInTurn f (flitAccounted f x h)) := by
  unfold flightFlit
  rw [if_neg (not_not_intro up), if_neg (ne_true_of_eq_false whole), if_neg (by simp [good])]
  rfl

theorem flightFlit_idle (idle : x.idle = true) : flightFlit f x h = if (flight h f).dropping = true then h else flitAccounted f x h := by
  rw [flightFlit_good up whole good]
  simp [idle]

variable (busy : x.idle = false)
include busy

theorem flightFlit_outOfTurn (out : x.seq ≠ (flight h f).rxNext) : flightFlit f x h =
    if seqLe (x.seq + 1) (flight h f).rxNext then h else startDropping f h := by
  rw [flightFlit_good up whole good, if_pos (by simp [busy, out])]

variable (turn : x.seq = (flight h f).rxNext)
include turn

theorem flightFlit_noMessage (n : x.msg = none ∨ ¬takesTraffic h f) : flightFlit f x h = flitInTurn f (flitAccounted f x h) := by
  rw [flightFlit_good up whole good, if_neg (by simp [turn]), if_neg (by simp [busy]), if_neg (by simp [busy]), assigned_flitInTurn]
  cases message : x.msg with
  | none => rfl
  | some p =>
    have closed : ¬takesTraffic h f := n.resolve_left (by simp [message])
    dsimp only
    split
    · rfl
    · next named =>
      refine if_pos (Classical.byContradiction fun heard => closed ⟨by simpa using named, ?_⟩)
      simpa [not_or] using heard

theorem flightFlit_message {p : Packet} (message : x.msg = some p) (takes : takesTraffic h f) :
    flightFlit f x h = enqueuePkt { p with inFlight := f } (flitInTurn f (flitAccounted f x h)) := by
  obtain ⟨named, heard, through⟩ := takes
  rw [flightFlit_good up whole good, if_neg (by simp [turn]), if_neg (by simp [busy]), if_neg (by simp [busy]), assigned_flitInTurn]
  simp [message, named, heard, through]
end
end

/-! ## The packet that is forwarded (R505) -/

/-- The packet may be served: it waits for the router, and it can leave or has no way (R499, R505). -/
def forwardable (h : Hw) (p : Packet) : Bool :=
  p.inFlight ≠ 65 && (match hopOf h p with
    | some (f, q) => f = 64 || canSend (flight h f) q
    | none => true)

/-- The packet of higher rank, the earlier one on equal rank. -/
def pickHigher (h : Hw) (b : Option Packet) (p : Packet) : Option Packet :=
  match b with
  | none => some p
  | some x => if pktRank h x < pktRank h p then some p else b

/-- The router with these packets waiting: no route depends on them. -/
def takeOut (l : List Packet) (h : Hw) : Hw := { h with ffu := { h.ffu with wait := l } }

/-- What forwarding makes of packet `p` (R501 to R506). -/
def forwardPkt (p : Packet) (h : Hw) : Hw :=
  let k := modFfu (fun u => { u with wait := u.wait.erase p }) h
  if !knownType p.ty then setFfuEvt 5 0 k
  else match hopOf k p with
    | none => dropPkt p (p.exit.isNone && decide (hallOf p.dest ≠ hallOf k.ffu.id)) k
    | some (f, q) =>
      if f = 64 then modFfu (fun u => { u with wait := u.wait ++ [{ q with inFlight := 65 }] }) k
      else transmit f (pktAged { q with inFlight := 64 } (now h)) (modFfu (fun u => { u with turns := tput u.turns (outKey f q) p.inFlight }) k)

theorem packetForward_eq (h : Hw) : packetForward h = match (h.ffu.wait.filter (forwardable h)).foldl (pickHigher h) none with
    | none => h
    | some p => forwardPkt p h := rfl

section
variable {h : Hw} {p : Packet} {l l1 l2 : List Packet}

theorem forwardable_iff : forwardable h p = true ↔
    p.inFlight ≠ 65 ∧ ∀ f q, hopOf h p = some (f, q) → f = 64 ∨ canSend (flight h f) q = true := by
  unfold forwardable
  cases hopOf h p with
  | none => simp
  | some r => obtain ⟨f, q⟩ := r; simp

theorem pickHigher_lower {x : Packet} (lower : pktRank h x ≤ pktRank h p) : pickHigher h (some p) x = some p := if_neg (Nat.not_lt.2 lower)

theorem foldl_pickHigher_lower (lower : ∀ x ∈ l, pktRank h x ≤ pktRank h p) : l.foldl (pickHigher h) (some p) = some p := by
  induction l with
  | nil => rfl
  | cons x l ih =>
    rw [List.foldl_cons, pickHigher_lower (lower x List.mem_cons_self)]
    exact ih fun y m => lower y (List.mem_cons_of_mem x m)

theorem pickHigher_mem {b : Option Packet} {x y : Packet} (m : y ∈ pickHigher h b x) : y = x ∨ y ∈ b := by
  unfold pickHigher at m
  cases b with
  | none => exact .inl (by simpa [eq_comm] using m)
  | some z =>
    dsimp only at m
    split at m
    · exact .inl (by simpa [eq_comm] using m)
    · exact .inr m

theorem pickHigher_foldl (b : Option Packet) (below : ∀ x ∈ b, pktRank h x < pktRank h p) (lower : ∀ x ∈ l, pktRank h x < pktRank h p) :
    pickHigher h (l.foldl (pickHigher h) b) p = some p := by
  induction l generalizing b with
  | nil =>
    cases b with
    | none => rfl
    | some x => exact if_pos (below x rfl)
  | cons x l ih =>
    refine ih _ (fun y m => ?_) fun y m => lower y (List.mem_cons_of_mem x m)
    obtain rfl | m := pickHigher_mem m
    · exact lower y List.mem_cons_self
    · exact below y m

/-- Of the packets that may be served, the first of the highest rank is forwarded. -/
theorem packetForward_first (waits : h.ffu.wait = l1 ++ p :: l2) (can : forwardable h p = true)
    (before : ∀ x ∈ l1, forwardable h x = true → pktRank h x < pktRank h p) (after : ∀ x ∈ l2, forwardable h x = true → pktRank h x ≤ pktRank h p) :
    packetForward h = forwardPkt p h := by
  have chosen : (h.ffu.wait.filter (forwardable h)).foldl (pickHigher h) none = some p := by
    rw [waits, List.filter_append, List.filter_cons_of_pos can, List.foldl_append, List.foldl_cons,
      pickHigher_foldl none (by simp) fun x m => before x (List.mem_of_mem_filter m) (List.of_mem_filter m)]
    exact foldl_pickHigher_lower fun x m => after x (List.mem_of_mem_filter m) (List.of_mem_filter m)
  rw [packetForward_eq, chosen]

theorem packetForward_idle (none : ∀ x ∈ h.ffu.wait, ¬forwardable h x = true) : packetForward h = h := by
  rw [packetForward_eq, List.filter_eq_nil_iff.2 none]
  rfl

theorem upExits_takeOut (l : List Packet) (h : Hw) : upExits (takeOut l h) = upExits h := rfl
theorem exitLoad_takeOut (l : List Packet) (h : Hw) : exitLoad (takeOut l h) = exitLoad h := rfl
theorem nextHop_takeOut (l : List Packet) (h : Hw) : nextHop (takeOut l h) = nextHop h := rfl
theorem misrouteExit_takeOut (l : List Packet) (h : Hw) : misrouteExit (takeOut l h) = misrouteExit h := by
  unfold misrouteExit
  rw [upExits_takeOut, exitLoad_takeOut]
  rfl
theorem routes_takeOut (l : List Packet) (h : Hw) : routes (takeOut l h) = routes h := by
  unfold routes
  rw [upExits_takeOut, exitLoad_takeOut, nextHop_takeOut, misrouteExit_takeOut]
  rfl
theorem hopOf_takeOut (l : List Packet) (h : Hw) : hopOf (takeOut l h) = hopOf h := by
  unfold hopOf
  rw [nextHop_takeOut, routes_takeOut]
  rfl

theorem forwardPkt_eq (left : h.ffu.wait.erase p = l) : forwardPkt p h =
    if !knownType p.ty then setFfuEvt 5 0 (takeOut l h)
    else match hopOf h p with
    | none => dropPkt p (p.exit.isNone && decide (hallOf p.dest ≠ hallOf h.ffu.id)) (takeOut l h)
    | some (f, q) =>
      if f = 64 then takeOut (l ++ [{ q with inFlight := 65 }]) h
      else transmit f (pktAged { q with inFlight := 64 } (now h)) (modFfu (fun u => { u with turns := tput u.turns (outKey f q) p.inFlight }) (takeOut l h)) := by
  subst left
  rw [← hopOf_takeOut (h.ffu.wait.erase p) h]
  rfl
end

/-! ## Link-state messages (R504) -/

/-- A hall peer's flights that are up, each with its load. -/
theorem linkState_eq (seat : Nat) (st : List Nat) (h : Hw) : linkState seat st h = modFfu (fun u => { u with
    hall := tput u.hall seat ((List.range 32).filterMap (fun i => if (st[i]?).getD 0 = 0 then none else some (i, (st[i]?).getD 0))) }) h := by
  have entry : (fun (i : Nat) => match (st[i]?).getD 0 with
      | 0 => none
      | v => some (i, v)) = fun i => if (st[i]?).getD 0 = 0 then none else some (i, (st[i]?).getD 0) := by
    funext i
    cases (st[i]?).getD 0 <;> rfl
  rw [← entry]
  rfl

theorem linkPeriodic_not {loads : List Nat} {h : Hw} (n : assigned h = false ∨ h.ffu.linkDue = false ∧ now h - h.ffu.linkSent < 10000) :
    linkPeriodic loads h = h := if_pos (n.imp (by simp [·]) fun ⟨told, young⟩ => by simp [told, young])

/-- Settles O41: a flit by the cases of R498, the forwarded packet by `packetForward_first`, the link states by their own equations. -/
theorem trafficOfAFlight : Obligations.TrafficOfAFlight := by
  intro s
  refine ⟨fun f x unit => ?flit, ?forward, fun seat st unit => becomes_of (decide_eq_true unit) (linkState_eq seat st s.hw), fun loads => ?periodic⟩
  case flit =>
    have flit {k : Hw} (e : flightFlit f x s.hw = k) : Becomes (exec (.flightFlitReceive f x) s) s k := becomes_of (decide_eq_true unit) e
    refine ⟨fun down => flit (flightFlit_down down), fun up bad => flit (flightFlit_uncorrectable up bad),
      fun up whole bad => flit (flightFlit_badCheck up whole bad), fun up whole good => ⟨fun idle drops => ?_, fun idle hears => ?_,
      fun busy out => flit (flightFlit_outOfTurn up whole good busy out), fun busy turn => ⟨fun n => ?_, fun p message named heard through => ?_⟩⟩⟩
    · exact flit ((flightFlit_idle up whole good idle).trans (if_pos drops))
    · exact flit ((flightFlit_idle up whole good idle).trans (if_neg (ne_true_of_eq_false hears)))
    · refine flit (flightFlit_noMessage up whole good busy turn (n.imp_right fun closed ⟨named, heard, through⟩ => ?_))
      simp [named, heard, through] at closed
    · exact flit (flightFlit_message up whole good busy turn message ⟨named, heard, through⟩)
  case forward =>
    intro o age key turn rank can
    have can_iff (p : Packet) : forwardable s.hw p = true ↔ can p := forwardable_iff
    refine ⟨fun idle => becomes_of rfl (packetForward_idle fun x m => mt (can_iff x).1 (idle x m)),
      fun l1 p l2 waits may before after new => ?_⟩
    have left : s.hw.ffu.wait.erase p = l1 ++ l2 := by rw [waits, List.erase_append_right _ new, List.erase_cons_head]
    have served : Becomes (exec .packetForward s) s (forwardPkt p s.hw) := becomes_of rfl (packetForward_first waits ((can_iff p).2 may)
      (fun x m y => before x m ((can_iff x).1 y)) fun x m y => after x m ((can_iff x).1 y))
    rw [forwardPkt_eq left] at served
    refine ⟨fun unknown => ?_, fun known noWay => ?_, fun f r known way => ⟨fun here => ?_, fun there => ?_⟩⟩
    · exact becomes_congr served (if_pos (by simp [unknown]))
    all_goals rw [if_neg (by simp [known])] at served
    · rwa [noWay] at served
    all_goals rw [way] at served
    · exact becomes_congr served (if_pos here)
    · exact becomes_congr served (if_neg there)
  case periodic =>
    refine ⟨fun n => becomes_of rfl (linkPeriodic_not n), fun named due => becomes_of rfl ?_⟩
    exact if_neg (by rcases due with due | due <;> simp [named, due])

end Sys2Proof.Machine
end

section
/-!
The life of a flight (19 R495 to R500, R515): training, greeting, replay, retraining, waking, loss and its cable.
-/
namespace Sys2Proof.Machine

/-! ## Training (R496, R500) -/

/-- A flight after a training: the sequence starts anew, and HELLO is awaited. -/
def Flight.trained (state width rtt : Nat) (x : Flight) : Flight :=
  { x with state, width, rtt, rxNext := 0, txNext := 0, dropping := false, replay := [], used := [], replayRun := 0, retrainFails := 0, mute := true }

/-- The lanes that a training leaves: all four, a good pair, or none. -/
def goodWidth (lanes : Nat) : Nat := if lanes % 16 = 15 then 4 else if lanes % 4 = 3 ∨ lanes / 4 % 4 = 3 then 2 else 0

section
variable {f lanes rtt : Nat} {h : Hw}

theorem goodWidth_all (all : lanes % 16 = 15) : goodWidth lanes = 4 := if_pos all
theorem goodWidth_pair (n : lanes % 16 ≠ 15) (pair : lanes % 4 = 3 ∨ lanes / 4 % 4 = 3) : goodWidth lanes = 2 := (if_neg n).trans (if_pos pair)
theorem goodWidth_none (low : lanes % 4 ≠ 3) (high : lanes / 4 % 4 ≠ 3) : goodWidth lanes = 0 := by
  unfold goodWidth
  rw [if_neg (by omega), if_neg (by omega)]

theorem flightTraining_eq (cabled : (flight h f).cable = true) (on : (flight h f).disable = false) (down : (flight h f).state ≠ 2)
    (granted : 9 ≤ h.wdn.vserdes.heldBy (.flight f)) (serves : h.boot.stage ≠ 15) : flightTraining f lanes rtt h =
      let k := stateChanged f (modFlight f (Flight.trained (if goodWidth lanes = 0 then 1 else 2) (goodWidth lanes) rtt) h)
      if goodWidth lanes = 2 then setFfuEvt 1 f k else k :=
  if_neg (by simp [cabled, on, down, serves]; omega)
end

/-! ## HELLO (R495) -/

/-- The later of two values listed for a number counts. -/
theorem tput_tput {α : Type} (t : Tbl α) (n : Nat) (v w : α) : tput (tput t n v) n w = tput t n w := by
  induction t with
  | nil => simp [tput]
  | cons e r ih =>
    obtain ⟨k, u⟩ := e
    by_cases below : n < k
    · simp [tput, below]
    · by_cases here : n = k
      · simp [tput, here]
      · simp [tput, below, here, ih]

theorem modFlight_modFlight (f : Nat) (j k : Flight → Flight) (h : Hw) : modFlight f j (modFlight f k h) = modFlight f (fun x => j (k x)) h := by
  simp [modFlight, modFfu, tmod, tput_tput]

section
variable {f peer : Nat} {h : Hw}

/-- The flight with its peer's module ID, muted or open to routed traffic. -/
def greeted (f peer : Nat) (mute : Bool) (h : Hw) : Hw := modFlight f (fun x => { x with peer, mute }) h

theorem assigned_iff : assigned h = true ↔ h.ffu.id ≠ 0x3FFF := by simp [assigned]

theorem hello_eq : hello f peer h =
    if peer = h.ffu.id ∧ assigned h = true then setFfuEvt 3 f (greeted f peer true h)
    else if f < 32 ∧ assigned h = true ∧ peer ≠ hallOf h.ffu.id * 32 + cabledSeat (seatOf h.ffu.id) f then setFfuEvt 2 f (greeted f peer true h)
    else greeted f peer false h := by
  unfold greeted
  rw [← modFlight_modFlight f (fun x => { x with mute := true }) fun x => { x with peer },
    ← modFlight_modFlight f (fun x => { x with mute := false }) fun x => { x with peer }]
  rfl
end

/-! ## Replay, retraining and loss (R498, R515) -/

section
variable {f : Nat} {ok : Bool} {h : Hw}

theorem flightReplay_idle (n : (flight h f).replay = [] ∨ (flight h f).state ≠ 2) : flightReplay f h = h :=
  if_pos (n.imp_left List.isEmpty_iff.2)

theorem flightReplay_again (waits : (flight h f).replay ≠ []) (up : (flight h f).state = 2) : flightReplay f h =
    saturated 16 (0x20008 + f * 0x400) (flight h f).replays (satAdd 16 (flight h f).replays 1) (healthError 9 1
      (modFlight f (fun x => { x with replays := satAdd 16 (flight h f).replays 1, replayRun := x.replayRun + 1 }) h)) :=
  if_neg (by simp [waits, up])

/-- A retrain counted. -/
def retrainCounted (f : Nat) (h : Hw) : Hw :=
  saturated 8 (0x20008 + f * 0x400) (flight h f).retrains (satAdd 8 (flight h f).retrains 1)
    (modFlight f (fun x => { x with retrains := satAdd 8 (flight h f).retrains 1 }) h)

theorem flightRetrain_not (n : (flight h f).state ≠ 2 ∧ (flight h f).state ≠ 1 ∨ (flight h f).replayRun < 8 ∧ (flight h f).retrainFails = 0) :
    flightRetrain f ok h = h := if_pos n

theorem flightRetrain_due (live : (flight h f).state = 2 ∨ (flight h f).state = 1) (due : 8 ≤ (flight h f).replayRun ∨ (flight h f).retrainFails ≠ 0) :
    flightRetrain f ok h =
      if ok = true then modFlight f (fun x => { x with state := 2, replayRun := 0, retrainFails := 0, dropping := false }) (retrainCounted f h)
      else modFlight f (fun x => { x with state := 1, retrainFails := x.retrainFails + 1 }) (retrainCounted f h) :=
  if_neg (by omega)

theorem flightLostEv_not (n : (flight h f).state = 4 ∨ (flight h f).state = 0 ∨ (flight h f).retrainFails < 3 ∧ (flight h f).disable = false) :
    flightLostEv f h = h := by
  refine if_neg fun ⟨live, cabled, due⟩ => ?_
  obtain lost | off | ⟨few, on⟩ := n
  · exact live lost
  · exact cabled off
  · exact due.elim (Nat.not_le.2 few) (ne_true_of_eq_false on)

theorem flightLostEv_lost (live : (flight h f).state ≠ 4) (on : (flight h f).state ≠ 0)
    (due : 3 ≤ (flight h f).retrainFails ∨ (flight h f).disable = true) : flightLostEv f h = flightLost f h := if_pos ⟨live, on, due⟩

/-! ## Waking (R500) -/

theorem flightWake_not (n : (flight h f).state ≠ 3) : flightWake f h = h := if_pos n

theorem flightWake_eq (low : (flight h f).state = 3) : flightWake f h =
    if h.wdn.vserdes.heldBy (.flight f) < 9 then grainRequest (.flight f) 0 h else stateChanged f (modFlight f (fun x => { x with state := 2 }) h) :=
  if_neg (not_not_intro low)
end

/-- Settles O40: each row of the table by its own equations. -/
theorem lifeOfAFlight : Obligations.LifeOfAFlight := by
  intro f s unit
  have acts {g : Hw → Hw} {k : Hw} (e : g s.hw = k) : Becomes (act (decide (f < 64)) g s) s k := becomes_of (decide_eq_true unit) e
  refine ⟨fun lanes rtt cabled on down granted serves => ?training, fun peer => ?hello,
    ⟨fun n => acts (flightReplay_idle n), fun waits up => acts (flightReplay_again waits up)⟩,
    fun ok => ⟨fun n => acts (flightRetrain_not n), fun live due => acts (flightRetrain_due live due)⟩,
    ⟨fun n => acts (flightLostEv_not n), fun live on due => acts (flightLostEv_lost live on due)⟩,
    ⟨fun n => acts (flightWake_not n), fun low few => acts ((flightWake_eq low).trans (if_pos few)),
      fun low enough => acts ((flightWake_eq low).trans (if_neg (Nat.not_lt.2 enough)))⟩,
    acts rfl, acts rfl, acts rfl⟩
  case training =>
    have trained := flightTraining_eq (lanes := lanes) (rtt := rtt) cabled on down granted serves
    refine ⟨fun all => acts ?_, fun n pair => acts ?_, fun low high => acts ?_⟩
    · rw [trained, goodWidth_all all]; rfl
    · rw [trained, goodWidth_pair n pair]; rfl
    · rw [trained, goodWidth_none low high]; rfl
  case hello =>
    refine ⟨fun named own => acts ?_, fun named other hall wrong => acts ?_, fun right => acts ?_⟩
    · exact hello_eq.trans (if_pos ⟨own, assigned_iff.2 named⟩)
    · exact hello_eq.trans ((if_neg fun e => other e.1).trans (if_pos ⟨hall, assigned_iff.2 named, wrong⟩))
    · refine hello_eq.trans ((if_neg fun ⟨own, named⟩ => ?_).trans (if_neg fun ⟨hall, named, wrong⟩ => ?_))
      · exact right.elim (assigned_iff.1 named) fun e => e.1 own
      · exact right.elim (assigned_iff.1 named) fun e => e.2.elim (Nat.not_le.2 hall) wrong

end Sys2Proof.Machine
end

section
/-!
The module's own requests (19 R506 to R508, R512) and fabric barriers (19 R513, R514): how a response, a timer or a barrier's message ends them or
lets them go on.
-/
namespace Sys2Proof.Machine

/-! ## Responses (R506, R507) -/

/-- What a response makes of the state: nothing without its request in the response store, else `body` of the two. -/
def responseTo (body : Packet → Req → Hw → Hw) (p : Packet) (h : Hw) : Hw :=
  match reqOf h p.tag with
  | none => h
  | some r => body p r h

theorem becomes_answered {f : Hw → Hw} {ty : Nat} {body : Packet → Req → Hw → Hw} {s : State} {p : Packet} {h k : Hw} {r : Req}
    (eq : ∀ h, f h = serveDelivered ty (responseTo body) h) (delivered : takeDelivered ty s.hw = some (p, h)) (own : reqOf h p.tag = some r)
    (e : body p r h = k) : Becomes (act true f s) s k :=
  becomes_served eq delivered (by rw [responseTo, own]; exact e)

/-- The entry of the response store with this tag becomes `q`. -/
def putReq (q : Req) (h : Hw) : Hw := modFfu (fun u => { u with reqs := u.reqs.map (fun x => if x.tag = q.tag then q else x) }) h

/-- A request with the bytes of a DATA packet behind those it has. -/
def Req.gathered (r : Req) (p : Packet) : Req := { r with data := r.data + p.body * 256 ^ r.got, got := r.got + p.len }

def dataAnswer (p : Packet) (r : Req) (h : Hw) : Hw :=
  if p.status ≠ stOk ∨ r.pkt.body / 256 ^ 8 % 2 ^ 32 ≤ (r.gathered p).got then endReq (r.gathered p) p.status h else putReq (r.gathered p) h

/-- A request that was dropped, to be sent again 5 µs later. -/
def Req.dropSeen (r : Req) (t : Nat) : Req := { r with drops := r.drops + 1, resend := some (t + 500), dropped := true, busy := false }

/-- A request that met BUSY, to be sent again 5 µs later. -/
def Req.busySeen (r : Req) (t : Nat) : Req := { r with resend := some (t + 500), dropped := false, busy := true }

def nackAnswer (p : Packet) (r : Req) (h : Hw) : Hw :=
  if p.body % 256 = 1 then if 4 ≤ r.drops + 1 then endReq r stUnreachable h else putReq (r.dropSeen (now h)) h
  else if p.body % 256 = 2 then endReq r stUnreachable h
  else if p.status = stBusy then putReq (r.busySeen (now h)) h
  else endReq r p.status h

theorem remoteData_eq (h : Hw) : remoteData h = serveDelivered 0x81 (responseTo dataAnswer) h := rfl
theorem remoteAck_eq (h : Hw) : remoteAck h = serveDelivered 0x82 (responseTo fun _ r => endReq r stOk) h := rfl
theorem barrierRelease_eq (h : Hw) : barrierRelease h = serveDelivered 0x84 (responseTo fun _ r => endReq r stOk) h := rfl
theorem nackIn_eq (h : Hw) : nackIn h = serveDelivered 0x83 (responseTo nackAnswer) h := rfl

/-! ## Sending again, and timeouts (R506 to R508) -/

/-- The resends counted after a drop. -/
def resendCounted (r : Req) (h : Hw) : Hw :=
  let n := satAdd 32 h.ffu.resends 1
  if r.dropped = true then saturated 32 0x30810 h.ffu.resends n (modFfu (fun u => { u with resends := n }) h) else h

/-- The request is an ARRIVE, which has no time limit. -/
def ReqKind.isArrive : ReqKind → Bool
  | .arrive _ => true
  | _ => false

theorem isArrive_iff {k : ReqKind} : k.isArrive = true ↔ ∃ n, k = .arrive n := by cases k <;> simp [ReqKind.isArrive]

section
variable {h : Hw} {tag : Nat} {r : Req} (found : reqOf h tag = some r)
include found

theorem resendTimer_eq {t : Nat} (due : r.resend = some t) (late : t ≤ now h) (front : r.queued = false) : resendTimer tag h =
    if !assigned h ∨ (routes h r.pkt).isEmpty then endReq r stUnreachable h
    else match pickRoute (modFfu (fun u => { u with reqs := u.reqs.filter (fun x => x.tag ≠ tag) }) h) r.ctx r.pkt with
      | none => h
      | some (f, q) => enqueuePkt (routed r.pkt q (routeExit (resendCounted r h) r.pkt f)) (modFfu (fun u => { u with
          reqs := u.reqs.map (fun x => if x.tag = tag then { r with flight := some f, resend := none, dropped := false } else x) }) (resendCounted r h)) := by
  have goesOut : ¬(now h < t ∨ r.queued = true) := by simp [front, late]
  unfold resendTimer
  simp only [found, due, if_neg goesOut]
  rfl

theorem requestTimeout_eq : requestTimeout tag h =
    if r.kind.isArrive = true ∨ now h < r.since + 100000 * reqMsOf h ∨ h.ffu.wait.any (fun p => p.inFlight = 65 && p.tag = tag && pktClass p.ty = 1) then h
    else endReq r (if r.busy then stBusy else stUnreachable) (setFfuEvt 6 0 h) := by
  unfold requestTimeout
  simp only [found]
  rfl
end

/-! ## Fabric barriers (R513, R514) -/

/-- The context takes part here as the root, and the packet is from a member (R513). -/
def AtRoot (p : Packet) (h : Hw) : Prop :=
  (ctx h (peerCtx p)).st ≠ .free ∧ rootOf h (peerCtx p) = h.ffu.id ∧ p.src ∈ membersOf h (peerCtx p)

/-- A member that has halted counts as arrived at every barrier from now on. -/
def memberHalted (p : Packet) (h : Hw) : Hw :=
  (List.range 16).foldl (fun h n => tryRelease (peerCtx p) n h) (reply p 0x84 stOk 0
    (modRoot (peerCtx p) 0 (fun r => { r with halted := if p.src ∈ r.halted then r.halted else r.halted ++ [p.src] }) h))

/-- A member's ARRIVE at a context that is not reset: halted, of another epoch, counted (R513). -/
def arriveCounted (p : Packet) (h : Hw) : Hw :=
  let c := peerCtx p
  let n := p.body % 16
  let e := p.body / 65536 % 65536
  if p.body / 256 % 2 = 1 then memberHalted p h
  else if e ≠ epochOf h c n ∧ e ≠ (epochOf h c n + 1) % 65536 then nack p stRemoteRefused h
  else rootArrive c n p.src e (modRoot c n (fun r => { r with tags := tput r.tags p.src p.tag }) h)

def arriveAnswer (p : Packet) (h : Hw) : Hw :=
  if h.wdn.voteSplit then nack p stUnreachable h
  else if (ctx h (peerCtx p)).st = .free ∨ rootOf h (peerCtx p) ≠ h.ffu.id ∨ !(membersOf h (peerCtx p)).contains p.src then nack p stRemoteRefused h
  else if (ctx h (peerCtx p)).st = .resetting then nack p stBusy h
  else arriveCounted p h

theorem arriveServe_eq (h : Hw) : arriveServe h = serveDelivered 0x04 arriveAnswer h := by
  unfold arriveServe arriveAnswer arriveCounted memberHalted
  simp only [List.contains_iff_mem]
  rfl

section
variable {p : Packet} {h : Hw} (whole : h.wdn.voteSplit = false)
include whole

theorem arriveAnswer_refused (n : ¬AtRoot p h) : arriveAnswer p h = nack p stRemoteRefused h := by
  rw [arriveAnswer, if_neg (ne_true_of_eq_false whole), if_pos]
  simp only [AtRoot, not_and_or] at n
  simpa using n

theorem arriveAnswer_atRoot (root : AtRoot p h) : arriveAnswer p h =
    if (ctx h (peerCtx p)).st = .resetting then nack p stBusy h else arriveCounted p h := by
  obtain ⟨used, here, member⟩ := root
  rw [arriveAnswer, if_neg (ne_true_of_eq_false whole), if_neg (by simp [used, here, member])]
end

/-- A CANCEL is of the current epoch of a barrier rooted here (R514). -/
def cancelAnswer (p : Packet) (h : Hw) : Hw :=
  let k := reply p 0x82 stOk 0 h
  if rootOf k (peerCtx p) = k.ffu.id ∧ (membersOf k (peerCtx p)).contains p.src ∧ p.body / 65536 % 65536 = epochOf k (peerCtx p) (p.body % 16) ∧
    (ctx k (peerCtx p)).st ≠ .free then cancelEpoch (peerCtx p) (p.body % 16) k else k

theorem barrierCancel_eq (h : Hw) : barrierCancel h = serveDelivered 0x05 cancelAnswer h := rfl

section
variable {c n t : Nat} {h : Hw}

/-- A member's own BAR ended after BAR_S, its ARRIVE forgotten (R514). -/
def memberEnded (c n : Nat) (h : Hw) : Hw :=
  endFabricBarrier c n (some stUnreachable) (modFfu (fun u => { u with reqs := u.reqs.filter (fun r => !(r.ctx = c && r.kind == .arrive n)) }) h)

theorem barrierTimeout_due (waits : tget (ctx h c).arrived n = some t) (due : t + 100000000 * barSOf h ≤ now h) : barrierTimeout c n h =
    match issueReq c (.cancel n) (rootOf (memberEnded c n h) c) 0x05 8 (n + 65536 * epochOf h c n) (memberEnded c n h) with
    | .sent k _ => k
    | _ => memberEnded c n h := by
  unfold barrierTimeout
  simp only [waits, if_neg (Nat.not_lt.2 due)]
  rfl

theorem rootTimeout_due (waits : (rootRec h c n).curSince = some t) (due : t + 100000000 * barSOf h ≤ now h) (arrived : (rootRec h c n).cur ≠ []) :
    rootTimeout c n h = cancelEpoch c n h := by
  unfold rootTimeout
  simp only [waits]
  exact if_neg (by simp [arrived, due])
end

/-- Settles O43: each response by what its type does to its request, each timer and barrier message by its cases. -/
theorem requestsAndFabricBarriers : Obligations.RequestsAndFabricBarriers := by
  intro s now_ put
  refine ⟨fun p h r d own => becomes_answered remoteData_eq d own rfl, fun p h r d own => becomes_answered remoteAck_eq d own rfl,
    fun p h r d own => becomes_answered barrierRelease_eq d own rfl, fun p h r d own => ?nack, fun tag r t found due late front => ?resend,
    fun tag r found => ?timeout, fun p h d whole => ?arrive, fun p h d => ?cancel,
    fun c n context barrier => ⟨fun t waits due => ?member, fun t waits due arrived => ?root⟩⟩
  case nack =>
    have nacked {k : Hw} (e : nackAnswer p r h = k) : Becomes (exec .nack s) s k := becomes_answered nackIn_eq d own e
    refine ⟨fun drop last => nacked ?_, fun drop more => nacked ?_, fun lost => nacked ?_, fun whole kept busy => nacked ?_,
      fun whole kept other => nacked ?_⟩
    · exact (if_pos drop).trans (if_pos (Nat.succ_le_succ last))
    · exact (if_pos drop).trans (if_neg (by omega))
    · exact (if_neg (by omega)).trans (if_pos lost)
    · exact (if_neg whole).trans ((if_neg kept).trans (if_pos busy))
    · exact (if_neg whole).trans ((if_neg kept).trans (if_neg other))
  case resend =>
    have timer := resendTimer_eq found due late front
    refine ⟨fun cut => becomes_of rfl (timer.trans (if_pos ?_)), fun named way full => becomes_of rfl ?_, fun f q named way route => becomes_of rfl ?_⟩
    · simpa using cut
    all_goals rw [if_neg (by simp [named, way])] at timer
    · rw [full] at timer; exact timer
    · rw [route] at timer; exact timer
  case timeout =>
    refine ⟨fun due timed absent => ?_, fun waits => ?_⟩
    · refine becomes_of rfl ((requestTimeout_eq found).trans (if_neg ?_))
      rintro (arrive | early | here)
      · exact (isArrive_iff.1 arrive).elim timed
      · exact Nat.not_lt.2 due early
      · obtain ⟨p, m, response⟩ := List.any_eq_true.1 here
        exact absent p m (by simpa [and_assoc] using response)
    · refine becomes_of rfl ((requestTimeout_eq found).trans (if_pos ?_))
      exact waits.elim (fun early => .inr (.inl early)) fun arrive => .inl (isArrive_iff.2 arrive)
  case arrive =>
    have answers {k : Hw} (e : arriveAnswer p h = k) : Becomes (exec .arrive s) s k := becomes_served arriveServe_eq d e
    refine ⟨fun n => answers (arriveAnswer_refused whole n), fun root reset => ?_, fun root kept halted => ?_,
      fun root kept goesOn => ⟨fun past future => ?_, fun fits => ?_⟩⟩
    all_goals have counted := arriveAnswer_atRoot whole root
    · exact answers (counted.trans (if_pos reset))
    all_goals rw [if_neg kept] at counted
    · exact answers (counted.trans (if_pos halted))
    · exact answers (counted.trans ((if_neg (by omega)).trans (if_pos ⟨past, future⟩)))
    · exact answers (counted.trans ((if_neg (by omega)).trans (if_neg fun e => fits.elim e.1 e.2)))
  case cancel =>
    exact ⟨fun ⟨here, member, epoch, used⟩ => becomes_served barrierCancel_eq d (if_pos ⟨here, List.contains_iff_mem.2 member, epoch, used⟩),
      fun miss => becomes_served barrierCancel_eq d (if_neg fun ⟨here, member, epoch, used⟩ => miss ⟨here, List.contains_iff_mem.1 member, epoch, used⟩)⟩
  case member => exact becomes_of (by simp [context, barrier]) (barrierTimeout_due waits due)
  case root => exact becomes_of (by simp [context, barrier]) (rootTimeout_due waits due arrived)

end Sys2Proof.Machine
end

section
/-!
The test access port (22 R559 to R561): its instructions, the unlock and the debug accesses.
-/
namespace Sys2Proof.Machine

/-! ## The port's instructions (R559) -/

/-- The port is out of reset, and the module has power. -/
def PortOn (h : Hw) : Prop := h.wdn.power = true ∧ h.dbg.trst = false

section
variable {h : Hw}

theorem tapOn_iff : tapOn h = true ↔ PortOn h := by simp [tapOn, PortOn]

theorem tapOn_not (off : ¬PortOn h) : (!tapOn h) = true := by simpa [← tapOn_iff] using off
theorem tapOn_of (on : PortOn h) : ¬(!tapOn h) = true := by simp [tapOn_iff.2 on]

/-! ## The unlock (R560) -/

theorem dbgUnlock_deaf {v : BitVec 128} (n : ¬PortOn h ∨ h.dbg.gate = true ∨ now h < h.dbg.lockUntil) : dbgUnlock v h = h :=
  if_pos (by simpa [← tapOn_iff, or_assoc] using n)

theorem dbgUnlock_hears {v : BitVec 128} (on : PortOn h) (shut : h.dbg.gate = false) (open_ : h.dbg.lockUntil ≤ now h) : dbgUnlock v h =
    let k := tapIr 0 0x20 h
    if v.toNat = serialNo h then raiseEvent 0 0x40 2 0 0 { k with dbg := { k.dbg with gate := true, opened := true } }
    else { k with dbg := { k.dbg with lockUntil := now h + 100000000 } } :=
  if_neg (by simp [tapOn_iff.2 on, shut, open_])

/-! ## Debug accesses (R561) -/

theorem dbgAccess_closed {f : Hw → Hw} (closed : ¬(PortOn h ∧ h.dbg.gate = true)) : dbgAccess f h = h := by
  refine if_pos ?_
  simpa [← tapOn_iff, ← not_and_or, imp_iff_not_or] using closed

theorem dbgCsr_closed {a : Nat} {f : Hw → Hw} (closed : ¬(PortOn h ∧ h.dbg.gate = true)) : dbgCsr a f h = h := dbgAccess_closed closed

section
variable {a : Nat} {f : Hw → Hw} (on : PortOn h) (gate : h.dbg.gate = true)
include on gate

theorem dbgAccess_open : dbgAccess f h = f (tapIr 0 0x21 h) := if_neg (by simp [tapOn_iff.2 on, gate])

theorem dbgCsr_bad (bad : csrOk a = false) : dbgCsr a f h = dbgEnd 0 true (tapIr 0 0x21 h) :=
  (dbgAccess_open on gate).trans (if_pos (by simp [bad]))

theorem dbgCsr_good (good : csrOk a = true) :
    dbgCsr a f h = csrAccess a f { tapIr 0 0x21 h with dbg := { (tapIr 0 0x21 h).dbg with wake := some a } } :=
  (dbgAccess_open on gate).trans (if_neg (by simp [good]))

/-- The die that an OTP read's ADDRESS names: its channel and target (R561). -/
def otpDie (a : Nat) : Nat := 8 * (a / 2 ^ 10 % 64) + a / 2 ^ 16 % 8

theorem dbgOtp_refused (n : 2 ^ 19 ≤ a ∨ dieDead (tapIr 0 0x21 h) (otpDie a) = true) : dbgOtp a h = dbgEnd 0 true (tapIr 0 0x21 h) :=
  (dbgAccess_open on gate).trans (if_pos n)

theorem dbgOtp_reads (inside : a < 2 ^ 19) (alive : dieDead (tapIr 0 0x21 h) (otpDie a) = false) : dbgOtp a h =
    dbgEnd (fldOf (otpRow (tapIr 0 0x21 h) (otpDie a) true) (4 * (a % 2 ^ 10)) 4) false (tapIr 0 0x21 h) := by
  refine (dbgAccess_open on gate).trans ((if_neg fun n => n.elim (Nat.not_le.2 inside) (ne_true_of_eq_false alive)).trans ?_)
  simp only [bitsOf, otpDie, Nat.pow_zero, Nat.div_one, Nat.reducePow]

theorem dbgAcc_open : dbgAcc a h =
    let g := a / 2 ^ 18 % 128
    let e := accEntry g (a / 2 ^ 7 % 2 ^ 11) (a % 128) (tapIr 0 0x21 h)
    if (decide (96 ≤ g) || decide (2 ^ 25 ≤ a) || !debugOverlay (tapIr 0 0x21 h) g) = true then dbgEnd 0 true (tapIr 0 0x21 h)
    else dbgEnd e.1 false e.2 := by
  refine (dbgAccess_open on gate).trans ?_
  have low : bitsOf a 0 7 = a % 128 := by simp [bitsOf]
  rw [← low]
  rfl

theorem dbgAcc_refused (n : 96 ≤ a / 2 ^ 18 % 128 ∨ 2 ^ 25 ≤ a ∨ debugOverlay (tapIr 0 0x21 h) (a / 2 ^ 18 % 128) = false) :
    dbgAcc a h = dbgEnd 0 true (tapIr 0 0x21 h) :=
  (dbgAcc_open on gate).trans (if_pos (by simpa [or_assoc] using n))

theorem dbgAcc_reads (gallery : a / 2 ^ 18 % 128 < 96) (inside : a < 2 ^ 25)
    (overlay : debugOverlay (tapIr 0 0x21 h) (a / 2 ^ 18 % 128) = true) :
    let e := accEntry (a / 2 ^ 18 % 128) (a / 2 ^ 7 % 2 ^ 11) (a % 128) (tapIr 0 0x21 h)
    dbgAcc a h = dbgEnd e.1 false e.2 :=
  (dbgAcc_open on gate).trans (if_neg (by simp [gallery, inside, overlay, -Nat.reducePow]))
end
end

/-- Settles O60: the port's instructions while it is on, the unlock, and each debug access while the gate is open. -/
theorem testAccessPort : Obligations.TestAccessPort := by
  intro s h D on dbg ir open_ H ends
  refine ⟨rfl, rfl, fun dev pins cells unit => ?instructions, fun v => ?unlock, fun a v bad i m closed => ?closed, fun a v bad opened => ?csr,
    fun a opened => ?otp, fun a opened => ?acc⟩
  case instructions =>
    have acts {g : Hw → Hw} {k : Hw} (e : g s.hw = k) : Becomes (act (decide (dev < 17)) g s) s k := becomes_of (decide_eq_true unit) e
    refine ⟨fun i m off => ?_, fun on => acts (if_neg (tapOn_of on)), fun on free => acts ((if_neg (tapOn_of on)).trans ?_),
      fun on low => acts ((if_neg (tapOn_of on)).trans ?_), fun on => acts (if_neg (tapOn_of on)), fun on => acts (if_neg (tapOn_of on))⟩
    · have off := tapOn_not off
      simp only [List.mem_cons, List.not_mem_nil, or_false] at m
      rcases m with rfl | rfl | rfl | rfl <;> exact acts (if_pos off)
    · exact if_neg (ne_true_of_eq_false free)
    · exact if_pos low
  case unlock =>
    refine ⟨fun n => becomes_of rfl (dbgUnlock_deaf n), fun on shut hears serial => becomes_of rfl ?_, fun on shut hears other => becomes_of rfl ?_⟩
    · exact (dbgUnlock_hears on shut hears).trans (if_pos serial)
    · exact (dbgUnlock_hears on shut hears).trans (if_neg other)
  case closed =>
    simp only [List.mem_cons, List.not_mem_nil, or_false] at m
    rcases m with rfl | rfl | rfl | rfl
    · exact becomes_of rfl (dbgCsr_closed closed)
    · exact becomes_of rfl (dbgCsr_closed closed)
    · exact becomes_of rfl (dbgAccess_closed closed)
    · exact becomes_of rfl (dbgAccess_closed closed)
  case csr =>
    obtain ⟨on, gate⟩ := opened
    exact ⟨fun bad => ⟨becomes_of rfl (dbgCsr_bad on gate bad), becomes_of rfl (dbgCsr_bad on gate bad)⟩,
      fun good asleep => ⟨becomes_of rfl ((dbgCsr_good on gate good).trans (csrAccess_asks asleep)),
        becomes_of rfl ((dbgCsr_good on gate good).trans (csrAccess_asks asleep))⟩,
      fun good granted => ⟨becomes_of rfl ((dbgCsr_good on gate good).trans (csrAccess_acts granted)),
        becomes_of rfl ((dbgCsr_good on gate good).trans (csrAccess_acts granted))⟩⟩
  case otp =>
    obtain ⟨on, gate⟩ := opened
    exact ⟨fun n => becomes_of rfl (dbgOtp_refused on gate n), fun inside alive => becomes_of rfl (dbgOtp_reads on gate inside alive)⟩
  case acc =>
    obtain ⟨on, gate⟩ := opened
    exact ⟨fun n => becomes_of rfl (dbgAcc_refused on gate n),
      fun gallery inside overlay => becomes_of rfl (dbgAcc_reads on gate gallery inside overlay)⟩

end Sys2Proof.Machine
end

section
/-!
Resets and power (20 R525; 21 R543 to R549; 24 R574, R582, R585, R586): what a module reset leaves, which causes make one, the emergency stop, and
what the loss of power leaves.
-/
namespace Sys2Proof.Machine

/-! ## What a module reset leaves (R543, R544) -/

/-- Every unit at its reset state but what is stored or in AON; the cause and whether jobs were lost are kept. -/
def ResetLeft (code : Nat) (losing : Bool) (h : Hw) : Prop :=
  h.wdn.ready = false ∧ h.wdn.voteSplit = false ∧ h.wdn.modState = 0 ∧ h.wdn.cap = none ∧ h.boot.stage = 0 ∧ h.boot.cause = code ∧ h.boot.losing = losing ∧
    h.boot.trial = false ∧ h.boot.newRec = none ∧ h.host.token = none ∧ h.host.expertEver = false ∧ h.probe = {} ∧ h.dbg.gate = false ∧
    h.dbg.opened = false ∧ (losing = true → h.mem = []) ∧ ∀ l, (landing h l).own = 0

/-- A landing restarts at full width unless it is lost. -/
def restartLanding (L : Landing) : Landing := { lost := L.lost, width := if L.lost then 0 else 4 }

theorem own_restartFlash (F : Flash) (l : Nat) : (tgetD (restartFlash F).landings l {}).own = 0 := by
  have mapped : tget (restartFlash F).landings l = (tget F.landings l).map restartLanding := tget_map restartLanding F.landings l
  rw [tgetD, mapped]
  cases tget F.landings l <;> rfl

theorem resetWith_left (code : Nat) (losing : Bool) (h : Hw) : ResetLeft code losing (resetWith code losing h) :=
  ⟨rfl, rfl, rfl, rfl, rfl, rfl, rfl, rfl, rfl, rfl, rfl, rfl, rfl, rfl, fun loses => if_pos loses, own_restartFlash _⟩

/-- A command that makes a module reset. -/
theorem becomes_reset {f : Hw → Hw} {s : State} {code : Nat} {losing : Bool} {k : Hw} (e : f s.hw = resetWith code losing k) :
    Becomes (act true f s) s (resetWith code losing k) ∧ Yields (act true f s) s (ResetLeft code losing) :=
  ⟨becomes_of rfl e, yields_of rfl (e ▸ resetWith_left code losing k)⟩

/-! ## Which causes make one (R543, R551) -/

/-- The last reset's boot did not make the module ready. -/
def secondReset (h : Hw) : Bool := h.boot.again && !h.wdn.ready

section
variable {h : Hw} {cause : Nat}

theorem resetAllowed_iff : resetAllowed h cause = true ↔
    h.wdn.power = true ∧ (cause ∈ [1, 4, 5, 6] ∨ cause ∈ [2, 3] ∧ h.boot.resetDue = some cause) := by
  unfold resetAllowed
  split
  case h_7 n1 n4 n5 n6 n2 n3 => simpa using fun _ => ⟨⟨n1, n4, n5, n6⟩, fun c => (c.elim n2 n3).elim⟩
  all_goals simp

theorem moduleReset_not (n : ¬resetAllowed h cause = true) : moduleReset cause h = h := if_pos (by simpa using n)

theorem moduleReset_allowed (may : resetAllowed h cause = true) : moduleReset cause h =
    resetWith (if secondReset h = true then 7 else cause) (secondReset h || (decide (cause = 2) || decide (cause = 5))) h := by
  rw [← Bool.or_assoc]
  exact if_neg (by simp [may])
end

/-! ## A trial boot that has failed (R525) -/

theorem trialFail_wdn (cause : Nat) (h : Hw) : (trialFail cause h).wdn = h.wdn := by
  unfold trialFail
  rw [raiseEvent_frame]
  rfl

theorem trialFail_again (cause : Nat) (h : Hw) : (trialFail cause h).boot.again = h.boot.again := by
  unfold trialFail
  rw [raiseEvent_frame]
  rfl

/-- A trial boot has run out of time: its slot has failed, and a reset is asked for. -/
def trialLate (h : Hw) : Hw := modBoot (fun b => { b with resetDue := some 3 }) (trialFail 3 h)

theorem secondReset_trialLate (h : Hw) : secondReset (trialLate h) = secondReset h := by
  show ((trialFail 3 h).boot.again && !(trialFail 3 h).wdn.ready) = secondReset h
  rw [trialFail_again, trialFail_wdn]
  rfl

theorem resetAllowed_trialLate {h : Hw} (on : h.wdn.power = true) : resetAllowed (trialLate h) 3 = true := by
  refine resetAllowed_iff.2 ⟨?_, .inr ⟨by simp, rfl⟩⟩
  show (trialFail 3 h).wdn.power = true
  rw [trialFail_wdn, on]

/-- The trial is late: 30 s have passed without ready while no emergency stop held the timer. -/
def TrialLate (t : Nat) (h : Hw) : Prop :=
  h.wdn.power = true ∧ h.boot.trial = true ∧ h.wdn.ready = false ∧ h.boot.stopSince = none ∧ t + 3000000000 ≤ now h

section
variable {h : Hw} {t : Nat} (started : h.boot.trialFrom = some t)
include started

theorem trialTimeout_not (n : ¬TrialLate t h) : trialTimeout h = h := by
  unfold trialTimeout
  simp only [started]
  refine if_pos ?_
  simp only [TrialLate, not_and_or] at n
  simpa [or_assoc, Option.isSome_iff_ne_none] using n

theorem trialTimeout_late (late : TrialLate t h) : trialTimeout h = moduleReset 3 (trialLate h) := by
  obtain ⟨on, trial, boots, runs, old⟩ := late
  unfold trialTimeout
  simp only [started]
  exact if_neg (by simp [on, trial, boots, runs, old])
end

/-! ## The emergency stop (R585, R586) -/

section
variable {f : Warden → Warden} {h : Hw}

theorem stopChange_still (n : (f h.wdn).power = false ∨ emstop h.wdn = emstop (f h.wdn)) : stopChange f h = modWdn f h := by
  unfold stopChange
  dsimp only [modWdn]
  obtain off | same := n
  · rw [off]; rfl
  · rw [← same]
    cases emstop h.wdn <;> simp

theorem stopChange_begins (on : (f h.wdn).power = true) (was : emstop h.wdn = false) (is : emstop (f h.wdn) = true) :
    stopChange f h = stopBegins (modWdn f h) := by
  unfold stopChange
  simp [modWdn, on, was, is]

theorem stopChange_ends {t : Nat} (on : (f h.wdn).power = true) (was : emstop h.wdn = true) (is : emstop (f h.wdn) = false)
    (since : h.boot.stopSince = some t) : stopChange f h =
      modBoot (fun b => { b with stopSince := none, trialFrom := b.trialFrom.map (fun x => x + (now (modWdn f h) - max t x)) }) (modWdn f h) := by
  unfold stopChange
  simp [modWdn, on, was, is, since]
end

/-! ## Power (R574, R575; 21 R549) -/

section
variable {v : Nat} {h : Hw}

theorem powerGood_not (n : h.wdn.power = true ∨ v < 4600) : powerGood v h = h := if_pos (by simpa using n)

theorem powerGood_rises (off : h.wdn.power = false) (enough : 4600 ≤ v) : powerGood v h =
    let k := modWdn (fun w => { w with power := true, aon := 0, inputVoltage := v }) h
    if emstop h.wdn then stopBegins k else k :=
  if_neg (by simp [off, enough])
end

theorem tget_mapKeyed {α : Type} (F : Nat → α → α) (t : Tbl α) (n : Nat) : tget (t.map fun e => (e.1, F e.1 e.2)) n = (tget t n).map (F n) := by
  induction t with
  | nil => rfl
  | cons e r ih =>
    rw [List.map_cons, tget, tget]
    by_cases here : n = e.1
    · simp [here]
    · rw [if_neg here, if_neg here, ih]

/-- A die was owned or in a loop-back: it is listed at a restart, to be rebuilt (15 R421). -/
def dieAway (F : Flash) (d : Nat) : Bool :=
  let L := tgetD F.landings (d / 32) {}
  L.own.getLsbD (d % 32) || L.loopLink != 0

/-- The die listed if it is to be rebuilt. -/
def listDie (F : Flash) (t : Tbl Die) (d : Nat) : Tbl Die := if dieAway F d then tmod t d {} id else t

theorem tgetD_listDie (F : Flash) (t : Tbl Die) (d n : Nat) : tgetD (listDie F t d) n {} = tgetD t n {} := by
  unfold listDie
  split
  · rw [tgetD_tmod]
    split
    · next same => rw [same]; rfl
    · rfl
  · rfl

theorem tgetD_listDies (F : Flash) (l : List Nat) (t : Tbl Die) (n : Nat) : tgetD (l.foldl (listDie F) t) n {} = tgetD t n {} := by
  induction l generalizing t with
  | nil => rfl
  | cons d l ih => rw [List.foldl_cons, ih, tgetD_listDie]

theorem restartFlash_dies (F : Flash) : (restartFlash F).dies =
    ((List.range 512).foldl (listDie F) F.dies).map fun e => (e.1, restartDie (dieAway F e.1) e.2) := by
  unfold restartFlash
  dsimp only
  refine congr (congrArg List.map ?_) (congrFun (congrFun (congrArg List.foldl ?_) _) _)
  · rfl
  · rfl

/-- A die at a restart: as `restartDie` has it, or never listed. -/
theorem die_restartFlash (F : Flash) (d : Nat) : tgetD (restartFlash F).dies d {} = restartDie (dieAway F d) (tgetD F.dies d {}) ∨
    tgetD (restartFlash F).dies d {} = {} ∧ tgetD F.dies d {} = {} := by
  have listed := tgetD_listDies F (List.range 512) F.dies d
  rw [← listed, restartFlash_dies, tgetD, tgetD, tget_mapKeyed (fun d => restartDie (dieAway F d))]
  cases tget ((List.range 512).foldl (listDie F) F.dies) d with
  | none => exact .inr ⟨rfl, rfl⟩
  | some D => exact .inl rfl

theorem stored_restartFlash (F : Flash) (d : Nat) : let D := tgetD (restartFlash F).dies d {}
    D.otp = (tgetD F.dies d {}).otp ∧ D.gap = (tgetD F.dies d {}).gap ∧ D.offset = (tgetD F.dies d {}).offset ∧ D.blks = (tgetD F.dies d {}).blks := by
  obtain e | ⟨e, n⟩ := die_restartFlash F d
  · rw [e]; exact ⟨rfl, rfl, rfl, rfl⟩
  · rw [e, n]; exact ⟨rfl, rfl, rfl, rfl⟩

theorem powerLost_off {v : Nat} {h : Hw} (off : h.wdn.power = false) : powerLost v h = h := if_pos (by simp [off])

/-- What is stored is left, and no more (R549). -/
def PowerLeft (v : Nat) (h k : Hw) : Prop :=
  k.wdn = { inputVoltage := v, emstopPin := h.wdn.emstopPin } ∧ k.mem = [] ∧ k.ctx = [] ∧ k.ev = {} ∧ k.host.cmds = [] ∧ k.host.link = {} ∧
    k.boot.stage = 0 ∧ k.boot.rec0 = h.boot.rec0 ∧ k.boot.overlays = h.boot.overlays ∧ k.boot.slotA.data = h.boot.slotA.data ∧
    k.boot.slotB.data = h.boot.slotB.data ∧ k.mdm.map = h.mdm.map ∧ k.mdm.defects = h.mdm.defects ∧ k.mdm.readOnly = h.mdm.readOnly ∧
    k.mdm.recovering = true ∧ k.jst.root = h.jst.root ∧
    ∀ d, (die k d).otp = (die h d).otp ∧ (die k d).gap = (die h d).gap ∧ (die k d).offset = (die h d).offset ∧ (die k d).blks = (die h d).blks

theorem powerLost_left {v : Nat} {h : Hw} (on : h.wdn.power = true) : PowerLeft v h (powerLost v h) := by
  unfold powerLost
  rw [if_neg (by simp [on])]
  exact ⟨rfl, rfl, rfl, rfl, rfl, rfl, rfl, rfl, rfl, rfl, rfl, rfl, rfl, rfl, rfl, rfl, stored_restartFlash h.flash⟩

/-- Settles O57: which causes make a reset, what it leaves, the stop's three changes, and what the power's loss leaves. -/
theorem resetsAndPower : Obligations.ResetsAndPower := by
  intro s h B second clear reset stop
  refine ⟨fun cause => ⟨fun n => ?keeps, fun may => ?resets⟩, ⟨fun off => ?offWatchdog, fun on => ?watchdog⟩,
    ⟨fun low => becomes_of rfl (if_pos low), fun high off => ?offPin, fun high on => ?pin⟩, rfl, fun t started => ⟨fun n => ?inTime, fun late => ?late⟩,
    ⟨fun off => becomes_of rfl (if_neg (ne_true_of_eq_false off)), fun on => becomes_of rfl (if_pos on)⟩, fun low => ?emstop, fun v => ?power, fun v => ?loss⟩
  case keeps => exact becomes_of rfl (moduleReset_not (mt resetAllowed_iff.1 n))
  case resets => exact becomes_reset (moduleReset_allowed (resetAllowed_iff.2 may))
  case offWatchdog => exact becomes_of rfl (moduleReset_not fun may => ne_true_of_eq_false off (resetAllowed_iff.1 may).1)
  case watchdog => exact becomes_reset (moduleReset_allowed (resetAllowed_iff.2 ⟨on, .inl (by simp)⟩))
  case offPin =>
    exact becomes_of rfl ((if_neg (ne_true_of_eq_false high)).trans
      (moduleReset_not fun may => ne_true_of_eq_false off (resetAllowed_iff.1 may).1))
  case pin =>
    exact becomes_reset ((if_neg (ne_true_of_eq_false high)).trans (moduleReset_allowed (resetAllowed_iff.2 ⟨on, .inl (by simp)⟩)))
  case inTime => exact becomes_of rfl (trialTimeout_not started n)
  case late =>
    have fell := (trialTimeout_late started late).trans (moduleReset_allowed (resetAllowed_trialLate late.1))
    rw [secondReset_trialLate] at fell
    exact becomes_reset fell
  case emstop =>
    exact ⟨fun n => becomes_of rfl (stopChange_still n), fun on was is => becomes_of rfl (stopChange_begins on was is),
      fun t on was is since => becomes_of rfl (stopChange_ends on was is since)⟩
  case power =>
    refine ⟨fun n => becomes_of rfl (powerGood_not n), fun off enough => ⟨fun free => becomes_of rfl ?_, fun stopped => becomes_of rfl ?_⟩⟩
    · exact (powerGood_rises off enough).trans (if_neg (ne_true_of_eq_false free))
    · exact (powerGood_rises off enough).trans (if_pos stopped)
  case loss => exact ⟨fun off => becomes_of rfl (powerLost_off off), fun on => yields_of rfl (powerLost_left on)⟩

end Sys2Proof.Machine
end

section
/-!
Sensors, the coolant and flash temperature checks (24 R588 to R590) and the SMBus management port (24 R583 to R585).
-/
namespace Sys2Proof.Machine

/-! ## Sensors and temperature checks (R588 to R590) -/

/-- Sensor 46 reads above 40 °C. -/
def coolantAbove (ss : Tbl Int) : Bool :=
  match tget ss 46 with
  | some a => decide (16 * 40 < a)
  | none => false

/-- Sensor 47 reads more than 15 K above sensor 46. -/
def coolantApart (ss : Tbl Int) : Bool :=
  match tget ss 46, tget ss 47 with
  | some a, some b => decide (16 * 15 < b - a)
  | _, _ => false

theorem coolantAbove_iff {ss : Tbl Int} : coolantAbove ss = true ↔ ∃ a, tget ss 46 = some a ∧ 16 * 40 < a := by
  unfold coolantAbove
  cases tget ss 46 <;> simp

theorem coolantApart_iff {ss : Tbl Int} : coolantApart ss = true ↔ ∃ a b, tget ss 46 = some a ∧ tget ss 47 = some b ∧ 16 * 15 < b - a := by
  unfold coolantApart
  cases tget ss 46 <;> cases tget ss 47 <;> simp

/-- Since when a condition holds, if it holds now. -/
def sinceOf (holds : Bool) (since : Option Nat) (t : Nat) : Option Nat := if holds then since.or (some t) else none

theorem sinceOf_eq {holds : Bool} {P : Prop} {since out : Option Nat} {t : Nat} (iff : holds = true ↔ P) (yes : P → out = since.or (some t))
    (no : ¬P → out = none) : sinceOf holds since t = out := by
  cases holds with
  | false => exact (no (by simpa using iff)).symm
  | true => exact (yes (iff.1 rfl)).symm

/-- Readings of the flash sensors, 40 to 43. -/
def flashTemps (w : Warden) : List Int := (w.sensors.filter (fun e => decide (40 ≤ e.1) && decide (e.1 ≤ 43))).map (fun e => e.2)

section
variable {h : Hw}

theorem sensorSample_off {k : Nat} {t : BitVec 16} (off : h.wdn.power = false) : sensorSample k t h = h := if_pos (by simp [off])

theorem sensorSample_on {k : Nat} {t : BitVec 16} (on : h.wdn.power = true) : sensorSample k t h =
    modWdn (fun w => { w with sensors := tput w.sensors k t.toInt, hotSince := sinceOf (coolantAbove (tput w.sensors k t.toInt)) w.hotSince (now h)
                              dtSince := sinceOf (coolantApart (tput w.sensors k t.toInt)) w.dtSince (now h) }) h :=
  if_neg (by simp [on])

theorem held10_iff {since : Option Nat} : held10 h since = true ↔ h.wdn.power = true ∧ ∃ t, since = some t ∧ t + 1000000000 ≤ now h := by
  cases since <;> simp [held10]

theorem coolantHotCheck_not (n : ¬held10 h h.wdn.hotSince = true ∨ h.wdn.coolantHot = true) : coolantHotCheck h = h := by
  unfold coolantHotCheck
  split
  · next held => exact if_pos (n.resolve_left (not_not_intro held))
  · rfl

theorem coolantDtCheck_not (n : ¬held10 h h.wdn.dtSince = true ∨ h.wdn.coolantDt = true) : coolantDtCheck h = h := by
  unfold coolantDtCheck
  split
  · next held => exact if_pos (n.resolve_left (not_not_intro held))
  · rfl

theorem coolantHotCheck_sets (held : held10 h h.wdn.hotSince = true) (clear : h.wdn.coolantHot = false) :
    coolantHotCheck h = raiseEvent 0 0x10 1 0 0 (modWdn (fun w => { w with coolantHot := true }) h) :=
  (if_pos held).trans (if_neg (ne_true_of_eq_false clear))

theorem coolantDtCheck_sets (held : held10 h h.wdn.dtSince = true) (clear : h.wdn.coolantDt = false) :
    coolantDtCheck h = raiseEvent 0 0x11 1 0 0 (modWdn (fun w => { w with coolantDt := true }) h) :=
  (if_pos held).trans (if_neg (ne_true_of_eq_false clear))

theorem flashHotCheck_off (off : h.wdn.power = false) : flashHotCheck h = h := if_pos (by simp [off])

theorem flashHotCheck_on (on : h.wdn.power = true) : flashHotCheck h =
    if (flashTemps h.wdn).any (fun t => decide (16 * 85 < t)) then modWdn (fun w => { w with flashHot := true }) h
    else if (flashTemps h.wdn).all (fun t => decide (t < 16 * 80)) then modWdn (fun w => { w with flashHot := false }) h
    else h := by
  rw [flashTemps, List.any_map, List.all_map]
  exact if_neg (by simp [on])

theorem flashHotCheck_hot (on : h.wdn.power = true) (hot : ∃ t, t ∈ flashTemps h.wdn ∧ 16 * 85 < t) :
    flashHotCheck h = modWdn (fun w => { w with flashHot := true }) h :=
  (flashHotCheck_on on).trans (if_pos (by simpa using hot))

theorem flashHotCheck_cool (on : h.wdn.power = true) (cool : ∀ t, t ∈ flashTemps h.wdn → t < 16 * 80) :
    flashHotCheck h = modWdn (fun w => { w with flashHot := false }) h := by
  rw [flashHotCheck_on on, if_neg, if_pos (by simpa using cool)]
  simp only [List.any_eq_true, decide_eq_true_eq, not_exists, not_and]
  intro t m
  have := cool t m
  omega

theorem flashHotCheck_between (on : h.wdn.power = true) (below : ∀ t, t ∈ flashTemps h.wdn → t ≤ 16 * 85)
    (warm : ∃ t, t ∈ flashTemps h.wdn ∧ 16 * 80 ≤ t) : flashHotCheck h = h := by
  rw [flashHotCheck_on on, if_neg (by simpa using below), if_neg (by simpa using warm)]

/-! ## The SMBus port (R583, R584) -/

theorem smbRead_not {a : Nat} {pec : Bool} {data : Hw → Nat} (n : h.wdn.power = false ∨ a ≠ smbAddr) : smbRead a pec data h = h :=
  if_pos (by simpa using n)

theorem smbRead_mine {a : Nat} {pec : Bool} {data : Hw → Nat} (on : h.wdn.power = true) (mine : a = smbAddr) :
    smbRead a pec data h = modWdn (fun w => { w with smbOut := if pec = true then some (data h) else none }) h :=
  if_neg (by simp [on, mine])

/-- A write to this port with a good PEC, while the module has power. -/
def WriteMine (a : Nat) (pec : Bool) (h : Hw) : Prop := h.wdn.power = true ∧ a = smbAddr ∧ pec = true

section
variable {a : Nat} {pec : Bool} {f : Hw → Hw}

theorem smbWrite_not (n : ¬WriteMine a pec h) : smbWrite a pec f h = h := by
  refine if_pos ?_
  simp only [WriteMine, not_and_or] at n
  simpa [or_assoc] using n

theorem smbWrite_mine (mine : WriteMine a pec h) : smbWrite a pec f h = f h := by
  obtain ⟨on, here, good⟩ := mine
  exact if_neg (by simp [on, here, good])
end

theorem mgmtClear_eq (v : Nat) : mgmtClear v h = modWdn (fun w => { w with
    coolantHot := w.coolantHot && !v.testBit 0, coolantDt := w.coolantDt && !v.testBit 1, stopEvt := w.stopEvt && !v.testBit 2 }) h := by
  simp only [mgmtClear, List.foldl_cons, List.foldl_nil]
  cases v.testBit 0 <;> cases v.testBit 1 <;> cases v.testBit 2 <;> simp [modWdn, putMgmt]

/-! ## An emergency stop over the port (R584, R585) -/

/-- The port's source of the stop put to `on`. -/
def putStop (on : Bool) (w : Warden) : Warden := { w with emstopSmb := on }

theorem smbStop_other {v : Nat} (begins : v ≠ 0x5A) (ends : v ≠ 0xA5) : smbStop v h = h := (if_neg begins).trans (if_neg ends)

theorem emstop_putStop_true (w : Warden) : emstop (putStop true w) = true := Bool.or_true _
theorem emstop_putStop_false (w : Warden) : emstop (putStop false w) = w.emstopPin := Bool.or_false _

/-- With no stop the pin's source does not hold, and while it holds there is a stop. -/
theorem emstop_eq_pin {w : Warden} (e : emstop w = false ∨ w.emstopPin = true) : emstop w = w.emstopPin := by
  unfold emstop at e ⊢
  cases pin : w.emstopPin <;> simp_all

/-! ## A reset and the alert response over the port (R583, R584) -/

theorem moduleReset_port (on : h.wdn.power = true) : moduleReset 1 h = resetWith (if secondReset h = true then 7 else 1) (secondReset h) h := by
  have reset := moduleReset_allowed (resetAllowed_iff.2 ⟨on, .inl List.mem_cons_self⟩)
  rwa [show (decide (1 = 2) || decide (1 = 5)) = false from rfl, Bool.or_false] at reset

theorem smbAlert_iff {w : Warden} : smbAlert w = true ↔ w.coolantHot = true ∨ w.coolantDt = true ∨ w.stopEvt = true := by
  simp [smbAlert, mgmtBit, or_assoc]

theorem alerting_iff : (h.wdn.power && smbAlert h.wdn) = true ↔
    h.wdn.power = true ∧ (h.wdn.coolantHot = true ∨ h.wdn.coolantDt = true ∨ h.wdn.stopEvt = true) := by
  rw [Bool.and_eq_true, smbAlert_iff]
end

/-- Settles O58: samples and checks by their cases, and the port's reads and writes while they are its own. -/
theorem sensorsAndManagementPort : Obligations.SensorsAndManagementPort := by
  intro s h W wdn port
  refine ⟨fun k t sensor => ?sample, ⟨fun n => ?notHot, fun held clear => ?hot⟩, ⟨fun n => ?notApart, fun held clear => ?apart⟩, ?flash,
    fun mk v m a pec => ?reads, fun a pec v => ?writes, ?alert⟩
  case sample =>
    refine ⟨fun off => becomes_of (decide_eq_true sensor) (sensorSample_off off), fun since1 since2 on hot cool apart near => ?_⟩
    refine becomes_of (decide_eq_true sensor) ((sensorSample_on on).trans ?_)
    rw [← sinceOf_eq coolantAbove_iff hot cool, ← sinceOf_eq coolantApart_iff apart near]
    rfl
  case notHot => exact becomes_of rfl (coolantHotCheck_not (n.imp_left (mt held10_iff.1)))
  case hot => exact becomes_of rfl (coolantHotCheck_sets (held10_iff.2 held) clear)
  case notApart => exact becomes_of rfl (coolantDtCheck_not (n.imp_left (mt held10_iff.1)))
  case apart => exact becomes_of rfl (coolantDtCheck_sets (held10_iff.2 held) clear)
  case flash =>
    exact ⟨fun off => becomes_of rfl (flashHotCheck_off off), fun on hot => becomes_of rfl (flashHotCheck_hot on hot),
      fun on cool => becomes_of rfl (flashHotCheck_cool on cool), fun on below warm => becomes_of rfl (flashHotCheck_between on below warm)⟩
  case reads =>
    simp only [List.mem_cons, Prod.mk.injEq, List.not_mem_nil, or_false] at m
    rcases m with ⟨rfl, rfl⟩ | ⟨rfl, rfl⟩ | ⟨rfl, rfl⟩ | ⟨rfl, rfl⟩ | ⟨rfl, rfl⟩ | ⟨rfl, rfl⟩ | ⟨rfl, rfl⟩ <;>
      exact ⟨fun n => becomes_of rfl (smbRead_not n), fun on mine => becomes_of rfl (smbRead_mine on mine)⟩
  case writes =>
    refine ⟨fun mk m n => ?_, fun mine => becomes_of rfl (smbWrite_mine mine),
      fun mine => becomes_of rfl ((smbWrite_mine mine).trans (mgmtClear_eq v.toNat)), fun mine => ?_, fun mine => ?_⟩
    · simp only [List.mem_cons, List.not_mem_nil, or_false] at m
      rcases m with rfl | rfl | rfl | rfl <;> exact becomes_of rfl (smbWrite_not n)
    · have stops {k : Hw} (e : smbStop v.toNat s.hw = k) : Becomes (exec (.smbEmstop a pec v) s) s k :=
        becomes_of rfl ((smbWrite_mine mine).trans e)
      have on : W.power = true := mine.1
      refine ⟨fun begins ends => stops (smbStop_other begins ends), fun begins was => ?_, fun begins was => ?_, fun ends still => ?_,
        fun t ends was pin since => ?_⟩
      · rw [begins] at stops
        exact stops (stopChange_still (.inr (was.trans (emstop_putStop_true W).symm)))
      · rw [begins] at stops
        exact stops (stopChange_begins on was (emstop_putStop_true W))
      · rw [ends] at stops
        exact stops (stopChange_still (.inr ((emstop_eq_pin still).trans (emstop_putStop_false W).symm)))
      · rw [ends] at stops
        exact stops (stopChange_ends on was ((emstop_putStop_false W).trans pin) since)
    · refine ⟨fun other => becomes_of rfl ((smbWrite_mine mine).trans (if_neg fun e => other (congrArg BitVec.toNat e))),
        fun code => becomes_of rfl ((smbWrite_mine mine).trans ?_)⟩
      exact (if_pos (BitVec.eq_of_toNat_eq code)).trans (moduleReset_port mine.1)
  case alert => exact ⟨fun n => becomes_of rfl (if_neg (mt alerting_iff.1 n)), fun y => becomes_of rfl (if_pos (alerting_iff.2 y))⟩

end Sys2Proof.Machine
end

section
/-!
Firmware, overlays, attestation and the boot (20 R519 to R536): the steps of each command and of BOOT.
-/
namespace Sys2Proof.Machine

/-- An entry whose rule here checks its fields first: what is shown of the rest of the rule holds when they are in range. -/
theorem checked_then {q slot : Nat} {mine : Cmd → Bool} {body : Cmd → Hw → Hw} {c : Cmd} {s : State} {ok : Bool} {f : Hw → Hw} {P Q : Prop}
    (d : Due s.hw q slot mine c) (e : body c (begun c s.hw) = needFields c ok f (begun c s.hw)) (p : ok = true ↔ P)
    (rest : P → Becomes (act true (carry q slot mine body) s) s (f (begun c s.hw)) → Q) :
    (¬P → Becomes (act true (carry q slot mine body) s) s (endCmd c.id stInvalidField (begun c s.hw))) ∧ (P → Q) :=
  (becomes_checked d e p).imp_right fun y ok => rest ok (y ok)

/-! ## FW_DOWNLOAD (R521) -/

/-- The chunk's pages written and entered into the slot's chunk map. -/
def FwSlot.chunk (off n d : Nat) (S : FwSlot) : FwSlot where
  shipped := false
  data := (List.range (n / 4096)).foldl (fun (t : Tbl Nat) i => tput t (off / 4096 + i) (fldOf d (4096 * i) 4096)) S.data
  map := (List.range (n / 4096)).foldl (fun (m : List Nat) i => if m.contains (off / 4096 + i) then m else m ++ [off / 4096 + i]) S.map

/-- A FW_DOWNLOAD whose fields are in range. -/
def takeChunk (c : Cmd) (h : Hw) : Hw :=
  if h.boot.newRec.isSome then h
  else if committed h (inactive h) then writeRec (withdrawn h) h
  else withData c c.dataLen (fun d h => endCmd c.id stOk (modSlotFw (inactive h) (FwSlot.chunk (c.fld 24 4) c.dataLen d) h)) h

section
variable {c : Cmd} {h : Hw}

theorem fwDownload_eq : fwDownload c h =
    needFields c (c.zeros [(4, 4), (28, 36)] && c.fld 24 4 % 4096 == 0 && c.dataLen % 4096 == 0 && decide (4096 ≤ c.dataLen) &&
      decide (c.dataLen ≤ 1048576) && decide (c.fld 24 4 + c.dataLen ≤ 67108864)) (takeChunk c) h := rfl

theorem withData_ready {n d : Nat} {f : Nat → Hw → Hw} (ready : dataOf c n = some d) : withData c n f h = f d h := by rw [withData, ready]
theorem withData_asks {n : Nat} {f : Nat → Hw → Hw} (awaited : dataOf c n = none) : withData c n f h = askData c n h := by rw [withData, awaited]

theorem takeChunk_waits (writes : h.boot.newRec ≠ none) : takeChunk c h = h := if_pos (Option.isSome_iff_ne_none.2 writes)

section
variable (still : h.boot.newRec = none)
include still

theorem takeChunk_withdraws (pending : committed h (inactive h) = true) : takeChunk c h = writeRec (withdrawn h) h :=
  (if_neg (by simp [still])).trans (if_pos pending)

variable (free : committed h (inactive h) = false)
include free

theorem takeChunk_eq : takeChunk c h =
    withData c c.dataLen (fun d h => endCmd c.id stOk (modSlotFw (inactive h) (FwSlot.chunk (c.fld 24 4) c.dataLen d) h)) h :=
  (if_neg (by simp [still])).trans (if_neg (ne_true_of_eq_false free))
end

/-! ## FW_COMMIT (R528) -/

/-- The slot is the running one. -/
def Runs (k : Nat) (h : Hw) : Prop := k = h.boot.run ∧ h.boot.stage ≠ 15

/-- The boot record that a commit of slot `k` writes. -/
def commitRec (h : Hw) (k : Nat) : BootRec :=
  let r := { (h.boot.rec0.setState k 2) with slot := k, trials := 0 }
  if k = 0 then { r with digA := imageDigest h k } else { r with digB := imageDigest h k }

def clearMap (k : Nat) (h : Hw) : Hw := modSlotFw k (fun S => { S with map := [] }) h

/-- A FW_COMMIT whose fields are in range. -/
def commitSlot (c : Cmd) (h : Hw) : Hw :=
  let k := c.fld 24 1
  if h.boot.newRec.isSome then h
  else if k = h.boot.run ∧ h.boot.stage ≠ 15 then
    (if h.boot.rec0.slot = k ∧ !committed h (1 - k) then endCmd c.id stOk h else setProgress c 1 (writeRec (withdrawn h) h))
  else match commitStatus h k (c.fld 25 1) with
    | some st => endCmd c.id st (clearMap k h)
    | none => clearMap k (setProgress c 1 (writeRec (commitRec h k) h))

theorem fwCommit_first (first : c.progress = 0) : fwCommit c h =
    needFields c (c.zeros [(4, 4), (16, 4), (26, 38)] && decide (c.fld 24 1 < 2) && decide (c.fld 25 1 < 2)) (commitSlot c) h := by
  unfold fwCommit
  rw [if_neg (by omega), if_neg (by omega)]
  rfl

theorem fwCommit_durable (durable : c.progress = 1) : fwCommit c h =
    if h.boot.newRec.isSome then h
    else if c.fld 25 1 = 0 ∨ c.fld 24 1 = h.boot.run ∧ h.boot.stage ≠ 15 then endCmd c.id stOk h
    else setProgress c 2 (modBoot (fun b => { b with commit := some c.id, resetDue := some 2 }) h) := by
  unfold fwCommit
  rw [if_neg (by omega), if_pos durable]

theorem commitSlot_waits (writes : h.boot.newRec ≠ none) : commitSlot c h = h := if_pos (Option.isSome_iff_ne_none.2 writes)

section
variable (still : h.boot.newRec = none)
include still

theorem commitSlot_running (runs : Runs (c.fld 24 1) h) : commitSlot c h =
    if h.boot.rec0.slot = c.fld 24 1 ∧ (!committed h (1 - c.fld 24 1)) = true then endCmd c.id stOk h else setProgress c 1 (writeRec (withdrawn h) h) :=
  (if_neg (by simp [still])).trans (if_pos runs)

variable (other : ¬Runs (c.fld 24 1) h)
include other

theorem commitSlot_refused {st : Nat} (refused : commitStatus h (c.fld 24 1) (c.fld 25 1) = some st) :
    commitSlot c h = endCmd c.id st (clearMap (c.fld 24 1) h) := by
  refine (if_neg (by simp [still])).trans ((if_neg other).trans ?_)
  rw [refused]

theorem commitSlot_writes (boots : commitStatus h (c.fld 24 1) (c.fld 25 1) = none) :
    commitSlot c h = clearMap (c.fld 24 1) (setProgress c 1 (writeRec (commitRec h (c.fld 24 1)) h)) := by
  refine (if_neg (by simp [still])).trans ((if_neg other).trans ?_)
  rw [boots]
end

/-! ## Overlays (R530 to R533) -/

/-- An overlay image that has arrived: its signature, its fields, the slot written (R530, R533). -/
def takeOverlay (c : Cmd) (d : Nat) (h : Hw) : Hw :=
  if !overlaySigned h c.dataLen d then endCmd c.id stFwInvalid h
  else needFields c (overlayOk d) (fun h => let n := 64 + 8 * fldOf d 8 2 + 132
    endCmd c.id stOk (modBoot (fun b => { b with overlays := tput b.overlays (c.fld 33 1) { len := n, data := fldOf d 0 n } }) h)) h

theorem overlayStore_eq : overlayStore c h = needFields c
    (ovFields c && c.fld 32 1 == 0 && decide (c.fld 33 1 < 8) && decide (c.dataLen ≤ 4096)) (withData c c.dataLen (takeOverlay c)) h := rfl

theorem takeOverlay_unsigned {d : Nat} (bad : overlaySigned h c.dataLen d = false) : takeOverlay c d h = endCmd c.id stFwInvalid h :=
  if_pos (by simp [bad])

theorem takeOverlay_signed {d : Nat} (signed : overlaySigned h c.dataLen d = true) : takeOverlay c d h =
    needFields c (overlayOk d) (fun h => let n := 64 + 8 * fldOf d 8 2 + 132
      endCmd c.id stOk (modBoot (fun b => { b with overlays := tput b.overlays (c.fld 33 1) { len := n, data := fldOf d 0 n } }) h)) h :=
  if_neg (by simp [signed])

/-- The overlay slot is named by a partition, by the boot record, or in effect for the module. -/
def overlayNamed (k : Nat) (h : Hw) : Bool :=
  (List.range 8).any (fun p => [(part h p).stored, (part h p).inEff].any (fun d => d.valid && d.overlay == k))
    || h.boot.rec0.ovl == k || h.boot.modOverlay == k

theorem overlayDelete_eq : overlayDelete c h =
    needFields c (ovFields c && c.dataLen == 0 && decide (c.fld 33 1 < 8) && !overlayNamed (c.fld 33 1) h)
      (fun h => endCmd c.id stOk (modBoot (fun b => { b with overlays := tdel b.overlays (c.fld 33 1) }) h)) h := rfl

theorem deleteOk_iff : (ovFields c && c.dataLen == 0 && decide (c.fld 33 1 < 8) && !overlayNamed (c.fld 33 1) h) = true ↔
    ovFields c = true ∧ c.dataLen = 0 ∧ c.fld 33 1 < 8 ∧
      ¬((List.range 8).any (fun p => [(part h p).stored, (part h p).inEff].any (fun d => d.valid && d.overlay == c.fld 33 1)) = true ∨
        h.boot.rec0.ovl = c.fld 33 1 ∨ h.boot.modOverlay = c.fld 33 1) := by
  simp [overlayNamed, and_assoc]

theorem selectOk_iff : (ovFields c && c.dataLen == 0 && (c.fld 33 1 == 0xFF || (tget h.boot.overlays (c.fld 33 1)).isSome)) = true ↔
    ovFields c = true ∧ c.dataLen = 0 ∧ (c.fld 33 1 = 0xFF ∨ (tget h.boot.overlays (c.fld 33 1)).isSome = true) := by
  simp [and_assoc]

theorem overlaySelect_first (still : h.boot.newRec = none) (first : c.progress ≠ 1) : overlaySelect c h =
    needFields c (ovFields c && c.dataLen == 0 && (c.fld 33 1 == 0xFF || (tget h.boot.overlays (c.fld 33 1)).isSome))
      (fun h => setProgress c 1 (writeRec { h.boot.rec0 with ovl := c.fld 33 1 } h)) h :=
  (if_neg (by simp [still])).trans (if_neg first)

/-! ## ATTEST (R536) -/

/-- An ATTEST whose fields are in range, before its buffer is looked at. -/
def attestBody (c : Cmd) (h : Hw) : Hw :=
  let (t, h) := freeVal 128 h
  let token := if c.fld 56 1 = 1 then some t.toNat else none
  let h := if token.isSome then { h with host := { h.host with token } } else h
  let body := reportBody h (c.fld 24 32) token
  writeStruct c 724 (body + 256 ^ 592 * (Config.sign Config.attestKey.toNat (Config.sha512 592 body) h.free % 256 ^ 132)) { h with free := h.free + 1 }

theorem attest_eq : attest c h = needFields c (c.zeros [(4, 4), (57, 7)] && decide (c.fld 56 1 < 2) && decide (724 ≤ c.dataLen)) (attestBody c) h := rfl

/-- The signed report of `h` with a token, or none, at the host's buffer. -/
def signReport (c : Cmd) (token : Option Nat) (h : Hw) : Hw :=
  let body := reportBody h (c.fld 24 32) token
  endCmd c.id stOk (hostWrite c.addr 724 (body + 256 ^ 592 * (Config.sign Config.attestKey.toNat (Config.sha512 592 body) h.free % 256 ^ 132))
    { h with free := h.free + 1 })

theorem attestBody_eq (room : 724 ≤ c.dataLen) : attestBody c h =
    let T := (freeVal 128 h).1.toNat
    let k := (freeVal 128 h).2
    signReport c (if c.fld 56 1 = 1 then some T else none) (if c.fld 56 1 = 1 then { k with host := { k.host with token := some T } } else k) := by
  have fits : ¬c.dataLen < 724 := Nat.not_lt.2 room
  unfold attestBody writeStruct
  by_cases want : c.fld 56 1 = 1
  · simp only [want, fits, if_true, if_false]
    rfl
  · simp only [want, fits, if_false]
    rfl
end

/-! ## BOOT (R523) -/

/-- The boot's step from a stage (R523). -/
def bootAt (stage : Nat) (h : Hw) : Hw :=
  match stage with
  | 0 => modBoot (fun b => { b with stage := 1 }) h
  | 1 => bootOtp h
  | 2 => (match majority (critNow h 0) with
    | none => voteSplit 0 h
    | some _ => modBoot (fun b => { b with stage := 3 }) (critVote 0 [] h))
  | 3 => bootImage 2 h
  | 5 => bootFirmware h
  | 6 => if h.mdm.recovering then h else bootParts h
  | 7 => if h.boot.partDue ≠ [] then h else modBoot (fun b => { b with stage := 8 }) h
  | 8 => bootReady h
  | _ => h

section
variable {h : Hw}

/-- The boot goes no further: no power, the reset pin low, or VOTE_SPLIT. -/
def BootStuck (h : Hw) : Prop := h.wdn.power = false ∨ h.boot.pinLow = true ∨ h.wdn.voteSplit = true

theorem bootStep_stuck (stuck : BootStuck h) : bootStep h = h := if_pos (by simpa [BootStuck, or_assoc] using stuck)

theorem bootStep_on (on : ¬BootStuck h) : bootStep h = bootAt h.boot.stage h := if_neg (by simpa [BootStuck, or_assoc] using on)

/-- What BOOT waits for has not happened, or there is no step left. -/
def BootRests (h : Hw) : Prop :=
  BootStuck h ∨ h.boot.stage = 15 ∨ h.boot.stage = 9 ∨ h.boot.stage = 6 ∧ h.mdm.recovering = true ∨ h.boot.stage = 7 ∧ h.boot.partDue ≠ []

theorem bootStep_rests (rests : BootRests h) : bootStep h = h := by
  by_cases stuck : BootStuck h
  · exact bootStep_stuck stuck
  rw [bootStep_on stuck]
  obtain service | ready | ⟨step7, recovering⟩ | ⟨step8, due⟩ := rests.resolve_left stuck
  · rw [service]; rfl
  · rw [ready]; rfl
  · rw [step7]; exact if_pos recovering
  · rw [step8]; exact if_pos due

theorem bootRun_rests (rests : BootRests h) : bootRun h = h := List.foldl_fixed' (fun _ => bootStep_rests rests) _

/-- A trial that came to ready has succeeded (R525, R526). -/
def trialPassed (h : Hw) : Hw :=
  if h.boot.trial then
    let k := h.boot.run
    let h := setRec (fun r => { r with stA := if k = 0 then 1 else r.stA, stB := if k = 1 then 1 else r.stB, trials := 0 }) h
    modBoot (fun b => { b with trial := false, trialFrom := none, fallback := false, antiTarget := max b.antiTarget (secVersion h k) }) h
  else h

/-- The FW_COMMIT that asked for the reset completes (R528). -/
def commitAnswered (h : Hw) : Hw :=
  match h.boot.commit with
  | some cmd => endCmd cmd (if h.boot.fallback then stFwInvalid else stOk) h
  | none => h

theorem bootReady_eq : bootReady h = modWdn (fun w => { w with ready := true })
    (modBoot (fun b => { b with stage := 9, told := [], again := false, commit := none })
      (commitAnswered (trialPassed (h.boot.told.foldl (fun h c => raiseEvent 0 (0x20 + c) 2 0 0 h) h)))) := rfl

theorem trialPassed_trial : (trialPassed h).boot.trial = false := by
  unfold trialPassed
  split
  · rfl
  · next none => exact Bool.eq_false_iff.2 none

theorem commitAnswered_boot : (commitAnswered h).boot = h.boot := by
  unfold commitAnswered
  split <;> rfl

theorem bootReady_ready : (bootReady h).wdn.ready = true := rfl
theorem bootReady_stage : (bootReady h).boot.stage = 9 := rfl
theorem bootReady_trial : (bootReady h).boot.trial = false := by
  rw [bootReady_eq]
  exact (congrArg Boot.trial commitAnswered_boot).trans trialPassed_trial

theorem bootRun_ready (on : ¬BootStuck h) (last : h.boot.stage = 8) : bootRun h = bootReady h := by
  have step : bootStep h = bootReady h := (bootStep_on on).trans (by rw [last]; rfl)
  rw [bootRun, List.range_succ_eq_map, List.foldl_cons, step]
  exact List.foldl_fixed' (fun _ => bootStep_rests (.inr (.inr (.inl bootReady_stage)))) _
end

/-- Settles O54: each command by its field check and then its cases; BOOT by its last step and the stages where it rests. -/
theorem firmwareOverlaysAndBoot : Obligations.FirmwareOverlaysAndBoot := by
  intro q slot c s H B set
  refine ⟨fun d => ?download, fun d => ⟨fun durable => ?durable, fun first => ?first⟩, fun d => ?store, fun d => ?delete, fun d => ?select,
    fun d => ?attest, rfl, fun rests => ?rests, fun on last => ?ready⟩
  case download =>
    refine checked_then d fwDownload_eq (by simp [and_assoc]) fun _ taken => ⟨fun writes => becomes_congr taken (takeChunk_waits writes),
      fun still pending => becomes_congr taken (takeChunk_withdraws still pending), fun still free awaited => ?_, fun data still free ready => ?_⟩
    · exact becomes_congr taken ((takeChunk_eq still free).trans (withData_asks awaited))
    · exact becomes_congr taken ((takeChunk_eq still free).trans (withData_ready ready))
  case durable =>
    have eq := fwCommit_durable (h := H) durable
    refine ⟨fun writes => becomes_carry d (eq.trans (if_pos ?_)), fun still ends => becomes_carry d (eq.trans ?_),
      fun still asks other => becomes_carry d (eq.trans ?_)⟩
    · exact Option.isSome_iff_ne_none.2 writes
    · exact (if_neg (Option.not_isSome_iff_eq_none.2 still)).trans (if_pos ends)
    · exact (if_neg (Option.not_isSome_iff_eq_none.2 still)).trans (if_neg (not_or.2 ⟨asks, other⟩))
  case first =>
    refine checked_then d (fwCommit_first first) (by simp [and_assoc]) fun _ taken => ⟨fun writes => becomes_congr taken (commitSlot_waits writes),
      fun still runs boots kept => ?_, fun still runs other => ?_, fun st still other refused => ?_, fun still other fits => ?_⟩
    · exact becomes_congr taken ((commitSlot_running still runs).trans (if_pos ⟨boots, by simp [kept]⟩))
    · exact becomes_congr taken ((commitSlot_running still runs).trans (if_neg (by simpa [or_iff_not_imp_left] using other)))
    · exact becomes_congr taken (commitSlot_refused still other refused)
    · exact becomes_congr taken (commitSlot_writes still other fits)
  case store =>
    refine checked_then d overlayStore_eq (by simp [and_assoc]) fun _ taken => ⟨fun awaited => becomes_congr taken (withData_asks awaited),
      fun data ready => ?_⟩
    replace taken := becomes_congr taken (withData_ready ready)
    refine ⟨fun bad => becomes_congr taken (takeOverlay_unsigned bad), fun signed bad => becomes_congr taken ?_, fun signed good => becomes_congr taken ?_⟩
    · exact (takeOverlay_signed signed).trans (needFields_not (ne_true_of_eq_false bad))
    · exact (takeOverlay_signed signed).trans (needFields_of good)
  case delete => exact checked_then d overlayDelete_eq deleteOk_iff fun _ => id
  case select =>
    refine ⟨fun writes => becomes_carry d (if_pos ?_), fun still durable => becomes_carry d ?_, fun still first => ?_⟩
    · exact Option.isSome_iff_ne_none.2 writes
    · exact (if_neg (Option.not_isSome_iff_eq_none.2 still)).trans (if_pos durable)
    · exact checked_then d (overlaySelect_first still first) selectOk_iff fun _ => id
  case attest =>
    refine checked_then d attest_eq (by simp [and_assoc]) fun ok taken => ?_
    obtain ⟨-, -, room⟩ := ok
    exact becomes_congr taken (attestBody_eq room)
  case rests => exact becomes_of rfl (bootRun_rests rests)
  case ready =>
    refine ⟨becomes_of rfl (bootRun_ready on last), yields_of rfl ?_⟩
    rw [bootRun_ready on last]
    exact ⟨bootReady_ready, bootReady_stage, bootReady_trial⟩

end Sys2Proof.Machine
end

section
/-!
Training of the host link and its retraining (17 R451 to R454, R457, R462).
-/
namespace Sys2Proof.Machine

/-! ## Training (R451) -/

section
variable {lanes t : Nat} {h : Hw}

/-- A training may end now: power, no link yet, no wait for another attempt, and none that has passed. -/
def TrainingDue (h : Hw) : Prop :=
  h.wdn.power = true ∧ h.host.link.state < 2 ∧ h.host.link.retryAt = none ∧ (h.host.link.state = 1 → h.host.link.trained = 0)

theorem trainingDue_iff : (!h.wdn.power || decide (2 ≤ h.host.link.state) || h.host.link.retryAt.isSome ||
    (decide (h.host.link.state = 1) && h.host.link.trained != 0)) = false ↔ TrainingDue h := by
  simp [TrainingDue, and_assoc]

theorem linkTraining_not (n : ¬TrainingDue h) : linkTraining lanes h = h := if_pos (eq_true_of_ne_false (mt trainingDue_iff.1 n))

theorem linkTraining_due (due : TrainingDue h) : linkTraining lanes h = trainEnd lanes h := if_neg (ne_true_of_eq_false (trainingDue_iff.2 due))

theorem trainEnd_none (narrow : widest lanes = 0) : trainEnd lanes h =
    modLink (fun l => { l with state := 1, width := 0, trained := 0, retryAt := some (now h + 10000000) })
      (modLink (fun l => { l with lanesGood := lanes % 256 }) h) := if_pos narrow

/-- The link trained at width `w`, for INIT to follow. -/
def trainedAt (w : Nat) (h : Hw) : Hw :=
  modLink (fun l => { l with state := 1, width := w, trained := w, coeffs := true, retryAt := none, initAt := none, replayRun := 0, retrainFails := 0,
                             dropping := false }) h

theorem trainEnd_width (wide : widest lanes ≠ 0) : let k := trainedAt (widest lanes) (modLink (fun l => { l with lanesGood := lanes % 256 }) h)
    trainEnd lanes h = sendInit (if widest lanes < 8 then setHluEvt 3 k else k) := if_neg wide

theorem trainingRetry_early (waits : h.host.link.retryAt = some t) (early : now h < t) : trainingRetry h = h := by
  unfold trainingRetry
  rw [waits]
  exact if_pos early

theorem trainingRetry_due (waits : h.host.link.retryAt = some t) (due : t ≤ now h) : trainingRetry h = modLink (fun l => { l with retryAt := none }) h := by
  unfold trainingRetry
  rw [waits]
  exact if_neg (Nat.not_lt.2 due)
end

/-! ## INIT (R457) -/

/-- The credits of the four classes are at least their minima. -/
def creditsEnough (credits : List Nat) : Bool :=
  ([16, 64, 512, 16].zip credits).length = 4 && ([16, 64, 512, 16].zip credits).all (fun x => decide (x.1 ≤ x.2))

/-- Credits that the flits of a class hold while they wait to be replayed. -/
def creditsHeld (l : HostLink) (k : Nat) : Nat := (l.out.filter (fun m => m.cls = k && m.last.isSome && m.cls != 3)).foldl (fun n m => n + m.flits) 0

section
variable {credits r : List Nat} {a b c d t : Nat} {h : Hw}

theorem creditsEnough_cons : creditsEnough (a :: b :: c :: d :: r) = true ↔ 16 ≤ a ∧ 64 ≤ b ∧ 512 ≤ c ∧ 16 ≤ d := by
  simp [creditsEnough]

theorem creditsEnough_short (short : credits.length < 4) : creditsEnough credits = false := by
  simp only [creditsEnough, List.length_zip]
  simp
  omega

theorem creditsEnough_few (few : credits.length < 4 ∨ ∃ a b c d r, credits = a :: b :: c :: d :: r ∧ (a < 16 ∨ b < 64 ∨ c < 512 ∨ d < 16)) :
    creditsEnough credits = false := by
  obtain short | ⟨a, b, c, d, r, rfl, few⟩ := few
  · exact creditsEnough_short short
  · exact eq_false_of_ne_true (mt creditsEnough_cons.1 (by omega))

theorem linkInit_not (n : ¬(h.host.link.state = 1 ∧ h.host.link.trained ≠ 0)) : linkInit credits h = h := if_pos (by simpa [or_iff_not_imp_left] using n)

theorem linkInit_ready (ready : h.host.link.state = 1 ∧ h.host.link.trained ≠ 0) : linkInit credits h =
    if !creditsEnough credits then modLink (fun l => { l with initAt := some (now h + 1000000) }) h
    else pump (modLink (fun l => { l with state := 2, initAt := none
                                          credits := (List.range 4).map (fun k => (credits[k]?).getD 0 - creditsHeld h.host.link k) }) h) :=
  if_neg (by simp [ready])

theorem initRetry_early (waits : h.host.link.initAt = some t) (early : now h < t) : initRetry h = h := by
  unfold initRetry
  rw [waits]
  exact if_pos early

theorem initRetry_due (waits : h.host.link.initAt = some t) (due : t ≤ now h) :
    initRetry h = sendInit (modLink (fun l => { l with initAt := none }) h) := by
  unfold initRetry
  rw [waits]
  exact if_neg (Nat.not_lt.2 due)
end

/-! ## Retraining and reset (R452, R462) -/

/-- A retrain counted, its event raised. -/
def retrainNoted (lanes : Nat) (h : Hw) : Hw :=
  setHluEvt 1 (modLink (fun l => { l with retrains := satAdd 8 l.retrains 1, retrainReq := false, replayRun := 0, lanesGood := lanes % 256 }) h)

/-- The link up at the width that a retrain found. -/
def retrained (w : Nat) (h : Hw) : Hw := modLink (fun l => { l with state := 2, width := w, trained := w, retrainFails := 0, dropping := false }) h

section
variable {lanes : Nat} {h : Hw}

theorem linkRetrain_not (n : ¬(h.host.link.coeffs = true ∧ 2 ≤ h.host.link.state)) : linkRetrain lanes h = h :=
  if_pos (by simpa [imp_iff_not_or] using n)

theorem linkRetrain_due (due : h.host.link.coeffs = true ∧ 2 ≤ h.host.link.state) : linkRetrain lanes h =
    if widest lanes = 0 then
      if h.host.link.retrainFails = 0 then modLink (fun l => { l with state := 5, retrainFails := 1 }) (retrainNoted lanes h)
      else modLink (fun l => { l with state := 0, width := 0, trained := 0, retrainFails := 0 }) (retrainNoted lanes h)
    else pump (if widest lanes < 8 then setHluEvt 3 (retrained (widest lanes) (retrainNoted lanes h)) else retrained (widest lanes) (retrainNoted lanes h)) :=
  if_neg (by simp [due.1, Nat.not_lt.2 due.2])

theorem linkReset_idle (idle : h.host.link.state = 0) : linkReset h = h := if_pos idle
end

end Sys2Proof.Machine
end

section
/-!
Flits and messages of the host link (17 R455 to R460, R465; 22 R555).
-/
namespace Sys2Proof.Machine

/-! ## Flits (R455, R456) -/

@[simp] theorem saturated_host (w detail old new : Nat) (h : Hw) : (saturated w detail old new h).host = h.host := by rw [saturated_frame]

/-- A change of the link counts by what it makes of the link alone. -/
theorem modLink_congr {f k : HostLink → HostLink} {h : Hw} (e : f h.host.link = k h.host.link) : modLink f h = modLink k h := by
  unfold modLink
  rw [e]

/-- The flit's corrected symbols counted. -/
def fecCounted (x : HostFlit) (h : Hw) : Hw :=
  let n := satAdd 32 h.host.link.fecCorr x.corrected
  saturated 32 0x10008 h.host.link.fecCorr n (modLink (fun l => { l with fecCorr := n }) h)

/-- The flit is dropped, and what comes until the one that is waited for. -/
def dropFlits (h : Hw) : Hw := modLink (fun l => { l with dropping := true }) h

def HostLink.addCredits (cr : Nat × Nat) (l : HostLink) : HostLink := { l with credits := l.credits.set cr.1 ((l.credits[cr.1]?).getD 0 + cr.2) }

/-- Messages that an acknowledgement up to `a` leaves in the replay buffer. -/
def HostLink.unacked (l : HostLink) (a : Nat) : List HMsg :=
  l.out.filter (fun m => match m.last with
    | some s => !hseqLe s a
    | none => true)

/-- What the flit acknowledges leaves the replay buffer. -/
def hostAcked (x : HostFlit) (h : Hw) : Hw :=
  match x.ack with
  | none => h
  | some a => modLink (fun l => { l with
      out := l.unacked a, replayRun := if (l.unacked a).length = l.out.length then l.replayRun else 0 }) h

/-- A flit in sequence taken: acknowledgement, credits, the next number, an end to dropping. -/
def hostTaken (x : HostFlit) (h : Hw) : Hw :=
  modLink (fun l => { l with rxNext := (l.rxNext + 1) % 4096, dropping := false })
    (modLink (fun l => (l.addCredits x.crA).addCredits x.crB) (hostAcked x h))

section
variable {x : HostFlit} {h : Hw}

theorem fecCounted_link : (fecCounted x h).host.link = { h.host.link with fecCorr := satAdd 32 h.host.link.fecCorr x.corrected } := by
  unfold fecCounted
  rw [saturated_host]
  rfl

theorem hostTaken_loop : (hostTaken x h).host.link.loop = h.host.link.loop := by
  unfold hostTaken hostAcked
  cases x.ack <;> rfl

theorem flitReceive_down (down : ¬linkUp h.host.link = true) : flitReceive x h = h := if_pos (by simpa using down)

section
variable (up : linkUp h.host.link = true)
include up

theorem flitReceive_uncorrectable (bad : x.fecBad = true) : flitReceive x h =
    let u := satAdd 32 h.host.link.fecUncorr 1
    setHluEvt 0 (saturated 32 0x1000C h.host.link.fecUncorr u (modLink (fun l => { l with fecUncorr := u, dropping := true }) (fecCounted x h))) := by
  have count : h.host.link.fecUncorr = (fecCounted x h).host.link.fecUncorr := by rw [fecCounted_link]
  rw [count]
  exact (if_neg (by simp [up])).trans (if_pos bad)

variable (whole : x.fecBad = false)
include whole

theorem flitReceive_badCheck (bad : x.good = false) : flitReceive x h = dropFlits (fecCounted x h) :=
  (if_neg (by simp [up])).trans ((if_neg (ne_true_of_eq_false whole)).trans (if_pos (by simp [bad])))

variable (good : x.good = true)
include good

theorem flitReceive_malformed (bad : x.zeros = false ∨ 2 < x.cls) : flitReceive x h = setHluEvt 4 (dropFlits (fecCounted x h)) :=
  (if_neg (by simp [up])).trans ((if_neg (ne_true_of_eq_false whole)).trans ((if_neg (by simp [good])).trans
    (if_pos (bad.imp_left fun z => by simp [z]))))

variable (formed : x.zeros = true) (cls : x.cls ≤ 2)
include formed cls

/-- A well-formed flit: one out of sequence, an idle one while dropping, one that is taken. -/
theorem flitReceive_formed : flitReceive x h =
    let k := fecCounted x h
    if !x.idle && x.seq != k.host.link.rxNext then if hseqLe (x.seq + 1) k.host.link.rxNext then k else dropFlits k
    else if x.idle && k.host.link.dropping then k
    else
      let k := modLink (fun l => (l.addCredits x.crA).addCredits x.crB) (hostAcked x k)
      let k := if x.idle then k else modLink (fun l => { l with rxNext := (l.rxNext + 1) % 4096, dropping := false }) k
      if k.host.link.loop = 3 && !x.idle && decide (x.cls ≤ 1) then sendMsg 2 (.echo x.len x.data) k else pump k := by
  refine (if_neg (by simp [up])).trans ((if_neg (ne_true_of_eq_false whole)).trans ((if_neg (by simp [good])).trans ((if_neg ?_).trans ?_)))
  · simp [formed, cls]
  · rfl

theorem flitReceive_outOfTurn (busy : x.idle = false) (out : x.seq ≠ h.host.link.rxNext) : flitReceive x h =
    if hseqLe (x.seq + 1) h.host.link.rxNext then fecCounted x h else dropFlits (fecCounted x h) := by
  rw [flitReceive_formed up whole good formed cls]
  simp only [fecCounted_link]
  exact if_pos (by simp [busy, out])

theorem flitReceive_idleDropping (idle : x.idle = true) (drops : h.host.link.dropping = true) : flitReceive x h = fecCounted x h := by
  rw [flitReceive_formed up whole good formed cls]
  simp only [fecCounted_link]
  exact (if_neg (by simp [idle])).trans (if_pos (by simp [idle, drops]))

theorem flitReceive_taken (busy : x.idle = false) (turn : x.seq = h.host.link.rxNext) (open_ : h.host.link.loop ≠ 3) :
    flitReceive x h = pump (hostTaken x (fecCounted x h)) := by
  have loop : (hostTaken x (fecCounted x h)).host.link.loop ≠ 3 := by
    rw [hostTaken_loop, fecCounted_link]
    exact open_
  rw [flitReceive_formed up whole good formed cls]
  refine (if_neg (by simp [fecCounted_link, turn])).trans ((if_neg (by simp [busy])).trans ?_)
  simp only [busy, Bool.false_eq_true, if_false]
  exact if_neg fun e => loop (of_decide_eq_true (Bool.and_eq_true_iff.1 (Bool.and_eq_true_iff.1 e).1).1)
end

/-- What an acknowledgement leaves after a flit was counted, in terms of the link before. -/
theorem hostAcked_fecCounted : hostAcked x (fecCounted x h) = match x.ack with
    | none => fecCounted x h
    | some a => modLink (fun y => { y with
        out := h.host.link.unacked a
        replayRun := if (h.host.link.unacked a).length = h.host.link.out.length then h.host.link.replayRun else 0 }) (fecCounted x h) := by
  unfold hostAcked
  cases x.ack with
  | none => rfl
  | some a => exact modLink_congr (by rw [fecCounted_link]; rfl)
end

/-! ## Widening, replay and loop-backs (R454, R455; 22 R555) -/

section
variable {h : Hw}

theorem wideningDone_not (n : h.host.link.state ≠ 4) : wideningDone h = h := if_pos n
theorem wideningDone_widens (widens : h.host.link.state = 4) : wideningDone h =
    sendMsg 3 (.width h.host.link.trained h.host.link.txNext) (modLink (fun l => { l with state := 2, width := l.trained }) h) :=
  if_neg (not_not_intro widens)

/-- A WIDTH message that the link takes: it is up, and the width is one that it trained. -/
def WidthOk (w : Nat) (h : Hw) : Prop := linkUp h.host.link = true ∧ (w = 2 ∨ w = 4 ∨ w = 8) ∧ w ≤ h.host.link.trained

section
variable {w : Nat}

theorem widthOk_iff : (!linkUp h.host.link || !(decide (w = 2) || decide (w = 4) || decide (w = 8)) || decide (h.host.link.trained < w)) = false ↔
    WidthOk w h := by
  simp [WidthOk, and_assoc, or_iff_not_imp_left]

theorem widthMsg_not (n : ¬WidthOk w h) : widthMsg w h = h := if_pos (eq_true_of_ne_false (mt widthOk_iff.1 n))

theorem widthMsg_ok (ok : WidthOk w h) : widthMsg w h =
    if h.host.link.state = 4 && w = h.host.link.trained then modLink (fun l => { l with state := 2, width := w }) h
    else modLink (fun l => { l with width := if l.state = 2 then w else l.width }) h := if_neg (ne_true_of_eq_false (widthOk_iff.2 ok))

theorem widthMsg_up (ok : WidthOk w h) (full : h.host.link.state = 2) : widthMsg w h = modLink (fun l => { l with width := w }) h := by
  rw [widthMsg_ok ok, if_neg (by simp [full])]
  exact modLink_congr (by simp [full])

theorem widthMsg_widening (ok : WidthOk w h) (widens : h.host.link.state = 4) (whole : w = h.host.link.trained) :
    widthMsg w h = modLink (fun l => { l with state := 2, width := w }) h := (widthMsg_ok ok).trans (if_pos (by simp [widens, whole]))
end

/-- Flits wait for their acknowledgement. -/
def unackedFlits (h : Hw) : Prop := h.host.link.out.any (fun m => m.last.isSome) = true

theorem hostReplay_not (n : ¬linkUp h.host.link = true ∨ ¬unackedFlits h) : hostReplay h = h :=
  if_pos (by simpa [unackedFlits] using n)

theorem hostReplay_again (up : linkUp h.host.link = true) (waits : unackedFlits h) : hostReplay h =
    healthError 8 1 (modLink (fun l => { l with replays := satAdd 16 l.replays 1, replayRun := l.replayRun + 1
                                                state := if 8 ≤ l.replayRun + 1 then 5 else l.state }) h) := by
  refine if_neg ?_
  rw [up, show h.host.link.out.any (fun m => m.last.isSome) = true from waits]
  decide

theorem resync_not (n : h.host.link.state ≠ 2) : resync h = h := if_pos n

section
variable {depth echo : Nat}

theorem loopMsg_down (down : ¬linkUp h.host.link = true) : loopMsg depth echo h = h := if_pos (by simpa using down)

theorem loopMsg_ends (up : linkUp h.host.link = true) : loopMsg 0 echo h = modLink (fun l => { l with loop := 0, loopWant := 0 }) h :=
  (if_neg (by simp [up])).trans (if_pos rfl)

theorem loopMsg_asks (up : linkUp h.host.link = true) (deep : depth = 3 ∨ depth = 4) :
    loopMsg depth echo h = enterLoop (modLink (fun l => { l with loopWant := depth, echo }) h) :=
  (if_neg (by simp [up])).trans ((if_neg (by omega)).trans (if_pos deep))

theorem enterLoop_enters (wanted : h.host.link.loopWant ≠ 0) (free : h.host.cmds = []) :
    enterLoop h = modLink (fun l => { l with loop := l.loopWant }) h := if_pos ⟨wanted, by simp [free]⟩

theorem enterLoop_waits (n : h.host.cmds ≠ []) : enterLoop h = h := if_neg (by simp [n])
end

/-! ## Doorbells, ring heads and data (R458 to R460; 18 R467) -/

section
variable {q count first len lat : Nat} {es : List (BitVec 512)}

/-- COUNT and LENGTH of a DOORBELL are in range. -/
def DoorbellOk (count len : Nat) (es : List (BitVec 512)) : Prop := 1 ≤ count ∧ count ≤ 3 ∧ len = 8 + 64 * count ∧ es.length = count

theorem doorbellOk_iff : ¬(count = 0 ∨ 3 < count ∨ len ≠ 8 + 64 * count ∨ es.length ≠ count) ↔ DoorbellOk count len es := by
  unfold DoorbellOk
  omega

theorem doorbell_not (n : ¬linkUp h.host.link = true ∨ h.host.link.loop = 3) : doorbell q count first len lat es h = h :=
  if_pos (by simpa using n)

section
variable (up : linkUp h.host.link = true) (inner : h.host.link.loop ≠ 3)
include up inner

theorem doorbell_malformed (bad : ¬DoorbellOk count len es) : doorbell q count first len lat es h = setHluEvt 4 h :=
  (if_neg (by simp [up, inner])).trans (if_pos (not_not.1 (mt doorbellOk_iff.1 bad)))

variable (ok : DoorbellOk count len es)
include ok

theorem doorbell_echoes (loop : h.host.link.loop = 4) :
    doorbell q count first len lat es h = es.foldl (fun h e => hostWrite h.host.link.echo 64 e.toNat h) h :=
  (if_neg (by simp [up, inner])).trans ((if_neg (doorbellOk_iff.2 ok)).trans (if_pos loop))

theorem doorbell_judges (outer : h.host.link.loop ≠ 4) : doorbell q count first len lat es h =
    let r := es.zipIdx.foldl (fun (a : List Verdict × Hw) e =>
      let v := judge q ((first + e.2) % (queueOf h q).depth) e.1 a.2
      (a.1 ++ [v.1], v.2)) ([], h)
    sendMsg 0 (.verdicts r.1) (modLink (fun l => { l with maxLat := max l.maxLat (min 65535 lat) }) r.2) :=
  (if_neg (by simp [up, inner])).trans ((if_neg (doorbellOk_iff.2 ok)).trans (if_neg outer))
end
end

section
variable {q head : Nat}

/-- A CQ_HEAD that frees slots: the queue exists, and the new head lies up to the tail (18 R467). -/
def HeadOk (q head : Nat) (h : Hw) : Prop :=
  let Q := queueOf h q
  linkUp h.host.link = true ∧ h.host.link.loop ≠ 3 ∧ Q.configured = true ∧ (head + Q.depth - Q.head) % Q.depth ≤ (Q.tail + Q.depth - Q.head) % Q.depth

theorem cqHead_frees (ok : HeadOk q head h) : cqHead q head h = modQueue q (fun Q => { Q with head := head % Q.depth }) h := by
  obtain ⟨up, inner, made, upTo⟩ := ok
  exact (if_neg (by simp [up, inner, made])).trans (if_pos upTo)

theorem cqHead_not (n : ¬HeadOk q head h) : cqHead q head h = h := by
  unfold cqHead
  dsimp only
  split
  · rfl
  · next taken =>
    simp only [Bool.or_eq_true, not_or, Bool.not_eq_true', Bool.not_eq_false, decide_eq_true_eq] at taken
    obtain ⟨⟨up, inner⟩, made⟩ := taken
    exact if_neg fun upTo => n ⟨up, inner, made, upTo⟩
end

section
variable {rtag len data : Nat} {r : HRead}

/-- A READ_REQ's bytes with those of a READ_DATA behind them. -/
def HRead.gathered (r : HRead) (len data : Nat) : HRead :=
  let n := min len (r.len - r.got)
  { r with got := r.got + n, data := r.data + data % 256 ^ n * 256 ^ r.got }

theorem readData_not (n : ¬linkUp h.host.link = true ∨ h.host.link.loop = 3) : readData rtag len data h = h := if_pos (by simpa using n)

theorem readData_eq (up : linkUp h.host.link = true) (inner : h.host.link.loop ≠ 3)
    (asked : h.host.link.reads.find? (fun r => r.rtag = rtag && r.sent) = some r) : readData rtag len data h =
      if (r.gathered len data).got < r.len then
        modLink (fun l => { l with reads := l.reads.map (fun x => if x.rtag = rtag then r.gathered len data else x) }) h
      else pump (modCmd r.cmd (fun c => { c with chunks := tput c.chunks r.chunk (r.gathered len data).data })
        (modLink (fun l => { l with reads := l.reads.filter (fun x => x.rtag != rtag) }) h)) := by
  refine (if_neg (by simp [up, inner])).trans ?_
  rw [asked]
  rfl
end
end

end Sys2Proof.Machine
end

section
/-!
Completion rings (18 R465, R467, R470, R488), and the statement about the host link as a whole.
-/
namespace Sys2Proof.Machine

/-! ## The completion formed first (R467) -/

/-- The entry whose completion was formed earlier, the one at hand on a tie. -/
def pickEarlier (a : Option Cmd) (c : Cmd) : Option Cmd :=
  match a with
  | some b => if c.form < b.form then some c else a
  | none => some c

/-- Entries of a queue with their completion formed. -/
def formedOn (q : Nat) (h : Hw) : List Cmd := h.host.cmds.filter (fun c => c.q = q && c.comp.isSome)

section
variable {c : Cmd} {l : List Cmd}

theorem pickEarlier_first {a : Option Cmd} (late : ∀ x ∈ a, x = c ∨ c.form < x.form) : pickEarlier a c = some c := by
  cases a with
  | none => rfl
  | some x =>
    obtain rfl | later := late x rfl
    · exact if_neg (Nat.lt_irrefl _)
    · exact if_pos later

theorem pickEarlier_keeps {x : Cmd} (later : c.form < x.form) : pickEarlier (some c) x = some c := if_neg (Nat.lt_asymm later)

theorem pickEarlier_mem {a : Option Cmd} {x y : Cmd} (m : y ∈ pickEarlier a x) : y = x ∨ y ∈ a := by
  unfold pickEarlier at m
  cases a with
  | none => exact .inl (by simpa [eq_comm] using m)
  | some b =>
    dsimp only at m
    split at m
    · exact .inl (by simpa [eq_comm] using m)
    · exact .inr m

/-- The first formed is found where it has been met or is still to come. -/
theorem foldl_pickEarlier {a : Option Cmd} (late : ∀ x ∈ a, x = c ∨ c.form < x.form) (met : a = some c ∨ c ∈ l)
    (first : ∀ d ∈ l, d ≠ c → c.form < d.form) : l.foldl pickEarlier a = some c := by
  induction l generalizing a with
  | nil => exact met.resolve_right (List.not_mem_nil)
  | cons x l ih =>
    have later (d : Cmd) (m : d ∈ l) : d ≠ c → c.form < d.form := first d (List.mem_cons_of_mem x m)
    by_cases here : x = c
    · rw [here, List.foldl_cons, pickEarlier_first late]
      exact ih (by simp) (.inl rfl) later
    · have after : c.form < x.form := first x List.mem_cons_self here
      refine ih (fun y m => ?_) ?_ later
      · obtain rfl | m := pickEarlier_mem m
        · exact .inr after
        · exact late y m
      · obtain rfl | m := met
        · exact .inl (pickEarlier_keeps after)
        · exact .inr ((List.mem_cons.1 m).resolve_left (Ne.symm here))
end

/-! ## Posting (R465, R467, R488) -/

section
variable {q : Nat} {h : Hw}

/-- A completion `x` of entry `c` written at the tail, its entry gone. -/
def postCompletion (q : Nat) (c : Cmd) (x : Comp) (h : Hw) : Hw :=
  let k := ringPut q (compBytes (queueOf h q) c.cid c.slot x.status x.flags q x.aux x.result) h
  enterLoop { k with host := { k.host with cmds := k.host.cmds.filter (fun y => y.id ≠ c.id) } }

theorem completionPost_eq : completionPost q h = match (formedOn q (formUnlisted q h)).foldl pickEarlier none with
    | none => formUnlisted q h
    | some c => match c.comp with
      | none => formUnlisted q h
      | some x => if ringRoom (queueOf (formUnlisted q h) q) = 0 then formUnlisted q h else postCompletion q c x (formUnlisted q h) := rfl

theorem completionPost_none (none : formedOn q (formUnlisted q h) = []) : completionPost q h = formUnlisted q h := by
  rw [completionPost_eq, none]
  rfl

theorem completionPost_full (full : ringRoom (queueOf (formUnlisted q h) q) = 0) : completionPost q h = formUnlisted q h := by
  rw [completionPost_eq]
  split
  · rfl
  · split
    · rfl
    · exact if_pos full

theorem completionPost_first {c : Cmd} {x : Comp} (formed : c ∈ formedOn q (formUnlisted q h))
    (first : ∀ d, d ∈ formedOn q (formUnlisted q h) → d ≠ c → c.form < d.form) (comp : c.comp = some x)
    (room : ringRoom (queueOf (formUnlisted q h) q) ≠ 0) : completionPost q h = postCompletion q c x (formUnlisted q h) := by
  rw [completionPost_eq, foldl_pickEarlier (by simp) (.inr formed) first]
  dsimp only
  rw [comp]
  exact if_neg room

theorem eventPost_eq {e : Event} {rest : List Event} (pending : h.ev.pend = e :: rest) : eventPost h =
    if (!h.wdn.power || decide (ringRoom (queueOf h 0) ≤ outstanding h 0)) = true then h
    else ringPut 0 (compBytes (queueOf h 0) 0xFFFF 0xFFF 0 2 0 (e.sev + 2 ^ 7 * bit h.ev.loss) e.result)
      { h with ev := { h.ev with pend := rest, loss := false } } := by
  unfold eventPost
  rw [pending]

theorem eventPost_keeps {e : Event} {rest : List Event} (pending : h.ev.pend = e :: rest)
    (n : h.wdn.power = false ∨ ringRoom (queueOf h 0) ≤ outstanding h 0) : eventPost h = h :=
  (eventPost_eq pending).trans (if_pos (by simpa using n))

theorem eventPost_oldest {e : Event} {rest : List Event} (pending : h.ev.pend = e :: rest) (on : h.wdn.power = true)
    (room : outstanding h 0 < ringRoom (queueOf h 0)) : eventPost h =
    ringPut 0 (compBytes (queueOf h 0) 0xFFFF 0xFFF 0 2 0 (e.sev + 2 ^ 7 * bit h.ev.loss) e.result) { h with ev := { h.ev with pend := rest, loss := false } } :=
  (eventPost_eq pending).trans (if_neg (by simpa [on] using room))
end

/-- Settles O56: training and INIT by their attempts, flits by R455, messages by their checks, the rings by the entry formed first. -/
theorem theHostLink : Obligations.TheHostLink := by
  intro s h l up lk
  refine ⟨fun lanes => ?training, fun t waits => ⟨fun early => becomes_of rfl (trainingRetry_early waits early),
      fun due => becomes_of rfl (trainingRetry_due waits due)⟩,
    fun credits => ?init, fun t waits => ⟨fun early => becomes_of rfl (initRetry_early waits early), fun due => becomes_of rfl (initRetry_due waits due)⟩,
    fun lanes => ?retrain, ⟨fun idle => becomes_of rfl (linkReset_idle idle), fun live => becomes_of rfl (if_neg live)⟩,
    ⟨fun n => becomes_of rfl (resync_not n), fun live => becomes_of rfl (if_neg (not_not_intro live))⟩,
    ⟨fun n => becomes_of rfl (wideningDone_not n), fun widens => becomes_of rfl (wideningDone_widens widens)⟩,
    fun w => ⟨fun n => becomes_of rfl (widthMsg_not n), fun ok full => becomes_of rfl (widthMsg_up ok full),
      fun ok widens whole => becomes_of rfl (widthMsg_widening ok widens whole)⟩,
    fun x => ?flit, ⟨fun n => becomes_of rfl (hostReplay_not n), fun on waits => becomes_of rfl (hostReplay_again on waits)⟩,
    fun q count first len lat es queue => ?doorbell, fun q head queue => ?cqHead, fun rtag len data r asked => ?readData, fun depth echo => ?loop,
    fun q queue => ?completion, fun e rest pending => ?event⟩
  case training =>
    refine ⟨fun n => becomes_of rfl (linkTraining_not n), fun due narrow => becomes_of rfl ((linkTraining_due due).trans (trainEnd_none narrow)),
      fun due wide => becomes_of rfl ((linkTraining_due due).trans (trainEnd_width wide))⟩
  case init =>
    refine ⟨fun n => becomes_of rfl (linkInit_not n), fun a b c d r ready given ha hb hc hd => becomes_of rfl ?_, fun ready few => becomes_of rfl ?_⟩
    · rw [linkInit_ready ready, given, creditsEnough_cons.2 ⟨ha, hb, hc, hd⟩]
      rfl
    · rw [linkInit_ready ready, creditsEnough_few few]
      rfl
  case retrain =>
    refine ⟨fun n => becomes_of rfl (linkRetrain_not n), fun due wide => becomes_of rfl ((linkRetrain_due due).trans (if_neg wide)),
      fun due narrow first => becomes_of rfl ?_, fun due narrow again => becomes_of rfl ?_⟩
    · exact (linkRetrain_due due).trans ((if_pos narrow).trans (if_pos first))
    · exact (linkRetrain_due due).trans ((if_pos narrow).trans (if_neg again))
  case flit =>
    refine ⟨fun down => becomes_of rfl (flitReceive_down down), fun on bad => becomes_of rfl (flitReceive_uncorrectable on bad),
      fun on whole bad => becomes_of rfl (flitReceive_badCheck on whole bad), fun on whole good bad => becomes_of rfl (flitReceive_malformed on whole good bad),
      fun on whole good formed cls => ⟨fun busy out => becomes_of rfl (flitReceive_outOfTurn on whole good formed cls busy out),
        fun idle drops => becomes_of rfl (flitReceive_idleDropping on whole good formed cls idle drops), fun busy turn open_ => becomes_of rfl ?_⟩⟩
    refine (flitReceive_taken on whole good formed cls busy turn open_).trans ?_
    rw [hostTaken, hostAcked_fecCounted]
    rfl
  case doorbell =>
    have here : decide (q < 256) = true := decide_eq_true queue
    refine ⟨fun n => becomes_of here (doorbell_not n), fun on inner bad => becomes_of here (doorbell_malformed on inner bad),
      fun on loop ok => becomes_of here (doorbell_echoes on (fun e => ?_) ok loop), fun on inner outer ok => becomes_of here (doorbell_judges on inner ok outer)⟩
    exact absurd (e.symm.trans loop) (by decide)
  case cqHead =>
    have here : decide (q < 256) = true := decide_eq_true queue
    exact ⟨fun n => becomes_of here (cqHead_not n), fun ok => becomes_of here (cqHead_frees ok)⟩
  case readData =>
    exact ⟨fun n => becomes_of rfl (readData_not n), fun on inner more => becomes_of rfl ((readData_eq on inner asked).trans (if_pos more)),
      fun on inner last => becomes_of rfl ((readData_eq on inner asked).trans (if_neg (Nat.not_lt.2 last)))⟩
  case loop =>
    refine ⟨fun down => becomes_of rfl (loopMsg_down down), fun on ends => becomes_of rfl (ends ▸ loopMsg_ends on),
      fun on deep => ⟨fun free => becomes_of rfl ((loopMsg_asks on deep).trans (enterLoop_enters (fun e => ?_) free)),
        fun busy => becomes_of rfl ((loopMsg_asks on deep).trans (enterLoop_waits busy))⟩⟩
    have none : depth = 0 := e
    omega
  case completion =>
    have here : decide (q < 256) = true := decide_eq_true queue
    refine ⟨fun n => becomes_of here (n.elim completionPost_none completionPost_full),
      fun c x formed first comp room => becomes_of here (completionPost_first formed first comp room)⟩
  case event =>
    exact ⟨fun n => becomes_of rfl (eventPost_keeps pending n), fun on room => becomes_of rfl (eventPost_oldest pending on room)⟩

end Sys2Proof.Machine
end
